-- ==== Sys2Proof/Word.lean ====
section
/-! DEFINITION. The widths the station's registers, records and frame fields have, under the names the model uses. -/

namespace Sys2Proof

/-- One byte of a frame body or a record form (R193, R194). -/
abbrev Byte := BitVec 8
/-- A 16-bit field: versions, tags, counters (R47, R89, R190). -/
abbrev Half := BitVec 16
/-- A 32-bit field: commit sequence, digests, usage counts, limits (R48, R50, R52). -/
abbrev Word := BitVec 32
/-- A check value: the first 3 bytes of the encryption of the zero block (R59). -/
abbrev Check := BitVec 24
/-- An approval's 8-byte code (R60). -/
abbrev Code := BitVec 64
/-- One 16-byte block of the station cipher (R58). -/
abbrev Block := BitVec 128
/-- 32 bytes of key material, also a cipher key (R42, R58). -/
abbrev Key := BitVec 256

/-- A node address 0 to 15 (R1). -/
abbrev Node := Fin 16
/-- A station node 0 to 7: the nodes that can stand in the live set (section 2.4). -/
abbrev StationId := Fin 8
/-- A slot of the key directory (R42). -/
abbrev SlotId := Fin 64
/-- A line entry (R122). -/
abbrev LineId := Fin 32
/-- A position of a line's ring (R123). -/
abbrev PosId := Fin 16
/-- A job descriptor (R141). -/
abbrev DescId := Fin 48
/-- A card block (R142). -/
abbrev BlockId := Fin 192
/-- An assembly area (R100). -/
abbrev AreaId := Fin 2

/-- A map over the 16 nodes, bit k for node k: a receipt map or a carried live-set map (R7, R27). -/
abbrev NodeMap := BitVec 16
/-- A set of station nodes, bit k for station k (section 2.4, R122). -/
abbrev StationSet := BitVec 8

end Sys2Proof
end

