-- ==== Sys2Proof/Syntax.lean ====
section
/-! DEFINITION. The commands the station takes: one constructor of Instr for each row of spec/opcode_table.json, the frames
they carry and the frames' bodies, field by field as R193 lays them out. Enumerated fields are the bytes of the frame:
the owning block judges a code outside its list (section 11.5). -/

namespace Sys2Proof

/-- A key's identity: issuer number and key index (R42). -/
structure Label where
  issuer : Check
  index : Byte
  deriving DecidableEq, Repr

/-- The destination byte: broadcast flag and destination node (R2, R192). -/
structure Dest where
  broadcast : Bool
  node : Node
  deriving DecidableEq, Repr

/-- What the frame shows before its body: its source and its destination (R2). The kind fixes the class (R3). -/
structure Header where
  src : Node
  dst : Dest
  deriving DecidableEq, Repr

/-- A line position as frames name it: gateway node, line number, position (R132). -/
structure PosRef where
  gateway : Byte
  line : Byte
  position : Byte
  deriving DecidableEq, Repr

/-- The 13-byte card record: 20 digits, sequence byte, application tag (R159, R193). -/
structure CardRecord where
  number : BitVec 80
  seq : Byte
  tag : Half
  deriving DecidableEq, Repr

/-- An approval: custodian slot and code (R193). -/
structure Approval where
  slot : Byte
  code : Code
  deriving DecidableEq, Repr

/-- An approval list: the count byte and the approvals that follow it (R193). -/
structure ApprovalList where
  count : Byte
  entries : List Approval
  deriving DecidableEq, Repr

/-- PRESENCE (R27, R193). -/
structure PresenceBody where
  state : Byte
  quorate : Bool
  yield : Bool
  seq : Word
  dirDigest : Word
  workDigest : Word
  live : NodeMap
  check : Check
  freeDescs : Byte
  freeBlocks : Byte
  deriving DecidableEq, Repr

/-- JOIN, without its founding flag (R193). -/
structure JoinBody where
  seq : Word
  dirDigest : Word
  workDigest : Word
  check : Check
  deriving DecidableEq, Repr

/-- CLAIM (R129, R193). -/
structure ClaimBody where
  pos : PosRef
  count : Byte
  master : Byte
  transport : Byte
  deriving DecidableEq, Repr

/-- PROPOSE (R64, R193). -/
structure ProposeBody where
  number : Byte
  slot : Byte
  kind : Byte
  mask : Byte
  expected : Half
  label : Label
  cls : Byte
  functions : Byte
  limit : Word
  window : Half
  bodyFollows : Bool
  approvals : ApprovalList
  deriving DecidableEq, Repr

/-- ORDER, without its kind code (R89, R193). -/
structure OrderBody where
  tag : Half
  slot : Byte
  label : Label
  mask : Byte
  functions : Byte
  limit : Word
  window : Half
  approvals : ApprovalList
  deriving DecidableEq, Repr

/-- COMPONENT (R101, R193). -/
structure ComponentBody where
  id : Half
  target : Byte
  label : Label
  cls : Byte
  functions : Byte
  limit : Word
  number : Byte
  m : Byte
  component : Key
  componentCheck : Check
  wholeCheck : Check
  approvals : ApprovalList
  deriving DecidableEq, Repr

/-- CLOSE: its two forms, from a gateway and from a station (R136, R193). -/
inductive CloseBody where
  | gateway (line : Byte)
  | station (gateway line reason : Byte)
  deriving DecidableEq, Repr

/-- One entry of a CLEARED: position and consumed count (R138). -/
structure ClearedEntry where
  position : Byte
  consumed : Byte
  deriving DecidableEq, Repr

/-- CLEARED (R138, R193): the count byte and the entries that follow. -/
structure ClearedBody where
  gateway : Byte
  line : Byte
  count : Byte
  entries : List ClearedEntry
  deriving DecidableEq, Repr

/-- JOB (R126, R193); the transport label is absent when the length is 20. -/
structure JobBody where
  line : Byte
  position : Byte
  function : Byte
  master : Label
  transport : Option Label
  card : CardRecord
  deriving DecidableEq, Repr

/-- BATCH (R126, R193). -/
structure BatchBody where
  line : Byte
  position : Byte
  function : Byte
  master : Label
  transport : Label
  count : Byte
  segSize : Byte
  policy : Byte
  deriving DecidableEq, Repr

/-- CARDS (R147, R193). -/
structure CardsBody where
  line : Byte
  position : Byte
  group : Byte
  records : List CardRecord
  deriving DecidableEq, Repr

/-- FINAL (R170, R193). -/
structure FinalBody where
  pos : PosRef
  status : Byte
  done : Byte
  consumed : Byte
  bad : Byte
  preemptions : Byte
  dAfter : Byte
  deriving DecidableEq, Repr

/-- A SLOT query's argument: by number or by label (R188). -/
inductive SlotSelector where
  | byNumber (slot : Byte)
  | byLabel (label : Label)
  deriving DecidableEq, Repr

/-- A frame as its kind and body give it (R3, R193). ANSWER, IMAGE contents, QUERY arguments and REPORT bodies are the
bytes themselves: they are laid out by other rules (R168, R194, R188, R189). -/
inductive Frame where
  | zero (cause : Byte)
  | presence (b : PresenceBody)
  | join (founding : Bool) (b : JoinBody)
  | expel (node reason : Byte)
  | claim (b : ClaimBody)
  | decline (pos : PosRef) (reason : Byte)
  | unclaimed (pos : PosRef)
  | cancel (line position : Byte)
  | propose (b : ProposeBody)
  | roundBody (number : Byte) (material : Key) (check : Check)
  | accept (proposer number : Byte)
  | refuse (proposer number reason : Byte)
  | commit (number : Byte) (seq : Word) (version : Half)
  | abandon (number reason : Byte)
  | order (kind : Byte) (b : OrderBody)
  | component (b : ComponentBody)
  | openLine (line : Byte)
  | close (b : CloseBody)
  | cleared (b : ClearedBody)
  | job (b : JobBody)
  | batch (b : BatchBody)
  | cards (b : CardsBody)
  | answer (body : List Byte)
  | final (b : FinalBody)
  | pull (area start : Byte)
  | image (area item : Byte) (seq : Word) (contents : List Byte)
  | query (tag : Half) (kind : Byte) (arg : List Byte)
  | report (body : List Byte)
  deriving DecidableEq, Repr

/-- A frame as its bits give it: the arbitration field's class, kind and source, the destination byte and the body
(R2, R192). The length byte is the number of body bytes. -/
structure RawFrame where
  cls : BitVec 2
  kind : BitVec 5
  src : Node
  dst : Byte
  body : List Byte
  deriving DecidableEq, Repr

/-- The levels at the strap pins and the door switch when a command's step samples them (R174, R187; log 3). -/
structure Pins where
  node : BitVec 4
  nsta : BitVec 3
  qrm : BitVec 3
  doorOpen : Bool
  deriving DecidableEq, Repr

/-- The six sense channels (R174). -/
inductive Channel where
  | T | V | L | M | D | C
  deriving DecidableEq, Repr

/-- The commands: one constructor for each row of spec/opcode_table.json, in the table's order. A frame command is that
frame, read intact from the link (R7). -/
inductive Instr where
  | supplyReturn (pins : Pins)
  | powerFail (pins : Pins)
  | clearAsserted
  | contention
  | arbitrationEnd (won : Bool)
  | frameSent (receipt : NodeMap) (pins : Pins)
  | abort
  | receiveError
  | misplacedFrame (raw : RawFrame)
  | zero (h : Header) (cause : Byte)
  | presence (h : Header) (b : PresenceBody)
  | join (h : Header) (b : JoinBody)
  | joinFounding (h : Header) (b : JoinBody)
  | expel (h : Header) (node reason : Byte) (pins : Pins)
  | claim (h : Header) (b : ClaimBody)
  | decline (h : Header) (pos : PosRef) (reason : Byte)
  | unclaimed (h : Header) (pos : PosRef)
  | cancel (h : Header) (line position : Byte)
  | propose (h : Header) (b : ProposeBody)
  | roundBody (h : Header) (number : Byte) (material : Key) (check : Check)
  | accept (h : Header) (proposer number : Byte)
  | refuse (h : Header) (proposer number reason : Byte)
  | commit (h : Header) (number : Byte) (seq : Word) (version : Half) (pins : Pins)
  | abandon (h : Header) (number reason : Byte)
  | orderActivate (h : Header) (b : OrderBody)
  | orderSuspend (h : Header) (b : OrderBody)
  | orderResume (h : Header) (b : OrderBody)
  | orderRetire (h : Header) (b : OrderBody)
  | orderDestroy (h : Header) (b : OrderBody)
  | orderEdit (h : Header) (b : OrderBody)
  | orderWindowOpen (h : Header) (b : OrderBody)
  | orderWindowClose (h : Header) (b : OrderBody)
  | orderRestart (h : Header) (b : OrderBody) (pins : Pins)
  | orderYield (h : Header) (b : OrderBody) (pins : Pins)
  | orderErase (h : Header) (b : OrderBody)
  | orderUnknownKind (h : Header) (kind : Byte) (b : OrderBody)
  | componentSlot (h : Header) (b : ComponentBody)
  | componentCabinet (h : Header) (b : ComponentBody)
  | openLine (h : Header) (line : Byte)
  | close (h : Header) (b : CloseBody)
  | cleared (h : Header) (b : ClearedBody)
  | job (h : Header) (b : JobBody)
  | batch (h : Header) (b : BatchBody)
  | cards (h : Header) (b : CardsBody)
  | answer (h : Header) (body : List Byte)
  | final (h : Header) (b : FinalBody)
  | pull (h : Header) (area start : Byte)
  | image (h : Header) (area item : Byte) (seq : Word) (contents : List Byte)
  | queryIdentity (h : Header) (tag : Half)
  | queryStatus (h : Header) (tag : Half)
  | querySlot (h : Header) (tag : Half) (sel : SlotSelector)
  | queryLine (h : Header) (tag : Half) (gateway line : Byte)
  | querySensors (h : Header) (tag : Half)
  | report (h : Header) (body : List Byte)
  | presenceLoad
  | silenceWatchExpiry (k : StationId)
  | listeningWindowExpiry
  | roundDeadlineExpiry
  | assemblyTimeout (a : AreaId)
  | pullTimerExpiry
  | verificationTimerExpiry
  | deferralTimerExpiry (l : LineId) (p : PosId)
  | unclaimedDeadlineExpiry (l : LineId) (p : PosId)
  | gatewayWatchExpiry (g : Node)
  | cardGapDeadlineExpiry (d : DescId)
  | channelSample (ch : Channel) (reading : BitVec 10)
  | windowExpiry
  | cardCompletion
  | retainedStorePowerLoss
  | clearReleased
  deriving DecidableEq, Repr

end Sys2Proof
end

