-- ==== Sys2Proof/WellFormed.lean ====
section
/-! DEFINITION. Which terms of Instr spell a command of the table: the checks a frame's fields must pass to be that row's
frame, whatever the station's straps (list lengths of R193, the kind codes of R89, the target of R106, the addressing
of R11). The meanings are total: a term that fails a check goes through the receive filter like any other frame. -/

namespace Sys2Proof

/-- The count byte tells the number of approvals, at most `most` (R193). -/
def ApprovalList.ok (a : ApprovalList) (most : Nat) : Bool :=
  a.entries.length ≤ most && a.count.toNat == a.entries.length

/-- 13 bytes a card record, 1 to 6 of them (R193). -/
def CardsBody.ok (b : CardsBody) : Bool := 1 ≤ b.records.length && b.records.length ≤ 6

/-- 0 to 15 entries, counted by the count byte (R138, R193). -/
def ClearedBody.ok (b : ClearedBody) : Bool :=
  b.entries.length ≤ 15 && b.count.toNat == b.entries.length

/-- A broadcast frame (R11). -/
def Header.isBroadcast (h : Header) : Bool := h.dst.broadcast

/-- An addressed frame (R11). -/
def Header.isAddressed (h : Header) : Bool := !h.dst.broadcast

/-- ANSWER: 11 bytes and 21 for each of 1 to 4 results (R193). -/
def answerLengthOk (n : Nat) : Bool := [32, 53, 74, 95].contains n

/-- REPORT: 3 bytes and the contents length of one of the nine kinds (R189). -/
def reportLengthOk (n : Nat) : Bool := [12, 68, 32, 88, 44, 16, 5, 7].contains n

/-- Contents length of a REPORT of each kind: IDENTITY to ASSEMBLY (R189). -/
def reportContentsLength? (kind : Byte) : Option Nat :=
  match kind.toNat with
  | 1 => some 9 | 2 => some 65 | 3 => some 29 | 4 => some 85 | 5 => some 41 | 6 => some 13 | 7 => some 2 | 8 => some 4
  | 9 => some 9
  | _ => none

/-- A REPORT body's length is that of the kind its third byte names; a kind outside its list names none, and the length is then one
of the nine (R189, R193; log 11). -/
def reportBodyOk (body : List Byte) : Bool :=
  reportLengthOk body.length &&
    match reportContentsLength? (body.getD 2 0#8) with
    | none => true
    | some n => body.length == 3 + n

/-- Contents length of an IMAGE of each area: MEMBERS, ROUNDS, SLOTS, LINES (R193). -/
def imageContentsLength? (area : Byte) : Option Nat :=
  match area.toNat with
  | 1 => some 5
  | 2 => some 74
  | 3 => some 59
  | 4 => some 85
  | _ => none

/-- The contents lengths an IMAGE body may have (R193). -/
def imageLengthOk (n : Nat) : Bool := [5, 74, 59, 85].contains n

/-- An addressed ORDER whose approvals are counted right. -/
def orderOk (h : Header) (b : OrderBody) : Bool := h.isAddressed && b.approvals.ok 2

def Instr.wellFormed : Instr → Bool
  | .supplyReturn _ => true
  | .powerFail _ => true
  | .clearAsserted => true
  | .contention => true
  | .arbitrationEnd _ => true
  | .frameSent _ _ => true
  | .abort => true
  | .receiveError => true
  | .misplacedFrame raw => raw.body.length ≤ 96
  | .zero h _ => h.isBroadcast
  | .presence h _ => h.isBroadcast
  | .join h _ => h.isBroadcast
  | .joinFounding h _ => h.isBroadcast
  | .expel h _ _ _ => h.isBroadcast
  | .claim h _ => h.isBroadcast
  | .decline h _ _ => h.isBroadcast
  | .unclaimed h _ => h.isBroadcast
  | .cancel h _ _ => h.isBroadcast
  | .propose h b => h.isBroadcast && b.approvals.ok 2
  | .roundBody h _ _ _ => h.isBroadcast
  | .accept h _ _ => h.isBroadcast
  | .refuse h _ _ _ => h.isBroadcast
  | .commit h _ _ _ _ => h.isBroadcast
  | .abandon h _ _ => h.isBroadcast
  | .orderActivate h b => orderOk h b
  | .orderSuspend h b => orderOk h b
  | .orderResume h b => orderOk h b
  | .orderRetire h b => orderOk h b
  | .orderDestroy h b => orderOk h b
  | .orderEdit h b => orderOk h b
  | .orderWindowOpen h b => orderOk h b
  | .orderWindowClose h b => orderOk h b
  | .orderRestart h b _ => orderOk h b
  | .orderYield h b _ => orderOk h b
  | .orderErase h b => orderOk h b
  | .orderUnknownKind h kind b => orderOk h b && !(2 ≤ kind.toNat && kind.toNat ≤ 12)
  | .componentSlot h b => h.isAddressed && b.target != 255#8 && b.approvals.ok 1
  | .componentCabinet h b => h.isBroadcast && b.target == 255#8 && b.approvals.ok 1
  | .openLine h _ => h.isBroadcast
  | .close h _ => h.isBroadcast
  | .cleared h b => h.isBroadcast && b.ok
  | .job h _ => h.isBroadcast
  | .batch h _ => h.isBroadcast
  | .cards h b => h.isBroadcast && b.ok
  | .answer h body => h.isAddressed && answerLengthOk body.length
  | .final h _ => h.isBroadcast
  | .pull h _ _ => h.isAddressed
  | .image h area _ _ contents => h.isAddressed && imageContentsLength? area == some contents.length
  | .queryIdentity h _ => h.isAddressed
  | .queryStatus h _ => h.isAddressed
  | .querySlot h _ _ => h.isAddressed
  | .queryLine h _ _ _ => h.isAddressed
  | .querySensors h _ => h.isAddressed
  | .report h body => h.isAddressed && reportBodyOk body
  | .presenceLoad => true
  | .silenceWatchExpiry _ => true
  | .listeningWindowExpiry => true
  | .roundDeadlineExpiry => true
  | .assemblyTimeout _ => true
  | .pullTimerExpiry => true
  | .verificationTimerExpiry => true
  | .deferralTimerExpiry _ _ => true
  | .unclaimedDeadlineExpiry _ _ => true
  | .gatewayWatchExpiry _ => true
  | .cardGapDeadlineExpiry _ => true
  | .channelSample _ _ => true
  | .windowExpiry => true
  | .cardCompletion => true
  | .retainedStorePowerLoss => true
  | .clearReleased => true

end Sys2Proof
end

