-- ==== Sys2Proof/Decode.lean ====
section
/-! DEFINITION. The decoder of table words. No row of spec/opcode_table.json gives bits (every row's "fields" is empty and
none has "fixed"), so no word spells a command. -/

namespace Sys2Proof

/-- The command a table word spells: none, since no row of the table gives bits (log 1). -/
def decodeTableWord (_nbits _w : Nat) : Option Instr := none

end Sys2Proof
end

