-- ==== Sys2Proof/Machine/Bytes.lean ====
section
/-! DEFINITION. Multi-byte fields as bytes, the most significant byte first (00_scope.md "Byte and bit order"), fields read
back from a body at an offset, and the two checks over bytes: CRC-32 (R194) and CRC-16 (R192). -/

namespace Sys2Proof.Machine

/-- The last `k` bytes of a number, most significant first. -/
def natBytes : Nat → Nat → List Byte
  | 0, _ => []
  | k + 1, x => natBytes k (x / 256) ++ [BitVec.ofNat 8 x]

/-- The number that bytes spell, most significant first. -/
def bytesNat (l : List Byte) : Nat := l.foldl (fun a b => a * 256 + b.toNat) 0

/-- A field of `k` bytes. -/
def field {w : Nat} (k : Nat) (x : BitVec w) : List Byte := natBytes k x.toNat

/-- The `k`-byte field that stands at an offset of a body. -/
def fieldAt (w k off : Nat) (l : List Byte) : BitVec w := BitVec.ofNat w (bytesNat ((l.drop off).take k))

/-- The byte at an offset of a body, 0 past its end. -/
def byteAt (off : Nat) (l : List Byte) : Byte := l.getD off 0#8

/-- A run of zero bytes. -/
def zeros (k : Nat) : List Byte := List.replicate k 0#8

/-- A flag as bit `k` of a byte. -/
def flag (k : Nat) (b : Bool) : Byte := if b then BitVec.twoPow 8 k else 0#8

/-- A left fold over bytes that has each value in hand before the next byte is read, so that Lean's kernel can evaluate it on long
lists (`foldForced_eq_foldl`). -/
def foldForced {w : Nat} (f : BitVec w → Byte → BitVec w) : BitVec w → List Byte → BitVec w
  | c, [] => c
  | c, b :: rest =>
    match (f c b).toNat with
    | 0 => foldForced f 0#w rest
    | n + 1 => foldForced f (BitVec.ofNat w (n + 1)) rest

/-- One bit of the reflected CRC-32 with polynomial 0x04C11DB7 (R194). -/
def crc32Bit (c : Word) : Word := if c.getLsbD 0 then (c >>> 1) ^^^ 0xEDB88320#32 else c >>> 1

/-- One byte of the CRC-32. -/
def crc32Byte (c : Word) (b : Byte) : Word :=
  crc32Bit (crc32Bit (crc32Bit (crc32Bit (crc32Bit (crc32Bit (crc32Bit (crc32Bit (c ^^^ b.setWidth 32))))))))

/-- CRC-32: initial value all ones, bits reflected, inverted at the end (R194). -/
def crc32 (l : List Byte) : Word := ~~~ foldForced crc32Byte 0xFFFFFFFF#32 l

/-- One bit of the CRC-16 with polynomial 0x1021 (R192). -/
def crc16Bit (c : Half) : Half := if c.getLsbD 15 then (c <<< 1) ^^^ 0x1021#16 else c <<< 1

/-- One byte of the CRC-16. -/
def crc16Byte (c : Half) (b : Byte) : Half :=
  crc16Bit (crc16Bit (crc16Bit (crc16Bit (crc16Bit (crc16Bit (crc16Bit (crc16Bit (c ^^^ (b.setWidth 16 <<< 8)))))))))

/-- CRC-16: initial value 0xFFFF, bits not reflected, no final inversion (R192). -/
def crc16 (l : List Byte) : Half := foldForced crc16Byte 0xFFFF#16 l

end Sys2Proof.Machine
end

