-- ==== Sys2Proof/Config.lean ====
section
/-! DEFINITION. What the model takes as given or leaves open (opaque constants), and the fixed numbers of the manual. -/

namespace Sys2Proof.Config

/-- The station cipher: a fixed keyed permutation of 16-byte blocks under a 256-bit key, "treated as given" by the
manual (00_scope.md, R58). Opaque: no proof can use a value of it (log 5). -/
opaque cipher : Key → Equiv.Perm Block

/-- FREE VALUE: how much of the maintenance window's remaining time has gone by when a SENSORS report is fetched
(R178, R189); applied to State.freeIndex and taken modulo the time remaining, so that an OPEN window keeps 1 s or more
(log 6). -/
opaque windowElapsed : Nat → Nat

/-- FREE VALUE: the used count that a settle leaves where used plus the cards charged is above 4,294,967,295, the end of
its range, for which R54 states no result; a function of the used and reserved counts before and of the request's n and k
(log 66). -/
opaque usedPastEnd : Word → Word → Nat → Nat → Word

/-! Durations the manual states. The model measures no time (log 2): an expiry is a command. They are written down here
so that each timer's length can be read beside its rule. -/

/-- Period of the presence load (R16, R27). -/
def presencePeriodMs : Nat := 50
/-- The silence watch (R33). -/
def silenceWatchMs : Nat := 150
/-- The listening window (R38). -/
def listeningWindowMs : Nat := 150
/-- The proposer's deadline (R76). -/
def roundDeadlineMs : Nat := 200
/-- The assembly timeout (R100). -/
def assemblyTimeoutMs : Nat := 300000
/-- The pull timer (R109). -/
def pullTimerMs : Nat := 50
/-- The verification timer (R109). -/
def verificationTimerMs : Nat := 100
/-- The deferral timer (R124). -/
def deferralMs : Nat := 2
/-- The unclaimed deadline (R124). -/
def unclaimedMs : Nat := 20
/-- The gateway watch (R124). -/
def gatewayWatchMs : Nat := 2000
/-- The card-gap deadline (R148). -/
def cardGapMs : Nat := 100

/-! Capacities and limits. -/

/-- Entries of the transmit queue (R14). -/
def queueEntries : Nat := 16
/-- A class-3 frame is taken only while fewer than this many class-3 frames are queued (R15). -/
def class3Limit : Nat := 12
/-- The largest body (R2). -/
def maxBody : Nat := 96
/-- Items of the custody queue (R62). -/
def custodyItems : Nat := 4
/-- Rounds of the open round list (R65). -/
def openRounds : Nat := 4
/-- Entries of the pull queue (R113). -/
def pullEntries : Nat := 4
/-- Entries of the query queue (R188). -/
def queryEntries : Nat := 4
/-- The largest value of a 32-bit count: the effective limit of a slot with usage limit 0, the end of the commit
sequence (R42, R48). -/
def maxCount : Nat := 4294967295
/-- The value at which a 16-bit version or counter stops (R47, R190). -/
def maxHalf : Nat := 65535
/-- Samples of a settling channel (R175). -/
def settleSamples : Nat := 32
/-- Samples of one baseline step (R177). -/
def stepSamples : Nat := 64
/-- Out-of-range samples that make a TAMPER (R176). -/
def tripSamples : Nat := 3

/-! The IDENTITY report's fixed codes (R189). -/
def vendorCode : Byte := 0x46#8
def partCode : Half := 0x4B16#16
def revision : Byte := 1#8

end Sys2Proof.Config
end

