-- ==== Sys2Proof/Machine/State.lean ====
section
/-! DEFINITION. Everything the spec gives one station to hold, block by block, as plain data; the reasons a step can stop;
and the state right after reset. Values that are functions of other state (duty, quorate, digests, free counts, ALERT) are
functions in Machine/Ops.lean and Machine/Digest.lean, not fields (log 4). -/

namespace Sys2Proof.Machine

/-! ## Membership unit (chapter 2) -/

/-- The station states of R21. -/
inductive StationState where
  | strapFault | blank | listening | catchup | live | detached | zeroised | retention
  deriving DecidableEq, Repr

/-- The DETACHED cause of R21. -/
inductive DetachedCause where
  | failed | ahead
  deriving DecidableEq, Repr

/-- A timer: not running, running, or run out and waiting for the station to act on it (R33, R124, R131, R137; log 2). -/
inductive TimerState where
  | stopped | running | expired
  deriving DecidableEq, Repr

/-- A peer record's standing (R28). -/
inductive Standing where
  | lower | higher | agree | differ
  deriving DecidableEq, Repr

/-- A peer record that is not NOT_HEARD (R28). -/
structure PeerRecord where
  state : StationState
  seq : Word
  dirDigest : Word
  workDigest : Word
  standing : Standing
  deriving DecidableEq, Repr

/-- One node's entry of the listening record (R38). -/
structure HeardRecord where
  state : StationState
  seq : Word
  yield : Bool
  check : Check
  deriving DecidableEq, Repr

structure Membership where
  state : StationState
  cause : Option DetachedCause
  live : StationSet
  peers : Vector (Option PeerRecord) 8
  heard : Vector (Option HeardRecord) 8
  windowOpen : Bool
  watches : Vector TimerState 8
  leaving : Bool
  restartOutstanding : Bool
  yieldMark : Bool
  retainedZeroised : Bool
  presenceLoading : Bool
  deriving DecidableEq, Repr

/-! ## Link interface (chapter 1) -/

/-- The cause a ZERO carries when the station itself zeroises (R181). -/
inductive ZeroCause where
  | channel (ch : Channel) | order
  deriving DecidableEq, Repr

/-- The EXPEL reasons, in the order of their codes (R35, section 11.5). -/
inductive ExpelReason where
  | silent | receiveError | sequence | mismatch | commitUnknown | commitVersion | refusedCommit | claimOverrun | restart
  deriving DecidableEq, Repr

/-- The decline reasons, in the order of their codes (R127). -/
inductive DeclineReason where
  | form | masterUnknown | masterUnusable | function | transportUnknown | transportUnusable | keyChanging | exhausted
  | noRoom | notQuorate
  deriving DecidableEq, Repr

/-- The ABANDON reasons (R84). -/
inductive AbandonReason where
  | refused | timeout | stale
  deriving DecidableEq, Repr

/-- What a queued QUERY asks for (R188). -/
inductive QueryArg where
  | identity | status | slot (sel : SlotSelector) | line (gateway line : Byte) | sensors
  deriving DecidableEq, Repr

/-- An entry of the query queue (R188). -/
structure Query where
  gateway : Node
  tag : Half
  arg : QueryArg
  deriving DecidableEq, Repr

/-- A frame as its producer hands it to the link interface: what is fixed when it is queued. The fields that are fetched
when the frame wins arbitration (R16) are not in it. -/
inductive TxFrame where
  | join (founding : Bool)
  | expel (node : StationId) (reason : ExpelReason)
  | claim (b : ClaimBody)
  | decline (pos : PosRef) (reason : DeclineReason)
  | unclaimed (pos : PosRef)
  | propose (b : ProposeBody)
  | roundBody (number : Byte) (material : Key) (check : Check)
  | accept (proposer number : Byte)
  | refuse (proposer number reason : Byte)
  | commit (number : Byte) (seq : Word) (version : Half)
  | abandon (number : Byte) (reason : AbandonReason)
  | closeSilence (gateway line : Byte)
  | cleared (b : ClearedBody)
  /-- `job` is the descriptor the segment belongs to, none once that job has left the pool (R165, R171; log 37); `body` is
  empty until admission, when it is formed (R168). -/
  | answer (job : Option DescId) (gateway : Node) (segment : Nat) (body : List Byte)
  /-- `job` as for `answer`; the D field of `b` is fetched when the frame wins (R135). -/
  | final (job : Option DescId) (b : FinalBody)
  /-- `stale`: the PULL of an attempt that has ended (R119; log 37). -/
  | pull (source : StationId) (area start : Byte) (stale : Bool)
  | image (puller : Node) (area item : Byte)
  | queryReport (q : Query)
  /-- A REPORT of the line table: OPEN_RESULT, REJECT (R125, R126). -/
  | report (gateway : Node) (body : List Byte)
  /-- A REPORT of the custody unit: ASSEMBLY, an order refused at arrival, a direct order done (R95, R99, R105). -/
  | custodyReport (gateway : Node) (body : List Byte)
  /-- A REPORT of the round controller: the outcome of an item (R86). -/
  | roundReport (gateway : Node) (body : List Byte)
  deriving DecidableEq, Repr

/-- A request held while its entry is contending (R18, R19). -/
inductive Hold where
  | none | withdraw | purge
  deriving DecidableEq, Repr

/-- A transmit queue entry that holds a frame (R14). Its class and its producer are read from the frame (`txClass`,
`txProducer`). -/
structure TxEntry where
  age : Nat
  frame : TxFrame
  hold : Hold
  deriving DecidableEq, Repr

/-- Where a candidate comes from (R4). -/
inductive Candidate where
  | alarm | presence | entry (age : Nat)
  deriving DecidableEq, Repr

/-- What the station is doing on the bus: neither contending nor sending, contending with a candidate, or sending the frame
whose fields were fetched when it won (R4, R5, R16). -/
inductive Bus where
  | idle
  | contending (c : Candidate)
  | sending (c : Candidate) (dst : Dest) (f : Frame)
  deriving DecidableEq, Repr

/-- The presence register: it holds a PRESENCE, and it is to hold one again after the one in transmission (R16). -/
structure PresenceRegister where
  held : Bool
  reload : Bool
  deriving DecidableEq, Repr

structure Link where
  /-- The transmit queue in order of admission: ages rise along the list (R14). -/
  queue : List TxEntry
  /-- Pending admissions in the order they became pending (R15). -/
  admissions : List TxFrame
  nextAge : Nat
  presence : PresenceRegister
  alarm : Option ZeroCause
  bus : Bus
  /-- Whether the station drove its receipt slot in the last frame that ended on the bus (R7); false from the entry to
  RETENTION on, and after any frame that ends while the station is off the link (R1, R184). -/
  slotDriven : Bool
  receiveErrors : Half
  misplaced : Half
  nonMember : Half
  deriving DecidableEq, Repr

/-! ## Directory (chapter 3) -/

/-- Slot states (R42, R43). -/
inductive SlotState where
  | empty | staged | active | suspended | retired
  deriving DecidableEq, Repr

/-- Slot classes (R44). -/
inductive KeyClass where
  | master | transport | custodian
  deriving DecidableEq, Repr

/-- A slot record (R42). `functions` is the set as coded: bit 0 CARD, bit 1 APP, bit 2 CHECK; `material` is in stored form. -/
structure Slot where
  state : SlotState
  cls : KeyClass
  label : Label
  version : Half
  functions : Byte
  limit : Word
  material : Key
  check : Check
  lastProposer : Byte
  lastNumber : Byte
  deriving DecidableEq, Repr

/-- A usage entry (R52). -/
structure Usage where
  used : Word
  reserved : Word
  exhausted : Bool
  deriving DecidableEq, Repr

/-- The cabinet key with its check value (R57). -/
structure CabinetKey where
  key : Key
  check : Check
  deriving DecidableEq, Repr

structure Directory where
  slots : Vector Slot 64
  usage : Vector Usage 64
  seq : Word
  key : Option CabinetKey
  deriving DecidableEq, Repr

/-! ## Round controller (chapter 4) -/

/-- The change kinds (R62), coded 1 to 9 (R89). -/
inductive ChangeKind where
  | importKey | activate | suspend | resume | retire | destroy | edit | windowOpen | windowClose
  deriving DecidableEq, Repr

/-- Key material in stored form with its check value: a BODY's contents, an IMPORT item's material (R62, R68). -/
structure StoredKey where
  material : Key
  check : Check
  deriving DecidableEq, Repr

/-- A custody queue item (R62). `byAssembly` marks the tag as an assembly id. -/
structure CustodyItem where
  origin : Node
  tag : Half
  byAssembly : Bool
  kind : ChangeKind
  slot : Byte
  label : Label
  cls : Byte
  functions : Byte
  limit : Word
  mask : Byte
  window : Half
  approvals : List Approval
  bound : Half
  material : Option StoredKey
  deriving DecidableEq, Repr

/-- The phases of a round record (R65). -/
inductive RoundPhase where
  | awaitingBody | voting
  deriving DecidableEq, Repr

/-- A round record (R65). Values stand as proposed, in the codes of the frame. -/
structure Round where
  proposer : StationId
  number : Byte
  slot : Byte
  kind : Byte
  mask : Byte
  label : Label
  cls : Byte
  functions : Byte
  limit : Word
  window : Half
  approvals : List Approval
  expected : Half
  phase : RoundPhase
  body : Option StoredKey
  deriving DecidableEq, Repr

/-- A station's vote mark for a round (R65, R72). -/
inductive VoteMark where
  | none | accepted | refused
  deriving DecidableEq, Repr

/-- A round of the open round list with this station's vote mark beside it (R65). -/
structure RoundEntry where
  round : Round
  mark : VoteMark
  deriving DecidableEq, Repr

/-- The phases of the own round (R63). -/
inductive OwnPhase where
  | none | held | proposed | bodyOut | counting | decided
  deriving DecidableEq, Repr

/-- The outcomes of a custody item, in the order of their codes (R86, R95). -/
inductive OrderOutcome where
  | done | conflict | roundsFull | refused | timeout | stale | lost | notServing | busy
  deriving DecidableEq, Repr

/-- The own round and what the proposer alone keeps for it (R63, R65, R73 to R76). -/
structure OwnRound where
  phase : OwnPhase
  number : Byte
  /-- A PROPOSE has been queued for the head item, so its report names a round id (R86). -/
  proposeQueued : Bool
  /-- The outcome the head item gets if the asked withdrawal of the own PROPOSE is taken; none: back to HELD (R67; log 37). -/
  onWithdrawn : Option OrderOutcome
  eligible : StationSet
  accepts : StationSet
  voted : StationSet
  /-- The first refusal reason's code, 0 for none (R74). -/
  firstRefusal : Byte
  deadline : Bool
  /-- The fixed outcome and detail in DECIDED (R63). -/
  outcome : Option (OrderOutcome × Byte)
  deriving DecidableEq, Repr

structure RoundControl where
  queue : List CustodyItem
  own : OwnRound
  counter : Byte
  /-- The open round list. A place is `none` only while items of a ROUNDS burst are awaited (R116). -/
  list : List (Option RoundEntry)
  deriving DecidableEq, Repr

/-! ## Custody unit (chapter 5) -/

/-- The phase of an area that is not FREE, with what only that phase holds (R100). -/
inductive AreaPhase where
  | collecting (accumulator : Key) | complete (stored : Key) | queued
  deriving DecidableEq, Repr

/-- An assembly area that is not FREE (R100). Bit k - 1 of `received` stands for component number k. `last` is the place in
wire order of the last component taken. -/
structure Area where
  phase : AreaPhase
  id : Half
  gateway : Node
  target : Byte
  label : Label
  cls : Byte
  functions : Byte
  limit : Word
  m : Byte
  received : BitVec 4
  expected : Check
  custodians : List Byte
  last : Nat
  deriving DecidableEq, Repr

/-- The direct-order record (R99); `kind` is the order's code. -/
structure DirectRecord where
  gateway : Node
  tag : Half
  kind : Byte
  deriving DecidableEq, Repr

structure Custody where
  areas : Vector (Option Area) 2
  record : Option DirectRecord
  deriving DecidableEq, Repr

/-! ## Catch-up unit (chapter 6) -/

/-- The pulling side's phases (R109). -/
inductive PullPhase where
  | idle | waitSource | pulling | verifying | joining
  deriving DecidableEq, Repr

/-- Why an attempt fails (R119). -/
inductive FailCause where
  | receiveError | sourceLost | pullTimeout | presenceTimeout | mismatch | joinRefused
  deriving DecidableEq, Repr

/-- An entry of the pull queue: the puller, the area, the start item and the items still to be sent (R113). -/
structure PullEntry where
  puller : Node
  area : Byte
  start : Byte
  items : List Byte
  deriving DecidableEq, Repr

structure CatchUp where
  phase : PullPhase
  source : Option StationId
  pullIndex : Nat
  awaited : List Byte
  pullTimer : Bool
  verifyTimer : Bool
  failures : Nat
  /-- The failure found in JOINING whose handling waits for the JOIN's withdrawal or delivery (R118). -/
  joinFailure : Option FailCause
  attempts : Half
  serve : List PullEntry
  deriving DecidableEq, Repr

/-! ## Line table (chapter 7) -/

/-- States of a line entry, free included (R122, R194). -/
inductive LineState where
  | free | opened | closing
  deriving DecidableEq, Repr

/-- States of a position (R123). -/
inductive PosState where
  | free | posted | claimed | done
  deriving DecidableEq, Repr

/-- Job kinds (R123). -/
inductive JobKind where
  | single | batch
  deriving DecidableEq, Repr

/-- Functions of a job; `none` in a FREE position, and in a job whose frame carries a function outside its list, which the
form check declines (R123, R127; log 11). -/
inductive JobFunction where
  | none | card | app | check
  deriving DecidableEq, Repr

/-- What settled a position (R123). -/
inductive SettledBy where
  | none | claim | decline | unclaimed | cancel | close
  deriving DecidableEq, Repr

/-- DONE reasons (R123). -/
inductive DoneReason where
  | none | finished | declined | unclaimed | cancelled | closed | lost | cleared | overrun
  deriving DecidableEq, Repr

/-- A position record (R123). Slots are bytes: 255 is NONE, and a FREE position holds 0. -/
structure Position where
  state : PosState
  kind : JobKind
  function : JobFunction
  master : Byte
  transport : Byte
  count : Byte
  settledBy : SettledBy
  owner : BitVec 4
  reason : DoneReason
  deriving DecidableEq, Repr

/-- A line entry (R122). -/
structure LineEntry where
  state : LineState
  gateway : Byte
  line : Byte
  p : BitVec 4
  d : BitVec 4
  pendingClear : StationSet
  positions : Vector Position 16
  deriving DecidableEq, Repr

/-- A posting note (R124). -/
structure PostingNote where
  segSize : Byte
  policy : Byte
  card : Option CardRecord
  place : Nat
  deriving DecidableEq, Repr

/-- A position's local line state (R124). -/
structure LocalPos where
  note : Option PostingNote
  deferral : TimerState
  deadline : TimerState
  deriving DecidableEq, Repr

structure LineTable where
  entries : Vector LineEntry 32
  locals : Vector (Vector LocalPos 16) 32
  /-- Gateway watches; `expired` is the mark of R137. -/
  watches : Vector TimerState 16
  /-- The line table is to consider its posted positions again (R129, R144); false between steps (log 10). -/
  notice : Bool
  deriving DecidableEq, Repr

/-! ## Job pool (chapter 8) -/

/-- Result statuses (R162). -/
inductive ResultStatus where
  | ok | badCard
  deriving DecidableEq, Repr

/-- A card's result (R162). -/
structure CardResult where
  index : Byte
  status : ResultStatus
  wrapped : Block
  check : Check
  deriving DecidableEq, Repr

/-- A record cell of a card block, or the inline card field (R141, R142). -/
inductive Cell where
  | empty | card (c : CardRecord) | result (r : CardResult)
  deriving DecidableEq, Repr

/-- How a job ended; `none` while it runs (R141, R169). -/
inductive JobStatus where
  | none | complete | keyStopped | cancelled | cardsTimeout | badSequence
  deriving DecidableEq, Repr

/-- The counters of a job that the engine works on: the batch context, and their copy in the descriptor (R141, R156).
`segment` is the number the next segment opened will have. -/
structure JobContext where
  next : Nat
  sent : Nat
  segment : Nat
  consumed : Nat
  bad : Nat
  preemptions : Nat
  version : Half
  label : Label
  deriving DecidableEq, Repr

/-- A job descriptor (R141). -/
structure Descriptor where
  pos : PosRef
  kind : JobKind
  function : JobFunction
  master : Byte
  transport : Byte
  count : Nat
  segSize : Nat
  policy : Byte
  inline : Cell
  /-- Chain places in order; a place is `none` once its block has been returned (R151). -/
  chain : List (Option BlockId)
  groupsExpected : Nat
  groupsReceived : Nat
  reserve : Nat
  gapRunning : Bool
  ctx : JobContext
  status : JobStatus
  cancelMark : Bool
  teardownMark : Bool
  deriving DecidableEq, Repr

/-- A clearing record (R153). -/
structure ClearingRecord where
  gateway : Byte
  line : Byte
  entries : List ClearedEntry
  outstanding : Nat
  deriving DecidableEq, Repr

structure Pool where
  descs : Vector Descriptor 48
  blocks : Vector (Vector Cell 6) 192
  free : List DescId
  claiming : List DescId
  loading : List DescId
  urgent : List DescId
  bulk : List DescId
  /-- The ENGINE queue: the current job (R143, R156). -/
  engine : Option DescId
  draining : List DescId
  freeBlocks : List BlockId
  clearing : List ClearingRecord
  refused : Bool
  deriving DecidableEq, Repr

/-! ## Derivation engine (chapter 9) -/

/-- Phases of a segment record (R166). -/
inductive SegPhase where
  | opened | held | pending | queued
  deriving DecidableEq, Repr

/-- A segment record (R166). -/
structure Segment where
  number : Nat
  first : Nat
  count : Nat
  version : Half
  phase : SegPhase
  deriving DecidableEq, Repr

structure Engine where
  /-- The card in flight, as the result its start fixed (R158, R160). -/
  inFlight : Option CardResult
  ctx : JobContext
  /-- The answer builder: each job's segment records in segment order (R166). -/
  segs : Vector (List Segment) 48
  undelivered : Half
  preempted : Half
  deriving DecidableEq, Repr

/-! ## Tamper monitor (chapter 10) -/

/-- Channel states (R174). -/
inductive ChannelState where
  | settling | armed | disarmed
  deriving DecidableEq, Repr

/-- A sense channel (R174 to R177). -/
structure ChannelRecord where
  state : ChannelState
  last : Nat
  baseline : Nat
  trip : Nat
  settleCount : Nat
  settleSum : Nat
  stepCount : Nat
  stepSum : Nat
  deriving DecidableEq, Repr

/-- The zeroisation cause record (R183). -/
inductive CauseRecord where
  | none | channel (ch : Channel) | order | peer (k : StationId)
  deriving DecidableEq, Repr

structure Tamper where
  /-- T, V, L, M, D, C in order (R174). -/
  channels : Vector ChannelRecord 6
  /-- The maintenance window: CLOSED, or OPEN with its remaining seconds (R178). -/
  window : Option Nat
  cause : CauseRecord
  retentionTrip : Bool
  storeValid : Bool
  deriving DecidableEq, Repr

/-! ## Report unit (chapter 11) and inputs -/

structure ReportUnit where
  queries : List Query
  dropped : Half
  deriving DecidableEq, Repr

/-- The strap values sampled at the last start (R187). -/
structure Straps where
  node : BitVec 4
  nsta : BitVec 3
  qrm : BitVec 3
  deriving DecidableEq, Repr

/-- The levels at the inputs (R24, R174, R184, R187; log 3). -/
structure Inputs where
  pins : Pins
  powerFail : Bool
  clear : Bool
  deriving DecidableEq, Repr

/-- The station's whole state, and the queue of commands that wait for it. -/
structure State where
  inputs : Inputs
  straps : Straps
  link : Link
  memb : Membership
  dir : Directory
  rounds : RoundControl
  cust : Custody
  catchUp : CatchUp
  lines : LineTable
  pool : Pool
  engine : Engine
  tamper : Tamper
  rep : ReportUnit
  /-- Frames delivered so far: the model's form of a place in wire order (R124; log 31). -/
  wirePlace : Nat
  /-- The index of the next free value (log 6). -/
  freeIndex : Nat
  /-- The commands that wait, first in, first out (log 2). -/
  pending : List Instr
  deriving DecidableEq, Repr

/-! ## Stops -/

/-- Reasons to stop with a fault: there is none. The spec gives every command an effect, or none, in every state, so no
meaning faults (safe: no claim can lean on a fault). -/
inductive Fault
  deriving DecidableEq, Repr

/-- Reasons to refuse a command. -/
inductive Refusal where
  /-- The command has no meaning in the model yet; raised by an arm of exec only, and by none now. Safe. -/
  | notModelled (mnemonic : String)
  deriving DecidableEq, Repr

/-! ## Empty values -/

def Label.zero : Label := ⟨0#24, 0#8⟩

/-- An EMPTY slot that has never held a key (R42). -/
def Slot.zero : Slot := ⟨.empty, .master, Label.zero, 0#16, 0#8, 0#32, 0#256, 0#24, 0#8, 0#8⟩

def Usage.zero : Usage := ⟨0#32, 0#32, false⟩

/-- No own round (R88). -/
def OwnRound.empty : OwnRound := ⟨.none, 0#8, false, none, 0#8, 0#8, 0#8, 0#8, false, none⟩

def RoundControl.empty : RoundControl := ⟨[], OwnRound.empty, 0#8, []⟩

def Custody.empty : Custody := ⟨Vector.replicate 2 none, none⟩

/-- A FREE position holds every field at zero (R123). -/
def Position.zero : Position := ⟨.free, .single, .none, 0#8, 0#8, 0#8, .none, 0#4, .none⟩

/-- A free line entry holds all fields at zero and every position FREE (R122). -/
def LineEntry.zero : LineEntry := ⟨.free, 0#8, 0#8, 0#4, 0#4, 0#8, Vector.replicate 16 Position.zero⟩

def LocalPos.empty : LocalPos := ⟨none, .stopped, .stopped⟩

def LineTable.empty : LineTable :=
  ⟨Vector.replicate 32 LineEntry.zero, Vector.replicate 32 (Vector.replicate 16 LocalPos.empty),
   Vector.replicate 16 .stopped, false⟩

def JobContext.zero : JobContext := ⟨0, 0, 0, 0, 0, 0, 0#16, Label.zero⟩

/-- A descriptor in the free list has its fields zero (R155). -/
def Descriptor.zero : Descriptor :=
  ⟨⟨0#8, 0#8, 0#8⟩, .single, .none, 0#8, 0#8, 0, 0, 0#8, .empty, [], 0, 0, 0, false, JobContext.zero, .none, false, false⟩

def emptyBlock : Vector Cell 6 := Vector.replicate 6 .empty

/-- The pool with every descriptor and block free, in number order (R155). -/
def Pool.empty : Pool :=
  ⟨Vector.replicate 48 Descriptor.zero, Vector.replicate 192 emptyBlock,
   List.finRange 48, [], [], [], [], none, [], List.finRange 192, [], false⟩

def noSegments : Vector (List Segment) 48 := Vector.replicate 48 []

/-- A channel at a cold start (R186); its last sample is 0 (log 33). -/
def ChannelRecord.zero : ChannelRecord := ⟨.settling, 0, 0, 0, 0, 0, 0, 0⟩

/-! ## Reset -/

/-- The input levels at reset: the straps of station 0 in a cabinet of 2 with quorum 2, the door closed, power-fail and
CLEAR released (DESIGN CHOICE, logs 1 and 3). -/
def Inputs.reset : Inputs := ⟨⟨0#4, 1#3, 1#3, false⟩, false, false⟩

/-- The station right after a cold start with valid straps (R20, R23, R41, R61, R88, R108, R121, R140, R155, R173, R186,
R188): BLANK, its presence loaded (R27), nothing else in flight. -/
def State.reset : State where
  inputs := Inputs.reset
  straps := ⟨0#4, 1#3, 1#3⟩
  link := ⟨[], [], 0, ⟨true, false⟩, none, .idle, false, 0#16, 0#16, 0#16⟩
  memb := ⟨.blank, none, 0#8, Vector.replicate 8 none, Vector.replicate 8 none, false, Vector.replicate 8 .stopped,
    false, false, false, false, true⟩
  dir := ⟨Vector.replicate 64 Slot.zero, Vector.replicate 64 Usage.zero, 0#32, none⟩
  rounds := RoundControl.empty
  cust := Custody.empty
  catchUp := ⟨.idle, none, 0, [], false, false, 0, none, 0#16, []⟩
  lines := LineTable.empty
  pool := Pool.empty
  engine := ⟨none, JobContext.zero, noSegments, 0#16, 0#16⟩
  tamper := ⟨Vector.replicate 6 ChannelRecord.zero, none, .none, false, true⟩
  rep := ⟨[], 0#16⟩
  wirePlace := 0
  freeIndex := 0
  pending := []

end Sys2Proof.Machine
end

