-- ==== Sys2Proof/Machine/Tables.lean ====
section
/-! DEFINITION. Reading and writing the station's fixed tables, and sets of station nodes kept as bits. Every table of State
is read with `tget` and written with `tset`. -/

namespace Sys2Proof.Machine

/-- The record a table holds at an index. -/
def tget {α : Type} {n : Nat} (t : Vector α n) (i : Fin n) : α := t[i.val]

/-- The table with another record at an index. -/
def tset {α : Type} {n : Nat} (t : Vector α n) (i : Fin n) (x : α) : Vector α n := t.set i.val x i.isLt

/-- The table with one function applied to every record. -/
def tmap {α β : Type} {n : Nat} (f : α → β) (t : Vector α n) : Vector β n := ⟨(t.toList.map f).toArray, by simp⟩

/-- The table with one record changed by a function. -/
def tmod {α : Type} {n : Nat} (t : Vector α n) (i : Fin n) (f : α → α) : Vector α n := tset t i (f (tget t i))

/-- The table with `f i` at index i. -/
def tableOf {α : Type} (n : Nat) (f : Nat → α) : Vector α n := ⟨((List.range n).map f).toArray, by simp⟩

/-- A byte as an index of a table of `n` records, when it is in its range. -/
def indexOf? (n : Nat) (b : Byte) : Option (Fin n) := if h : b.toNat < n then some ⟨b.toNat, h⟩ else none

/-- A directory slot named by a byte: 64 to 255 name none (R193: 255 is NONE). -/
def slotOf? (b : Byte) : Option SlotId := indexOf? 64 b

/-- An index as the byte a frame carries. -/
def byteOf {n : Nat} (i : Fin n) : Byte := BitVec.ofNat 8 i.val

/-- The station nodes in node order. -/
def stationList : List StationId := [0, 1, 2, 3, 4, 5, 6, 7]

/-- The set with one node added. -/
def setAdd (s : StationSet) (k : Nat) : StationSet := s ||| BitVec.twoPow 8 k

/-- The set with one node removed. -/
def setDel (s : StationSet) (k : Nat) : StationSet := s &&& ~~~ BitVec.twoPow 8 k

/-- Whether a node is in the set; nodes above 7 are in none. -/
def setHas (s : StationSet) (k : Nat) : Bool := s.getLsbD k

/-- The set's members in node order. -/
def setList (s : StationSet) : List StationId := stationList.filter (fun k => setHas s k.val)

/-- How many nodes the set holds. -/
def setCount (s : StationSet) : Nat := (setList s).length

/-- A carried live-set map as a set of station nodes, bits n to 15 clear (R27; log 23). -/
def setOfMap (n : Nat) (m : NodeMap) : StationSet := m.setWidth 8 &&& BitVec.ofNat 8 (2 ^ n - 1)

/-- A set of station nodes as the 16-bit map frames carry (R27). -/
def setToMap (s : StationSet) : NodeMap := s.setWidth 16

/-- A counter of 16 bits raised by one, held at 65,535 (R190). -/
def raise16 (c : Half) : Half := if c.toNat = 65535 then c else c + 1#16

end Sys2Proof.Machine
end

