-- ==== Sys2Proof/Machine/Operands.lean ====
section
/-! DEFINITION. The codes of enumerated fields (section 11.5), the record forms of R194 written as bytes and read back, the
bodies of R193 written as bytes and read back, and the form part of the receive filter: kinds, classes, roles, addressing
and lengths (R1, R3, R11, R12). -/

namespace Sys2Proof.Machine

/-! ## Codes of enumerated fields (section 11.5) -/

def StationState.code : StationState → Byte
  | .strapFault => 0#8 | .blank => 1#8 | .listening => 2#8 | .catchup => 3#8
  | .live => 4#8 | .detached => 5#8 | .zeroised => 6#8 | .retention => 7#8

def StationState.ofCode? (b : Byte) : Option StationState :=
  match b.toNat with
  | 0 => some .strapFault | 1 => some .blank | 2 => some .listening | 3 => some .catchup
  | 4 => some .live | 5 => some .detached | 6 => some .zeroised | 7 => some .retention
  | _ => none

def detachedCauseCode : Option DetachedCause → Byte
  | none => 0#8 | some .failed => 1#8 | some .ahead => 2#8

def SlotState.code : SlotState → Byte
  | .empty => 0#8 | .staged => 1#8 | .active => 2#8 | .suspended => 3#8 | .retired => 4#8

def SlotState.ofCode? (b : Byte) : Option SlotState :=
  match b.toNat with
  | 0 => some .empty | 1 => some .staged | 2 => some .active | 3 => some .suspended | 4 => some .retired
  | _ => none

def KeyClass.code : KeyClass → Byte
  | .master => 0#8 | .transport => 1#8 | .custodian => 2#8

def KeyClass.ofCode? (b : Byte) : Option KeyClass :=
  match b.toNat with
  | 0 => some .master | 1 => some .transport | 2 => some .custodian
  | _ => none

/-- The bits of the field mask (section 11.5). -/
def maskFunctions (m : Byte) : Bool := m.getLsbD 0
def maskLimit (m : Byte) : Bool := m.getLsbD 1
def maskResetUsed (m : Byte) : Bool := m.getLsbD 2
/-- The mask holds no item outside FUNCTIONS, LIMIT and RESET-USED (R90). -/
def maskListed (m : Byte) : Bool := m &&& 0xF8#8 == 0#8

def ChangeKind.code : ChangeKind → Byte
  | .importKey => 1#8 | .activate => 2#8 | .suspend => 3#8 | .resume => 4#8 | .retire => 5#8
  | .destroy => 6#8 | .edit => 7#8 | .windowOpen => 8#8 | .windowClose => 9#8

def ChangeKind.ofCode? (b : Byte) : Option ChangeKind :=
  match b.toNat with
  | 1 => some .importKey | 2 => some .activate | 3 => some .suspend | 4 => some .resume | 5 => some .retire
  | 6 => some .destroy | 7 => some .edit | 8 => some .windowOpen | 9 => some .windowClose
  | _ => none

/-- The codes of the order kinds beside the change kinds (R89). -/
def codeActivate : Byte := 2#8
def codeSuspend : Byte := 3#8
def codeResume : Byte := 4#8
def codeRetire : Byte := 5#8
def codeDestroy : Byte := 6#8
def codeEdit : Byte := 7#8
def codeWindowOpen : Byte := 8#8
def codeWindowClose : Byte := 9#8
def codeRestart : Byte := 10#8
def codeYield : Byte := 11#8
def codeErase : Byte := 12#8

def channelIndex : Channel → Fin 6
  | .T => 0 | .V => 1 | .L => 2 | .M => 3 | .D => 4 | .C => 5

def channelCode : Channel → Byte
  | .T => 1#8 | .V => 2#8 | .L => 3#8 | .M => 4#8 | .D => 5#8 | .C => 6#8

def ZeroCause.code : ZeroCause → Byte
  | .channel ch => channelCode ch
  | .order => 7#8

/-- A ZERO carries a channel or ORDER, codes 1 to 7; PEER stands in the cause record only (section 11.5). -/
def zeroCauseListed (b : Byte) : Bool := 1 ≤ b.toNat && b.toNat ≤ 7

def ExpelReason.code : ExpelReason → Byte
  | .silent => 1#8 | .receiveError => 2#8 | .sequence => 3#8 | .mismatch => 4#8 | .commitUnknown => 5#8
  | .commitVersion => 6#8 | .refusedCommit => 7#8 | .claimOverrun => 8#8 | .restart => 9#8

def ExpelReason.ofCode? (b : Byte) : Option ExpelReason :=
  match b.toNat with
  | 1 => some .silent | 2 => some .receiveError | 3 => some .sequence | 4 => some .mismatch | 5 => some .commitUnknown
  | 6 => some .commitVersion | 7 => some .refusedCommit | 8 => some .claimOverrun | 9 => some .restart
  | _ => none

def DeclineReason.code : DeclineReason → Byte
  | .form => 1#8 | .masterUnknown => 2#8 | .masterUnusable => 3#8 | .function => 4#8 | .transportUnknown => 5#8
  | .transportUnusable => 6#8 | .keyChanging => 7#8 | .exhausted => 8#8 | .noRoom => 9#8 | .notQuorate => 10#8

/-- A DECLINE's reason is one of R127's ten. -/
def declineReasonListed (b : Byte) : Bool := 1 ≤ b.toNat && b.toNat ≤ 10

def AbandonReason.code : AbandonReason → Byte
  | .refused => 1#8 | .timeout => 2#8 | .stale => 3#8

/-- An ABANDON's reason is one of R84's three. -/
def abandonReasonListed (b : Byte) : Bool := 1 ≤ b.toNat && b.toNat ≤ 3

/-- A REFUSE's reason is one of R70's twelve (R72). The code list that REFUSE reason and REFUSED detail share ends with BAD_APPROVAL 13
(section 11.5) and gives it to neither field alone: the model takes it as a detail only, outside a REFUSE's list (log 70). -/
def refuseReasonListed (b : Byte) : Bool := 1 ≤ b.toNat && b.toNat ≤ 12

def OrderOutcome.code : OrderOutcome → Byte
  | .done => 1#8 | .conflict => 2#8 | .roundsFull => 3#8 | .refused => 4#8 | .timeout => 5#8
  | .stale => 6#8 | .lost => 7#8 | .notServing => 8#8 | .busy => 9#8

/-- The detail BAD_APPROVAL of a REFUSED order (section 11.5). -/
def detailBadApproval : Byte := 13#8
/-- The detail FORM of a REFUSED order: R70's code. -/
def detailForm : Byte := 2#8

/-- The validation reasons of R70, by their codes. -/
inductive RefuseReason where
  | sequenceEnd | form | transition | version | label | cls | value | body | limit | inUse | custodianFloor | approval
  deriving DecidableEq, Repr

def RefuseReason.code : RefuseReason → Byte
  | .sequenceEnd => 1#8 | .form => 2#8 | .transition => 3#8 | .version => 4#8 | .label => 5#8 | .cls => 6#8
  | .value => 7#8 | .body => 8#8 | .limit => 9#8 | .inUse => 10#8 | .custodianFloor => 11#8 | .approval => 12#8

/-- The results of an OPEN (R125). -/
inductive OpenResult where
  | opened | alreadyOpen | closing | tableFull
  deriving DecidableEq, Repr

def OpenResult.code : OpenResult → Byte
  | .opened => 1#8 | .alreadyOpen => 2#8 | .closing => 3#8 | .tableFull => 4#8

/-- The REJECT reasons (R126). -/
inductive RejectReason where
  | noLine | sequence | ringFull
  deriving DecidableEq, Repr

def RejectReason.code : RejectReason → Byte
  | .noLine => 1#8 | .sequence => 2#8 | .ringFull => 3#8

/-- The ASSEMBLY statuses (R105). -/
inductive AssemblyStatus where
  | taken | complete | installed | failed | expired | lost | refused
  deriving DecidableEq, Repr

def AssemblyStatus.code : AssemblyStatus → Byte
  | .taken => 1#8 | .complete => 2#8 | .installed => 3#8 | .failed => 4#8 | .expired => 5#8 | .lost => 6#8 | .refused => 7#8

/-- The details of a REFUSED component (R105). -/
inductive AssemblyDetail where
  | notServing | form | badComponent | target | noArea | noAssembly | inconsistent | duplicate | badApproval
  deriving DecidableEq, Repr

def AssemblyDetail.code : AssemblyDetail → Byte
  | .notServing => 1#8 | .form => 2#8 | .badComponent => 3#8 | .target => 4#8 | .noArea => 5#8 | .noAssembly => 6#8
  | .inconsistent => 7#8 | .duplicate => 8#8 | .badApproval => 9#8

def JobFunction.bits : JobFunction → BitVec 2
  | .none => 0#2 | .card => 1#2 | .app => 2#2 | .check => 3#2

def JobFunction.ofBits (b : BitVec 2) : JobFunction :=
  match b.toNat with
  | 1 => .card | 2 => .app | 3 => .check | _ => .none

/-- The function a JOB or BATCH carries: CARD 1, APP 2, CHECK 3 (section 11.5); a code outside the list is kept as `none`, the 0
of the position record, which fails the form check (R127; log 11). -/
def JobFunction.ofCode (b : Byte) : JobFunction :=
  match b.toNat with
  | 1 => .card | 2 => .app | 3 => .check | _ => .none

/-- Whether a set of allowed functions holds a function (section 11.5: bit 0 CARD, bit 1 APP, bit 2 CHECK). -/
def JobFunction.allowedIn (f : JobFunction) (functions : Byte) : Bool :=
  match f with
  | .none => false
  | .card => functions.getLsbD 0
  | .app => functions.getLsbD 1
  | .check => functions.getLsbD 2

def policyStream : Byte := 1#8
def policyHold : Byte := 2#8

def JobStatus.code : JobStatus → Byte
  | .none => 0#8 | .complete => 1#8 | .keyStopped => 2#8 | .cancelled => 3#8 | .cardsTimeout => 4#8 | .badSequence => 5#8

/-- A FINAL's status is one of R169's five. -/
def jobStatusListed (b : Byte) : Bool := 1 ≤ b.toNat && b.toNat ≤ 5

def ResultStatus.code : ResultStatus → Byte
  | .ok => 1#8 | .badCard => 2#8

def ChannelState.code : ChannelState → Byte
  | .settling => 1#8 | .armed => 2#8 | .disarmed => 3#8

def PullPhase.code : PullPhase → Byte
  | .idle => 1#8 | .waitSource => 2#8 | .pulling => 3#8 | .verifying => 4#8 | .joining => 5#8

def areaMembers : Byte := 1#8
def areaRounds : Byte := 2#8
def areaSlots : Byte := 3#8
def areaLines : Byte := 4#8

/-- The number of items an area has, for the four areas (R111). -/
def areaSize? (a : Byte) : Option Nat :=
  match a.toNat with
  | 1 => some 1 | 2 => some 4 | 3 => some 64 | 4 => some 32
  | _ => none

/-- The number of items of a burst (R111). -/
def burstSize (a : Byte) : Nat := if a = areaMembers then 1 else 4

/-- The area and start item of the pull with an index 1 to 26 (R111). -/
def pullOf (index : Nat) : Byte × Byte :=
  if index ≤ 1 then (areaMembers, 0#8)
  else if index = 2 then (areaRounds, 0#8)
  else if index ≤ 18 then (areaSlots, BitVec.ofNat 8 (4 * (index - 3)))
  else (areaLines, BitVec.ofNat 8 (4 * (index - 19)))

/-- The items of a burst: the start item and those that follow it, wrapping at the area's end (R113). -/
def burstItems (area start : Byte) : List Byte :=
  match areaSize? area with
  | none => []
  | some size => (List.range (burstSize area)).map (fun i => BitVec.ofNat 8 ((start.toNat + i) % size))

def PosState.bits : PosState → BitVec 2
  | .free => 0#2 | .posted => 1#2 | .claimed => 2#2 | .done => 3#2

def PosState.ofBits (b : BitVec 2) : PosState :=
  match b.toNat with
  | 1 => .posted | 2 => .claimed | 3 => .done | _ => .free

def JobKind.bit : JobKind → BitVec 1
  | .single => 0#1 | .batch => 1#1

def JobKind.ofBit (b : BitVec 1) : JobKind := if b = 1#1 then .batch else .single

def SettledBy.bits : SettledBy → BitVec 3
  | .none => 0#3 | .claim => 1#3 | .decline => 2#3 | .unclaimed => 3#3 | .cancel => 4#3 | .close => 5#3

def SettledBy.ofBits? (b : BitVec 3) : Option SettledBy :=
  match b.toNat with
  | 0 => some .none | 1 => some .claim | 2 => some .decline | 3 => some .unclaimed | 4 => some .cancel | 5 => some .close
  | _ => none

def DoneReason.bits : DoneReason → BitVec 4
  | .none => 0#4 | .finished => 1#4 | .declined => 2#4 | .unclaimed => 3#4 | .cancelled => 4#4 | .closed => 5#4
  | .lost => 6#4 | .cleared => 7#4 | .overrun => 8#4

def DoneReason.ofBits? (b : BitVec 4) : Option DoneReason :=
  match b.toNat with
  | 0 => some .none | 1 => some .finished | 2 => some .declined | 3 => some .unclaimed | 4 => some .cancelled
  | 5 => some .closed | 6 => some .lost | 7 => some .cleared | 8 => some .overrun
  | _ => none

def LineState.code : LineState → Byte
  | .free => 0#8 | .opened => 1#8 | .closing => 2#8

def LineState.ofCode? (b : Byte) : Option LineState :=
  match b.toNat with
  | 0 => some .free | 1 => some .opened | 2 => some .closing | _ => none

/-! ## Record forms (R194) -/

def labelBytes (l : Label) : List Byte := field 3 l.issuer ++ [l.index]

def labelAt (off : Nat) (l : List Byte) : Label := ⟨fieldAt 24 3 off l, byteAt (off + 3) l⟩

/-- Slot record form, 50 bytes. -/
def slotBytes (s : Slot) : List Byte :=
  [s.state.code, s.cls.code] ++ labelBytes s.label ++ field 2 s.version ++ [s.functions] ++ field 4 s.limit
    ++ field 32 s.material ++ field 3 s.check ++ [s.lastProposer, s.lastNumber]

/-- The SLOT report's record form: the material's 32 bytes are left out, 18 bytes. -/
def slotReportBytes (s : Slot) : List Byte :=
  [s.state.code, s.cls.code] ++ labelBytes s.label ++ field 2 s.version ++ [s.functions] ++ field 4 s.limit
    ++ field 3 s.check ++ [s.lastProposer, s.lastNumber]

/-- A slot record read from its form; none for a state or class outside its list. -/
def slotOfBytes? (l : List Byte) : Option Slot :=
  match SlotState.ofCode? (byteAt 0 l), KeyClass.ofCode? (byteAt 1 l) with
  | some st, some cls =>
    some ⟨st, cls, labelAt 2 l, fieldAt 16 2 6 l, byteAt 8 l, fieldAt 32 4 9 l, fieldAt 256 32 13 l, fieldAt 24 3 45 l,
      byteAt 48 l, byteAt 49 l⟩
  | _, _ => none

/-- Usage entry form, 9 bytes. -/
def usageBytes (u : Usage) : List Byte := field 4 u.used ++ field 4 u.reserved ++ [flag 0 u.exhausted]

/-- A usage entry read from its form. -/
def usageOfBytes (l : List Byte) : Usage := ⟨fieldAt 32 4 0 l, fieldAt 32 4 4 l, (byteAt 8 l).getLsbD 0⟩

def approvalBytes (a : Approval) : List Byte := a.slot :: field 8 a.code

/-- Two approvals, unused ones zero (R194). -/
def twoApprovals : List Approval → List Byte
  | [] => zeros 18
  | [a] => approvalBytes a ++ zeros 9
  | a :: b :: _ => approvalBytes a ++ approvalBytes b

def storedBytes : Option StoredKey → List Byte
  | none => zeros 35
  | some k => field 32 k.material ++ field 3 k.check

/-- Round record form, 74 bytes. -/
def roundBytes (r : Round) : List Byte :=
  [byteOf r.proposer, r.number, r.slot, r.kind, r.mask] ++ labelBytes r.label ++ [r.cls, r.functions] ++ field 4 r.limit
    ++ field 2 r.window ++ [BitVec.ofNat 8 r.approvals.length] ++ twoApprovals r.approvals ++ field 2 r.expected
    ++ [if r.phase = .awaitingBody then 1#8 else 2#8] ++ storedBytes r.body

/-- The empty marker of a ROUNDS item: an all-zero round record (R113, R194). -/
def noRoundBytes : List Byte := zeros 74

def approvalAt (off : Nat) (l : List Byte) : Approval := ⟨byteAt off l, fieldAt 64 8 (off + 1) l⟩

/-- What a ROUNDS item carries: `some none` for the empty marker, `some (some r)` for a record, none for a record with a
proposer, a phase or an approval count outside its list. -/
def roundOfBytes? (l : List Byte) : Option (Option Round) :=
  if byteAt 38 l = 0#8 then some none
  else
    match indexOf? 8 (byteAt 0 l), (byteAt 17 l).toNat, (byteAt 38 l).toNat with
    | some proposer, count, phase =>
      if 2 < count || 2 < phase then none
      else
        let stored : StoredKey := ⟨fieldAt 256 32 39 l, fieldAt 24 3 71 l⟩
        some (some {
          proposer := proposer
          number := byteAt 1 l
          slot := byteAt 2 l
          kind := byteAt 3 l
          mask := byteAt 4 l
          label := labelAt 5 l
          cls := byteAt 9 l
          functions := byteAt 10 l
          limit := fieldAt 32 4 11 l
          window := fieldAt 16 2 15 l
          approvals := [approvalAt 18 l, approvalAt 27 l].take count
          expected := fieldAt 16 2 36 l
          phase := if phase = 1 then .awaitingBody else .voting
          body := if stored = ⟨0#256, 0#24⟩ then none else some stored })
    | none, _, _ => none

/-- Position record form, 5 bytes. -/
def positionBytes (p : Position) : List Byte :=
  [p.state.bits ++ p.kind.bit ++ p.function.bits ++ p.settledBy.bits, p.master, p.transport, p.count,
   p.owner ++ p.reason.bits]

/-- A position record read at an offset; none for a settled-by or a DONE reason outside its list. -/
def positionAt? (off : Nat) (l : List Byte) : Option Position :=
  let b0 := byteAt off l
  let b4 := byteAt (off + 4) l
  match SettledBy.ofBits? (b0.extractLsb' 0 3), DoneReason.ofBits? (b4.extractLsb' 0 4) with
  | some sb, some reason =>
    some ⟨PosState.ofBits (b0.extractLsb' 6 2), JobKind.ofBit (b0.extractLsb' 5 1), JobFunction.ofBits (b0.extractLsb' 3 2),
      byteAt (off + 1) l, byteAt (off + 2) l, byteAt (off + 3) l, sb, b4.extractLsb' 4 4, reason⟩
  | _, _ => none

/-- Line entry form, 85 bytes. -/
def lineBytes (e : LineEntry) : List Byte :=
  [e.state.code, e.gateway, e.line, e.p ++ e.d, e.pendingClear] ++ e.positions.toList.flatMap positionBytes

/-- The position records of a list of indexes, all of them or none. -/
def positionsAt? (l : List Byte) : List Nat → Option (List Position)
  | [] => some []
  | i :: rest =>
    match positionAt? (5 + 5 * i) l, positionsAt? l rest with
    | some p, some ps => some (p :: ps)
    | _, _ => none

/-- A line entry read from its form; none for a code outside its list. A free entry is the free entry whatever else the
bytes hold (R122: it holds all fields at zero). -/
def lineOfBytes? (l : List Byte) : Option LineEntry :=
  match LineState.ofCode? (byteAt 0 l) with
  | none => none
  | some .free => some LineEntry.zero
  | some st =>
    match positionsAt? l (List.range 16) with
    | none => none
    | some ps =>
      let pd := byteAt 3 l
      some ⟨st, byteAt 1 l, byteAt 2 l, pd.extractLsb' 4 4, pd.extractLsb' 0 4, byteAt 4 l,
        tableOf 16 (fun i => ps.getD i Position.zero)⟩

/-! ## Frame kinds, classes and roles (R1, R3) -/

/-- The kind code of R3. -/
def frameKind : Frame → Nat
  | .zero _ => 0x00 | .presence _ => 0x01 | .join _ _ => 0x02 | .expel _ _ => 0x03 | .claim _ => 0x04
  | .decline _ _ => 0x05 | .unclaimed _ => 0x06 | .cancel _ _ => 0x07 | .propose _ => 0x08 | .roundBody _ _ _ => 0x09
  | .accept _ _ => 0x0A | .refuse _ _ _ => 0x0B | .commit _ _ _ => 0x0C | .abandon _ _ => 0x0D | .order _ _ => 0x0E
  | .component _ => 0x0F | .openLine _ => 0x10 | .close _ => 0x11 | .cleared _ => 0x12 | .job _ => 0x13 | .batch _ => 0x14
  | .cards _ => 0x15 | .answer _ => 0x16 | .final _ => 0x17 | .pull _ _ => 0x18 | .image _ _ _ _ => 0x19
  | .query _ _ _ => 0x1A | .report _ => 0x1B

/-- The class R3 gives for a kind code; none above 0x1B. -/
def classOf? (kind : Nat) : Option Nat :=
  if kind = 0 then some 0 else if kind ≤ 7 then some 1 else if kind ≤ 15 then some 2 else if kind ≤ 0x1B then some 3
  else none

/-- The roles that may send a frame (R1). -/
inductive Role where
  | station | gateway
  deriving DecidableEq, Repr

def roleOf (n : Nat) (src : Node) : Role := if src.val < n then .station else .gateway

/-- Whether R1 gives a frame to a role; the two forms of CLOSE are the two roles' (R193). -/
def frameSentBy (f : Frame) (r : Role) : Bool :=
  match f with
  | .cancel _ _ | .order _ _ | .component _ | .openLine _ | .job _ | .batch _ | .cards _ | .query _ _ _
  | .close (.gateway _) => r == .gateway
  | _ => r == .station

/-- Whether a frame's addressing fits its kind: the broadcast flag as R11 gives it, and a COMPONENT broadcast with target
255 or addressed with another (R12; log 12). -/
def frameAddressingFits (f : Frame) (d : Dest) : Bool :=
  match f with
  | .order _ _ | .answer _ | .pull _ _ | .image _ _ _ _ | .query _ _ _ | .report _ => !d.broadcast
  | .component b => d.broadcast == (b.target == 255#8)
  | _ => d.broadcast

/-- An approval list whose length the body allows, and whose count byte, where it holds a value in its list, tells it
(R12, R193). -/
def approvalsFit (a : ApprovalList) (most : Nat) : Bool :=
  a.entries.length ≤ most && (most < a.count.toNat || a.count.toNat == a.entries.length)

/-- A QUERY's argument has the length its kind and selector give, each where it holds a value in its list (R12, R193); the kinds 6
to 9 are in no QUERY's list (log 68). -/
def queryLengthOk (kind : Byte) (arg : List Byte) : Bool :=
  match kind.toNat with
  | 1 | 2 | 5 => arg.length == 0
  | 3 =>
    match arg with
    | [] => false
    | sel :: _ => if sel = 0#8 then arg.length == 2 else if sel = 1#8 then arg.length == 5 else arg.length == 2 || arg.length == 5
  | 4 => arg.length == 2
  | _ => arg.length == 0 || arg.length == 2 || arg.length == 5

/-- The body has a length R193 allows for the kind, and the length its own fields give (R12). Bodies of a fixed length have
it by their form. -/
def frameLengthFits (f : Frame) : Bool :=
  match f with
  | .propose b => approvalsFit b.approvals 2
  | .order _ b => approvalsFit b.approvals 2
  | .component b => approvalsFit b.approvals 1
  | .cleared b => b.entries.length ≤ 15 && (15 < b.count.toNat || b.count.toNat == b.entries.length)
  | .cards b => b.ok
  | .answer body => answerLengthOk body.length
  | .image area _ _ contents =>
    imageLengthOk contents.length &&
      (match imageContentsLength? area with | none => true | some n => n == contents.length)
  | .query _ kind arg => queryLengthOk kind arg
  | .report body => reportBodyOk body
  | _ => true

/-- A frame is misplaced (R12) at a station strapped for n stations: its role, its addressing or its length does not fit.
The class and kind tests stand in `rawFrame?`, since here the kind fixes the class. -/
def frameMisplaced (f : Frame) (n : Nat) (h : Header) : Bool :=
  !(frameSentBy f (roleOf n h.src) && frameAddressingFits f h.dst && frameLengthFits f)

/-- The station kinds that R13 ignores from a source outside the live set. -/
def frameNeedsMember (f : Frame) : Bool :=
  match f with
  | .expel _ _ | .claim _ | .decline _ _ | .unclaimed _ | .propose _ | .roundBody _ _ _ | .accept _ _ | .refuse _ _ _
  | .commit _ _ _ | .abandon _ _ | .cleared _ | .final _ | .close _ => true
  | _ => false

/-! ## Frame bodies (R193) -/

def posRefBytes (p : PosRef) : List Byte := [p.gateway, p.line, p.position]
def posRefAt (off : Nat) (l : List Byte) : PosRef := ⟨byteAt off l, byteAt (off + 1) l, byteAt (off + 2) l⟩

def cardBytes (c : CardRecord) : List Byte := field 10 c.number ++ [c.seq] ++ field 2 c.tag
def cardAt (off : Nat) (l : List Byte) : CardRecord := ⟨fieldAt 80 10 off l, byteAt (off + 10) l, fieldAt 16 2 (off + 11) l⟩

def approvalListBytes (a : ApprovalList) : List Byte := a.count :: a.entries.flatMap approvalBytes

/-- The approval list at the end of a body: the count byte, and as many approvals as the bytes after it hold. -/
def approvalListAt (off : Nat) (l : List Byte) : ApprovalList :=
  ⟨byteAt off l, (List.range ((l.length - (off + 1)) / 9)).map (fun i => approvalAt (off + 1 + 9 * i) l)⟩

/-- Result record, 21 bytes (R193). -/
def resultBytes (r : CardResult) : List Byte := [r.index, r.status.code] ++ field 16 r.wrapped ++ field 3 r.check

/-- A frame's body as bytes (R193). -/
def frameBody : Frame → List Byte
  | .zero cause => [cause]
  | .presence b =>
    [b.state, flag 0 b.quorate ||| flag 1 b.yield] ++ field 4 b.seq ++ field 4 b.dirDigest ++ field 4 b.workDigest
      ++ field 2 b.live ++ field 3 b.check ++ [b.freeDescs, b.freeBlocks]
  | .join founding b =>
    [flag 0 founding] ++ field 4 b.seq ++ field 4 b.dirDigest ++ field 4 b.workDigest ++ field 3 b.check
  | .expel node reason => [node, reason]
  | .claim b => posRefBytes b.pos ++ [b.count, b.master, b.transport]
  | .decline pos reason => posRefBytes pos ++ [reason]
  | .unclaimed pos => posRefBytes pos
  | .cancel line position => [line, position]
  | .propose b =>
    [b.number, b.slot, b.kind, b.mask] ++ field 2 b.expected ++ labelBytes b.label ++ [b.cls, b.functions] ++ field 4 b.limit
      ++ field 2 b.window ++ [flag 0 b.bodyFollows] ++ approvalListBytes b.approvals
  | .roundBody number material check => [number] ++ field 32 material ++ field 3 check
  | .accept proposer number => [proposer, number]
  | .refuse proposer number reason => [proposer, number, reason]
  | .commit number seq version => [number] ++ field 4 seq ++ field 2 version
  | .abandon number reason => [number, reason]
  | .order kind b =>
    field 2 b.tag ++ [kind, b.slot] ++ labelBytes b.label ++ [b.mask, b.functions] ++ field 4 b.limit ++ field 2 b.window
      ++ approvalListBytes b.approvals
  | .component b =>
    field 2 b.id ++ [b.target] ++ labelBytes b.label ++ [b.cls, b.functions] ++ field 4 b.limit ++ [b.number, b.m]
      ++ field 32 b.component ++ field 3 b.componentCheck ++ field 3 b.wholeCheck ++ approvalListBytes b.approvals
  | .openLine line => [line]
  | .close (.gateway line) => [line]
  | .close (.station gateway line reason) => [gateway, line, reason]
  | .cleared b => [b.gateway, b.line, b.count] ++ b.entries.flatMap (fun e => [e.position, e.consumed])
  | .job b =>
    [b.line, b.position, b.function] ++ labelBytes b.master
      ++ (match b.transport with | none => [] | some t => labelBytes t) ++ cardBytes b.card
  | .batch b =>
    [b.line, b.position, b.function] ++ labelBytes b.master ++ labelBytes b.transport ++ [b.count, b.segSize, b.policy]
  | .cards b => [b.line, b.position, b.group] ++ b.records.flatMap cardBytes
  | .answer body => body
  | .final b => posRefBytes b.pos ++ [b.status, b.done, b.consumed, b.bad, b.preemptions, b.dAfter]
  | .pull area start => [area, start]
  | .image area item seq contents => [area, item] ++ field 4 seq ++ contents
  | .query tag kind arg => field 2 tag ++ [kind] ++ arg
  | .report body => body

/-- Whether a body of a kind has one of the lengths R193 lists for it. -/
def bodyLengthListed (kind n : Nat) : Bool :=
  match kind with
  | 0x00 => n == 1 | 0x01 => n == 21 | 0x02 => n == 16 | 0x03 => n == 2 | 0x04 => n == 6 | 0x05 => n == 4 | 0x06 => n == 3
  | 0x07 => n == 2 | 0x08 => [20, 29, 38].contains n | 0x09 => n == 36 | 0x0A => n == 2 | 0x0B => n == 3 | 0x0C => n == 7
  | 0x0D => n == 2 | 0x0E => [17, 26, 35].contains n | 0x0F => [54, 63].contains n | 0x10 => n == 1
  | 0x11 => [1, 3].contains n | 0x12 => 3 ≤ n && n ≤ 33 && n % 2 == 1 | 0x13 => [20, 24].contains n | 0x14 => n == 14
  | 0x15 => 16 ≤ n && n ≤ 81 && n % 13 == 3 | 0x16 => answerLengthOk n | 0x17 => n == 9 | 0x18 => n == 2
  | 0x19 => [11, 80, 65, 91].contains n | 0x1A => [3, 5, 8].contains n | 0x1B => reportLengthOk n
  | _ => false

/-- The fields of a body whose length is listed for its kind (R193). -/
def frameOfBody (kind : Nat) (l : List Byte) : Frame :=
  match kind with
  | 0x00 => .zero (byteAt 0 l)
  | 0x01 => .presence ⟨byteAt 0 l, (byteAt 1 l).getLsbD 0, (byteAt 1 l).getLsbD 1, fieldAt 32 4 2 l, fieldAt 32 4 6 l,
      fieldAt 32 4 10 l, fieldAt 16 2 14 l, fieldAt 24 3 16 l, byteAt 19 l, byteAt 20 l⟩
  | 0x02 => .join ((byteAt 0 l).getLsbD 0) ⟨fieldAt 32 4 1 l, fieldAt 32 4 5 l, fieldAt 32 4 9 l, fieldAt 24 3 13 l⟩
  | 0x03 => .expel (byteAt 0 l) (byteAt 1 l)
  | 0x04 => .claim ⟨posRefAt 0 l, byteAt 3 l, byteAt 4 l, byteAt 5 l⟩
  | 0x05 => .decline (posRefAt 0 l) (byteAt 3 l)
  | 0x06 => .unclaimed (posRefAt 0 l)
  | 0x07 => .cancel (byteAt 0 l) (byteAt 1 l)
  | 0x08 => .propose ⟨byteAt 0 l, byteAt 1 l, byteAt 2 l, byteAt 3 l, fieldAt 16 2 4 l, labelAt 6 l, byteAt 10 l, byteAt 11 l,
      fieldAt 32 4 12 l, fieldAt 16 2 16 l, (byteAt 18 l).getLsbD 0, approvalListAt 19 l⟩
  | 0x09 => .roundBody (byteAt 0 l) (fieldAt 256 32 1 l) (fieldAt 24 3 33 l)
  | 0x0A => .accept (byteAt 0 l) (byteAt 1 l)
  | 0x0B => .refuse (byteAt 0 l) (byteAt 1 l) (byteAt 2 l)
  | 0x0C => .commit (byteAt 0 l) (fieldAt 32 4 1 l) (fieldAt 16 2 5 l)
  | 0x0D => .abandon (byteAt 0 l) (byteAt 1 l)
  | 0x0E => .order (byteAt 2 l) ⟨fieldAt 16 2 0 l, byteAt 3 l, labelAt 4 l, byteAt 8 l, byteAt 9 l, fieldAt 32 4 10 l,
      fieldAt 16 2 14 l, approvalListAt 16 l⟩
  | 0x0F => .component ⟨fieldAt 16 2 0 l, byteAt 2 l, labelAt 3 l, byteAt 7 l, byteAt 8 l, fieldAt 32 4 9 l, byteAt 13 l,
      byteAt 14 l, fieldAt 256 32 15 l, fieldAt 24 3 47 l, fieldAt 24 3 50 l, approvalListAt 53 l⟩
  | 0x10 => .openLine (byteAt 0 l)
  | 0x11 => if l.length = 1 then .close (.gateway (byteAt 0 l)) else .close (.station (byteAt 0 l) (byteAt 1 l) (byteAt 2 l))
  | 0x12 => .cleared ⟨byteAt 0 l, byteAt 1 l, byteAt 2 l,
      (List.range ((l.length - 3) / 2)).map (fun i => ⟨byteAt (3 + 2 * i) l, byteAt (4 + 2 * i) l⟩)⟩
  | 0x13 =>
    if l.length = 20 then .job ⟨byteAt 0 l, byteAt 1 l, byteAt 2 l, labelAt 3 l, none, cardAt 7 l⟩
    else .job ⟨byteAt 0 l, byteAt 1 l, byteAt 2 l, labelAt 3 l, some (labelAt 7 l), cardAt 11 l⟩
  | 0x14 => .batch ⟨byteAt 0 l, byteAt 1 l, byteAt 2 l, labelAt 3 l, labelAt 7 l, byteAt 11 l, byteAt 12 l, byteAt 13 l⟩
  | 0x15 => .cards ⟨byteAt 0 l, byteAt 1 l, byteAt 2 l, (List.range ((l.length - 3) / 13)).map (fun i => cardAt (3 + 13 * i) l)⟩
  | 0x16 => .answer l
  | 0x17 => .final ⟨posRefAt 0 l, byteAt 3 l, byteAt 4 l, byteAt 5 l, byteAt 6 l, byteAt 7 l, byteAt 8 l⟩
  | 0x18 => .pull (byteAt 0 l) (byteAt 1 l)
  | 0x19 => .image (byteAt 0 l) (byteAt 1 l) (fieldAt 32 4 2 l) (l.drop 6)
  | 0x1A => .query (fieldAt 16 2 0 l) (byteAt 2 l) (l.drop 3)
  | _ => .report l

/-- The frame that a kind code and a body spell; none when the length is not listed for the kind (R12, R193). -/
def frameOfBody? (kind : Nat) (l : List Byte) : Option Frame :=
  if bodyLengthListed kind l.length then some (frameOfBody kind l) else none

/-- The destination byte: bit 7 the broadcast flag, bits 3 to 0 the destination node (R192). -/
def destByte (d : Dest) : Byte := flag 7 d.broadcast ||| BitVec.ofNat 8 d.node.val

/-- The destination byte read: bits 6 to 4 are not read (R192). -/
def destOfByte (b : Byte) : Dest := ⟨b.getLsbD 7, ⟨b.toNat % 16, Nat.mod_lt _ (by decide)⟩⟩

/-- The header a raw frame shows. -/
def rawHeader (r : RawFrame) : Header := ⟨r.src, destOfByte r.dst⟩

/-- The frame that a raw frame's bits spell; none when its kind code is above 0x1B, its class is not its kind's, or its
length is not listed for its kind (R12). -/
def rawFrame? (r : RawFrame) : Option Frame :=
  if classOf? r.kind.toNat = some r.cls.toNat then frameOfBody? r.kind.toNat r.body else none

/-- A station's frame as it stands on the wire (R2, R192). -/
def rawOf (f : Frame) (src : Node) (dst : Dest) : RawFrame :=
  ⟨BitVec.ofNat 2 ((classOf? (frameKind f)).getD 0), BitVec.ofNat 5 (frameKind f), src, destByte dst, frameBody f⟩

/-- The arbitration field: class in bits 10 and 9, kind in bits 8 to 4, source in bits 3 to 0 (R2, R192). -/
def rawArbitration (r : RawFrame) : BitVec 11 := r.cls ++ r.kind ++ BitVec.ofNat 4 r.src.val

/-- The CRC-16 field: over the destination byte, the length byte and the body (R192). -/
def rawCrc (r : RawFrame) : Half := crc16 (r.dst :: BitVec.ofNat 8 r.body.length :: r.body)

end Sys2Proof.Machine
end

