-- ==== Sys2Proof/Machine/Crypto.lean ====
section
/-! DEFINITION. The cryptographic functions formed from the station cipher (section 3.8) and the approval messages (R92). -/

namespace Sys2Proof.Machine

/-- The check value of a key: the first 3 bytes of E(K, zero block) (R59). -/
def checkOf (k : Key) : Check := (Config.cipher k 0#128).extractLsb' 104 24

/-- A 16-byte key doubled before use as a cipher key (R58). -/
def doubled (k : Block) : Key := k ++ k

/-- Chained encryption from a zero start value; the last block produced (R58). -/
def chainLast (k : Key) (blocks : List Block) : Block := blocks.foldl (fun y x => Config.cipher k (x ^^^ y)) 0#128

/-- Key material in stored form: its two blocks under chained encryption with the cabinet key (R58). -/
def storedForm (cabinet material : Key) : Key :=
  let y1 := Config.cipher cabinet (material.extractLsb' 128 128)
  y1 ++ Config.cipher cabinet (material.extractLsb' 0 128 ^^^ y1)

/-- The material recovered from its stored form (R58). -/
def recovered (cabinet stored : Key) : Key :=
  let y1 := stored.extractLsb' 128 128
  (Config.cipher cabinet).symm y1 ++ ((Config.cipher cabinet).symm (stored.extractLsb' 0 128) ^^^ y1)

/-- A message padded with 0x80 and then 0 to 15 zero bytes to a multiple of 16 (R60). -/
def padded (msg : List Byte) : List Byte := msg ++ [0x80#8] ++ zeros ((15 - msg.length % 16) % 16)

/-- The whole 16-byte blocks of a message. -/
def blocksOf (l : List Byte) : List Block := (List.range (l.length / 16)).map (fun i => fieldAt 128 16 (16 * i) l)

/-- The code of a message under a key: the first 8 bytes of the last block (R60). -/
def codeOf (k : Key) (msg : List Byte) : Code := (chainLast k (blocksOf (padded msg))).extractLsb' 64 64

/-- The approval message of an order or of a round's change, 20 bytes (R92). `target` is 255 but for the direct orders. Fields
that the kind does not read are zero. -/
def orderMessage (kind target slot mask functions : Byte) (limit : Word) (window : Half) (binding : Word) : List Byte :=
  let edit := kind = codeEdit
  [kind, target, slot] ++ zeros 4 ++ [0#8]
    ++ [if edit then mask else 0#8, if edit ∧ maskFunctions mask then functions else 0#8]
    ++ field 4 (if edit ∧ maskLimit mask then limit else 0#32)
    ++ field 2 (if kind = codeWindowOpen then window else 0#16)
    ++ field 4 binding

/-- The approval message of a component, 26 bytes (R92). -/
def componentMessage (b : ComponentBody) (version : Half) : List Byte :=
  [1#8, 255#8, b.target] ++ labelBytes b.label ++ [b.cls, 0#8, b.functions] ++ field 4 b.limit ++ field 2 (0#16)
    ++ field 4 (version.setWidth 32) ++ field 2 b.id ++ [b.number] ++ field 3 b.componentCheck

end Sys2Proof.Machine
end

