-- ==== Sys2Proof/Machine/Directory.lean ====
section
/-! DEFINITION. The directory's answers and requests (chapter 3): lookup, key use, the approval check, reserve, settle and
release, class consistency, the ACTIVE CUSTODIAN count. -/

namespace Sys2Proof.Machine

/-- A usage limit as its effective limit: 0 means no limit (R42). -/
def effective (limit : Word) : Nat := if limit = 0#32 then Config.maxCount else limit.toNat

def Directory.slot (d : Directory) (i : SlotId) : Slot := tget d.slots i
def Directory.usageOf (d : Directory) (i : SlotId) : Usage := tget d.usage i
def Directory.limitOf (d : Directory) (i : SlotId) : Nat := effective (d.slot i).limit

/-- The room of a slot: effective limit less used less reserved, never negative (R52). -/
def Directory.room (d : Directory) (i : SlotId) : Nat :=
  d.limitOf i - (d.usageOf i).used.toNat - (d.usageOf i).reserved.toNat

def Directory.setSlot (d : Directory) (i : SlotId) (x : Slot) : Directory := { d with slots := tset d.slots i x }
def Directory.setUsage (d : Directory) (i : SlotId) (u : Usage) : Directory := { d with usage := tset d.usage i u }

/-- Whether a slot carries a label: it is not EMPTY and its label is that one (R45). -/
def Directory.carries (d : Directory) (l : Label) (i : SlotId) : Bool :=
  (d.slot i).state != .empty && (d.slot i).label == l

/-- Lookup by label: the lowest-numbered non-EMPTY slot that carries it; none is UNKNOWN_KEY, always so for issuer number 0
(R45). -/
def Directory.lookup (d : Directory) (l : Label) : Option SlotId :=
  if l.issuer = 0#24 then none else (List.finRange 64).find? (d.carries l)

/-- A slot is ACTIVE with a class (R46, R127, R158). -/
def Directory.activeWith (d : Directory) (i : SlotId) (c : KeyClass) : Bool :=
  (d.slot i).state == .active && (d.slot i).cls == c

/-- A granted key use's key: the slot is ACTIVE with the class and the cabinet key register holds a key (R46). -/
def Directory.keyUse (d : Directory) (i : SlotId) (c : KeyClass) : Option Key :=
  if d.activeWith i c then d.key.map (fun k => recovered k.key (d.slot i).material) else none

/-- The approval check: valid exactly when the use of the named custodian slot is granted and the codes agree (R60). -/
def Directory.approvalValid (d : Directory) (a : Approval) (msg : List Byte) : Bool :=
  match slotOf? a.slot with
  | none => false
  | some i =>
    match d.keyUse i .custodian with
    | none => false
    | some k => codeOf k msg == a.code

/-- The number of ACTIVE CUSTODIAN slots (R44). -/
def Directory.custodians (d : Directory) : Nat :=
  (d.slots.toList.filter (fun s => s.state == .active && s.cls == .custodian)).length

/-- Open custody: fewer than 2 ACTIVE CUSTODIAN slots (R93). -/
def Directory.openCustody (d : Directory) : Bool := d.custodians < 2

/-- Allowed functions and usage limit fit the class (R44); bits 3 to 7 of the functions name none (log 63). -/
def classConsistent (c : KeyClass) (functions : Byte) (limit : Word) : Bool :=
  match c with
  | .master => functions != 0#8 && functions &&& 0xF8#8 == 0#8
  | .transport | .custodian => functions == 0#8 && limit == 0#32

/-- The reserve request's test: EXHAUSTED is clear and used + reserved + n is at most the effective limit (R53), with
n = 0 as well (log 45). -/
def Directory.reserveTaken (d : Directory) (i : SlotId) (n : Nat) : Bool :=
  !(d.usageOf i).exhausted && (d.usageOf i).used.toNat + (d.usageOf i).reserved.toNat + n ≤ d.limitOf i

/-- A taken reserve request adds n to reserved (R53). -/
def Directory.reserve (d : Directory) (i : SlotId) (n : Nat) : Directory :=
  let u := d.usageOf i
  d.setUsage i { u with reserved := BitVec.ofNat 32 (u.reserved.toNat + n) }

/-- The used count after a settle: it rises by k, or by what reserved fell by (R54). Past the end of its range it is a free value
(log 66). -/
def settledUsed (u : Usage) (n k : Nat) : Word :=
  let used := u.used.toNat + min k (min n u.reserved.toNat)
  if used ≤ Config.maxCount then BitVec.ofNat 32 used else Config.usedPastEnd u.used u.reserved n k

/-- The settle request: reserved falls by n, or to 0; used rises by k, or by what reserved fell by; EXHAUSTED is set when used
has thereby reached the effective limit (R54): when it equals it, so not where it has passed a limit lowered before (log 46). -/
def Directory.settle (d : Directory) (i : SlotId) (n k : Nat) : Directory :=
  let u := d.usageOf i
  let used := settledUsed u n k
  d.setUsage i {
    used := used
    reserved := BitVec.ofNat 32 (u.reserved.toNat - n)
    exhausted := u.exhausted || used.toNat == d.limitOf i }

/-- The release request: reserved falls by n, or to 0 (R55). -/
def Directory.release (d : Directory) (i : SlotId) (n : Nat) : Directory :=
  let u := d.usageOf i
  d.setUsage i { u with reserved := BitVec.ofNat 32 (u.reserved.toNat - n) }

/-- Every reserved count set to 0 (R61). -/
def Directory.dropReserved (d : Directory) : Directory := { d with usage := tmap (fun u => { u with reserved := 0#32 }) d.usage }

/-- The directory erased: all slots EMPTY at version 0, usage zero, the commit sequence 0, the register empty (R61, R182). -/
def Directory.erased : Directory :=
  ⟨Vector.replicate 64 Slot.zero, Vector.replicate 64 Usage.zero, 0#32, none⟩

/-- The commit sequence raised by one, held at its end (R48; log 21). -/
def nextSeq (seq : Word) : Word := if seq.toNat = Config.maxCount then seq else seq + 1#32

/-- The cabinet check value: three zero bytes while the register is empty (R57). -/
def Directory.cabinetCheck (d : Directory) : Check :=
  match d.key with
  | none => 0#24
  | some k => k.check

end Sys2Proof.Machine
end

