-- ==== Sys2Proof/Machine/Digest.lean ====
section
/-! DEFINITION. The two digests a station announces (R50, R51, R194). They are computed from what they cover (log 4). -/

namespace Sys2Proof.Machine

/-- The directory digest: the slot records in slot order, then the commit sequence (R50). -/
def dirDigest (d : Directory) : Word := crc32 (d.slots.toList.flatMap slotBytes ++ field 4 d.seq)

/-- The rounds of the open round list in their order, places left empty in a ROUNDS burst passed over (log 27). -/
def openList (l : List (Option RoundEntry)) : List RoundEntry := l.filterMap id

/-- The round list's part of the work digest: each record, then all-zero records to make 4 (R51). -/
def roundListBytes (l : List RoundEntry) : List Byte :=
  l.flatMap (fun e => roundBytes e.round) ++ zeros (74 * (Config.openRounds - l.length))

/-- The work digest: usage entries, line entries, the open round list, the live-set map (R51). A free line entry is all zero
bytes since it holds all fields at zero (R122). -/
def workDigest (d : Directory) (t : LineTable) (l : List (Option RoundEntry)) (live : StationSet) : Word :=
  crc32 (d.usage.toList.flatMap usageBytes ++ t.entries.toList.flatMap lineBytes ++ roundListBytes (openList l)
    ++ field 2 (setToMap live))

end Sys2Proof.Machine
end

