-- ==== Sys2Proof/Machine/Flags.lean ====
section
/-! DEFINITION. The conditions other blocks read at every frame, and the views that are functions of other state: straps,
live set, quorum, duty, leaving, ALERT, the sample period, the pool's counts (R1, R21, R23, R32, R34, R142, R174; log 4). -/

namespace Sys2Proof.Machine

/-! ## Straps (R187, R23) -/

def Straps.stations (t : Straps) : Nat := t.nsta.toNat + 1
def Straps.quorum (t : Straps) : Nat := t.qrm.toNat + 1

/-- R23's test: the node below n, NSTA not 0, n/2 < q ≤ n. -/
def Straps.valid (t : Straps) : Bool :=
  t.node.toNat < t.stations && t.nsta != 0#3 && t.stations < 2 * t.quorum && t.quorum ≤ t.stations

/-- The straps as the pins stand (R187). -/
def strapsOf (p : Pins) : Straps := ⟨p.node, p.nsta, p.qrm⟩

/-- The strapped number of stations, n. -/
def stationCount (s : State) : Nat := s.straps.stations
/-- The strapped quorum, q. -/
def quorum (s : State) : Nat := s.straps.quorum
/-- The station's own node address. -/
def ownNode (s : State) : Node := ⟨s.straps.node.toNat, s.straps.node.isLt⟩
/-- The own node as a station node: below n, so below 8, whenever the straps are valid. -/
def self (s : State) : StationId := ⟨s.straps.node.toNat % 8, Nat.mod_lt _ (by decide)⟩

/-- A source address as a station node, when its role is station (R1). -/
def stationOf? (s : State) (src : Node) : Option StationId :=
  if src.val < stationCount s then some ⟨src.val % 8, Nat.mod_lt _ (by decide)⟩ else none

/-- A byte as a node address. -/
def nodeOf (b : Byte) : Node := ⟨b.toNat % 16, Nat.mod_lt _ (by decide)⟩

/-! ## Station state and live set -/

def isLive (s : State) : Bool := s.memb.state == .live
def inCatchup (s : State) : Bool := s.memb.state == .catchup
/-- CATCHUP and LIVE: the states in which frames are applied to the cabinet state (R13, R22). -/
def applies (s : State) : Bool := isLive s || inCatchup s
/-- A station in STRAP_FAULT or RETENTION does not drive or take from the link (R1). -/
def onLink (s : State) : Bool := s.memb.state != .strapFault && s.memb.state != .retention

def members (s : State) : List StationId := setList s.memb.live
def memberCount (s : State) : Nat := setCount s.memb.live
def isMember (s : State) (k : StationId) : Bool := setHas s.memb.live k.val
def lowestMember (s : State) : Option StationId := (members s).head?

/-- The live set holds at least q members (R34, R66, R127, R133). -/
def liveSetQuorate (s : State) : Bool := quorum s ≤ memberCount s
/-- The quorate condition (R34). -/
def quorate (s : State) : Bool := isLive s && liveSetQuorate s
/-- The duty: LIVE and the lowest-numbered member of the own live set (R32). -/
def duty (s : State) : Bool := isLive s && lowestMember s == some (self s)
/-- LIVE, quorate and not leaving (R64, R91, R101, R129). -/
def serving (s : State) : Bool := quorate s && !s.memb.leaving

/-- The station is powered: the main supply is there, or the retained store's battery is (R184, R185). Without both stands a
station whose power-fail input was asserted in STRAP_FAULT, where the store is not kept (log 26), or whose store lost its power
in RETENTION. -/
def monitorPowered (s : State) : Bool := !s.inputs.powerFail || s.tamper.storeValid

/-- The ALERT output is asserted: as the station state gives it (R21), and released in a station without power (R191). -/
def alert (s : State) : Bool :=
  monitorPowered s &&
    match s.memb.state with
    | .strapFault | .blank | .detached | .zeroised => true
    | .listening | .catchup | .live | .retention => false

/-- The sample period in milliseconds (R174, R186). -/
def samplePeriodMs (s : State) : Nat := if s.memb.state = .retention then 100 else 10

/-! ## Rounds -/

/-- The rounds of the own open round list. -/
def openEntries (s : State) : List RoundEntry := openList s.rounds.list
/-- A round on a slot is open: the key-changing freeze (R85, R127). -/
def frozenSlot (s : State) (slot : Byte) : Bool := (openEntries s).any (fun e => e.round.slot == slot)
/-- The open-round status of some slot 0 to 63 differs in two states (R85): rounds on slot 255 are not looked at (R107). -/
def openRoundsDiffer (s t : State) : Bool :=
  (List.finRange 64).any (fun i => frozenSlot s (byteOf i) != frozenSlot t (byteOf i))
/-- Items of a ROUNDS burst are awaited (R116). -/
def roundsBurst (s : State) : Bool :=
  s.catchUp.phase == .pulling && s.catchUp.pullIndex == 2 && s.catchUp.awaited != []

/-! ## Pool counts (R142) and jobs -/

/-- The free count F. -/
def freeBlockCount (p : Pool) : Nat := p.freeBlocks.length
/-- The reservation count R: the sum of the blocks held in reserve. -/
def reservedBlocks (p : Pool) : Nat := (p.descs.toList.map (·.reserve)).foldl (· + ·) 0
/-- The free-blocks field of a PRESENCE: F - R (R142). -/
def grantableBlocks (p : Pool) : Nat := freeBlockCount p - reservedBlocks p

def descOf (s : State) (d : DescId) : Descriptor := tget s.pool.descs d
/-- A job's counters: the batch context while it is current, else its descriptor's copy (R156). -/
def jobContext (s : State) (d : DescId) : JobContext :=
  if s.pool.engine = some d then s.engine.ctx else (descOf s d).ctx

/-- The cell that holds a card of a job: the inline field of a SINGLE; cell c of the block at chain place g, for card index
6g + c, of a BATCH (R142). -/
def cellOf (s : State) (d : DescId) (card : Nat) : Cell :=
  let x := descOf s d
  match x.kind with
  | .single => x.inline
  | .batch =>
    match x.chain.getD (card / 6) none with
    | none => .empty
    | some b => tget (tget s.pool.blocks b) ⟨card % 6, Nat.mod_lt _ (by decide)⟩

/-- The digests as they stand. -/
def ownDirDigest (s : State) : Word := dirDigest s.dir
def ownWorkDigest (s : State) : Word := workDigest s.dir s.lines s.rounds.list s.memb.live

end Sys2Proof.Machine
end

