-- ==== Sys2Proof/Machine/Link.lean ====
section
/-! DEFINITION. The transmit queue, pending admissions, withdrawal and purge, the two registers (R14 to R20), and the answer a
queued segment carries, which is formed at admission (R168). -/

namespace Sys2Proof.Machine

/-! ## What the link interface reads of a frame -/

/-- The kind code of R3. -/
def txKind : TxFrame → Nat
  | .join _ => 0x02 | .expel _ _ => 0x03 | .claim _ => 0x04 | .decline _ _ => 0x05 | .unclaimed _ => 0x06
  | .propose _ => 0x08 | .roundBody _ _ _ => 0x09 | .accept _ _ => 0x0A | .refuse _ _ _ => 0x0B | .commit _ _ _ => 0x0C
  | .abandon _ _ => 0x0D | .closeSilence _ _ => 0x11 | .cleared _ => 0x12 | .answer _ _ _ _ => 0x16 | .final _ _ => 0x17
  | .pull _ _ _ _ => 0x18 | .image _ _ _ => 0x19
  | .queryReport _ | .report _ _ | .custodyReport _ _ | .roundReport _ _ => 0x1B

/-- The blocks that queue frames (00_scope.md, R14). -/
inductive Producer where
  | membership | rounds | custody | catchUp | lines | pool | engine | reports
  deriving DecidableEq, Repr

/-- The producer of a queued frame (R14). -/
def txProducer : TxFrame → Producer
  | .join _ | .expel _ _ => .membership
  | .propose _ | .roundBody _ _ _ | .accept _ _ | .refuse _ _ _ | .commit _ _ _ | .abandon _ _ | .roundReport _ _ => .rounds
  | .custodyReport _ _ => .custody
  | .pull _ _ _ _ | .image _ _ _ => .catchUp
  | .claim _ | .decline _ _ | .unclaimed _ | .closeSilence _ _ | .report _ _ => .lines
  | .cleared _ => .pool
  | .answer _ _ _ _ | .final _ _ => .engine
  | .queryReport _ => .reports

/-- The class R3 gives for the kind. -/
def txClass (f : TxFrame) : Nat := (classOf? (txKind f)).getD 3

/-- The destination (R11). -/
def txDest : TxFrame → Dest
  | .answer _ gateway _ _ => ⟨false, gateway⟩
  | .pull source _ _ _ => ⟨false, ⟨source.val, by omega⟩⟩
  | .image puller _ _ => ⟨false, puller⟩
  | .queryReport q => ⟨false, q.gateway⟩
  | .report gateway _ | .custodyReport gateway _ | .roundReport gateway _ => ⟨false, gateway⟩
  | _ => ⟨true, 0⟩

/-- The line position a settlement frame is for (R124, R132). -/
def txPosition? : TxFrame → Option PosRef
  | .claim b => some b.pos
  | .decline pos _ => some pos
  | .unclaimed pos => some pos
  | _ => none

def isClaim : TxFrame → Bool | .claim _ => true | _ => false
def isClaimFor (pos : PosRef) : TxFrame → Bool | .claim b => b.pos == pos | _ => false
def isDeclineFor (pos : PosRef) : TxFrame → Bool | .decline p _ => p == pos | _ => false
def isUnclaimed : TxFrame → Bool | .unclaimed _ => true | _ => false
def isUnclaimedFor (pos : PosRef) : TxFrame → Bool | .unclaimed p => p == pos | _ => false
def isSettlementFor (pos : PosRef) (f : TxFrame) : Bool := txPosition? f == some pos
def isPropose : TxFrame → Bool | .propose _ => true | _ => false
def isRoundBody : TxFrame → Bool | .roundBody _ _ _ => true | _ => false
def isJoin : TxFrame → Bool | .join _ => true | _ => false
def isFoundingJoin : TxFrame → Bool | .join founding => founding | _ => false
def isPull : TxFrame → Bool | .pull _ _ _ _ => true | _ => false
def isImage : TxFrame → Bool | .image _ _ _ => true | _ => false
def isSilentExpel : TxFrame → Bool | .expel _ r => r == .silent | _ => false
def isSilentExpelOf (k : StationId) : TxFrame → Bool | .expel m r => m == k && r == .silent | _ => false
def isCloseSilence : TxFrame → Bool | .closeSilence _ _ => true | _ => false
def isCloseSilenceFor (gateway line : Byte) : TxFrame → Bool | .closeSilence g l => g == gateway && l == line | _ => false
def isCloseSilenceOf (gateway : Byte) : TxFrame → Bool | .closeSilence g _ => g == gateway | _ => false
/-- The frames a leaving station withdraws, CLAIM and PROPOSE apart, whose withdrawal has a consequence (R35). -/
def isVoteOrCommit : TxFrame → Bool
  | .accept _ _ | .refuse _ _ _ | .commit _ _ _ => true
  | _ => false
def isQueryReport : TxFrame → Bool | .queryReport _ => true | _ => false
def isAnswerOf (d : DescId) : TxFrame → Bool | .answer (some x) _ _ _ => x == d | _ => false
def isFinalOf (d : DescId) : TxFrame → Bool | .final (some x) _ => x == d | _ => false

/-! ## Answers (R168) -/

/-- The results that stand in a run of cells. -/
def resultsOf (s : State) (d : DescId) (first count : Nat) : List CardResult :=
  (List.range count).filterMap (fun i => match cellOf s d (first + i) with | .result r => some r | _ => none)

/-- The body of a segment's ANSWER, formed when it is admitted (R168). -/
def answerBody (s : State) (d : DescId) (number : Nat) : List Byte :=
  match (tget s.engine.segs d).find? (fun g => g.number == number) with
  | none => []
  | some g =>
    posRefBytes (descOf s d).pos ++ [BitVec.ofNat 8 g.number, BitVec.ofNat 8 g.first]
      ++ labelBytes (jobContext s d).label ++ field 2 g.version ++ (resultsOf s d g.first g.count).flatMap resultBytes

/-- The job's segment records with one segment in another phase (R166). -/
def setSegmentPhase (s : State) (d : DescId) (number : Nat) (phase : SegPhase) : State :=
  { s with engine := { s.engine with
      segs := tmod s.engine.segs d (fun l => l.map (fun g => if g.number == number then { g with phase := phase } else g)) } }

/-! ## Admission (R14, R15) -/

/-- A frame of a class is admitted now: an entry is free, and for class 3 fewer than 12 are queued (R15). -/
def classFits (queue : List TxEntry) (cls : Nat) : Bool :=
  queue.length < Config.queueEntries
    && (cls != 3 || (queue.filter (fun e => txClass e.frame == 3)).length < Config.class3Limit)

/-- A frame at the end of the queue: the youngest entry (R14). -/
def pushEntry (l : Link) (f : TxFrame) : Link :=
  { l with queue := l.queue ++ [⟨l.nextAge, f, .none⟩], nextAge := l.nextAge + 1 }

/-- A frame that fits enters the queue. An ANSWER's body is formed and its segment becomes QUEUED (R167, R168); a query
whose REPORT is admitted leaves the query queue (R188). -/
def placeFrame (f : TxFrame) (s : State) : State :=
  match f with
  | .answer (some d) gateway number _ =>
    let s := { s with link := pushEntry s.link (.answer (some d) gateway number (answerBody s d number)) }
    setSegmentPhase s d number .queued
  | .queryReport _ =>
    { s with link := pushEntry s.link f, rep := { s.rep with queries := s.rep.queries.drop 1 } }
  | _ => { s with link := pushEntry s.link f }

/-- A producer asks for admission; a frame that is not admitted stays pending (R15). -/
def request (f : TxFrame) (s : State) : State :=
  if classFits s.link.queue (txClass f) then placeFrame f s
  else { s with link := { s.link with admissions := s.link.admissions ++ [f] } }

/-- The pending frame to admit next: the lowest class that fits, in the order the frames became pending (R15). -/
def nextAdmission (l : Link) : Option Nat :=
  [1, 2, 3].findSome? (fun cls =>
    if classFits l.queue cls then l.admissions.findIdx? (fun f => txClass f == cls) else none)

/-- Pending frames are admitted for as long as entries and the class-3 limit allow (R15). -/
def fillLoop : Nat → State → State
  | 0, s => s
  | k + 1, s =>
    match nextAdmission s.link with
    | none => s
    | some i =>
      match s.link.admissions[i]? with
      | none => s
      | some f => fillLoop k (placeFrame f { s with link := { s.link with admissions := s.link.admissions.eraseIdx i } })

def fillQueue (s : State) : State := fillLoop s.link.admissions.length s

/-! ## Withdrawal and purge (R18, R19) -/

/-- The entry that is contending (R18). -/
def contendingAge (l : Link) : Option Nat :=
  match l.bus with
  | .contending (.entry a) => some a
  | _ => none

/-- The entry that is in transmission (R14). -/
def sendingAge (l : Link) : Option Nat :=
  match l.bus with
  | .sending (.entry a) _ _ => some a
  | _ => none

/-- The entry is neither contending nor in transmission. -/
def isWaiting (l : Link) (e : TxEntry) : Bool :=
  contendingAge l != some e.age && sendingAge l != some e.age

/-- A withdrawal request held for the contending entry; a purge already held stays (R18, R19). -/
def holdEntry (l : Link) (p : TxFrame → Bool) (h : Hold) (e : TxEntry) : TxEntry :=
  if p e.frame && contendingAge l == some e.age && e.hold != .purge then { e with hold := h } else e

/-- The frames a producer's withdrawal takes out at once: the pending ones it drops and the waiting ones (R15, R18). -/
def takenBy (l : Link) (p : TxFrame → Bool) : List TxFrame :=
  l.admissions.filter p ++ (l.queue.filter (fun e => p e.frame && isWaiting l e)).map (·.frame)

/-- The link after a producer has dropped its pending frames that match and asked to withdraw its queued ones (R15, R18):
waiting entries are freed, the contending entry holds the request, a frame in transmission refuses it. -/
def withdrawLink (l : Link) (p : TxFrame → Bool) : Link :=
  { l with
    admissions := l.admissions.filter (fun f => !p f)
    queue := (l.queue.filter (fun e => !(p e.frame && isWaiting l e))).map (holdEntry l p .withdraw) }

/-- Drop and withdraw the frames that match, then admit what waits for their room. -/
def retract (p : TxFrame → Bool) (s : State) : State := fillQueue { s with link := withdrawLink s.link p }

/-- Drop pending frames only (R15). -/
def dropPending (p : TxFrame → Bool) (s : State) : State :=
  { s with link := { s.link with admissions := s.link.admissions.filter (fun f => !p f) } }

/-- A frame that matches is queued or pending. -/
def hasFrame (s : State) (p : TxFrame → Bool) : Bool :=
  s.link.admissions.any p || s.link.queue.any (fun e => p e.frame)

/-- A frame that matches is in the transmit queue. -/
def hasQueued (s : State) (p : TxFrame → Bool) : Bool := s.link.queue.any (fun e => p e.frame)

/-- A pending frame that matches waits for admission. -/
def hasPending (s : State) (p : TxFrame → Bool) : Bool := s.link.admissions.any p

/-- The query whose pending REPORT is dropped leaves the query queue unanswered (R188). -/
def dropPendingQuery (s : State) : State :=
  if hasPending s isQueryReport then { s with rep := { s.rep with queries := s.rep.queries.drop 1 } } else s

/-- The purge: every waiting entry freed, the contending entry held for it, every pending admission dropped; the registers
are not touched (R19). -/
def purge (s : State) : State :=
  let s := dropPendingQuery s
  let l := s.link
  { s with link := { l with
      admissions := []
      queue := (l.queue.filter (fun e => !isWaiting l e)).map (holdEntry l (fun _ => true) .purge) } }

/-- Queue and admissions as a start event leaves them: all free, none (R20). -/
def emptyQueue (s : State) : State :=
  let s := dropPendingQuery s
  { s with link := { s.link with queue := [], admissions := [] } }

/-! ## The registers (R16, R17) -/

/-- A load of the presence register: one that finds the PRESENCE in transmission marks it to hold one again (R16). -/
def loadPresence (l : Link) : Link :=
  match l.bus with
  | .sending .presence _ _ => { l with presence := { l.presence with reload := true } }
  | _ => { l with presence := { l.presence with held := true } }

/-- A load of the alarm register: dropped when it is already loaded (R17). -/
def loadAlarm (l : Link) (c : ZeroCause) : Link :=
  match l.alarm with
  | none => { l with alarm := some c }
  | some _ => l

/-! ## Contention (R4, R34) -/

/-- The kinds R34 lets a station choose only while LIVE, and CLAIM and PROPOSE only while also quorate. -/
def mayChoose (s : State) (f : TxFrame) : Bool :=
  match f with
  | .claim _ | .propose _ => quorate s
  | .accept _ _ | .refuse _ _ _ => isLive s
  | _ => true

/-- The head of the queue among the entries that may be chosen: the oldest entry of the lowest class (R4, R14). -/
def queueHead (s : State) : Option TxEntry :=
  [1, 2, 3].findSome? (fun cls => s.link.queue.find? (fun e => txClass e.frame == cls && mayChoose s e.frame))

/-- The candidate: a ZERO before a PRESENCE before the queue's head (R4). -/
def candidate (s : State) : Option Candidate :=
  if s.link.alarm.isSome then some .alarm
  else if s.link.presence.held then some .presence
  else (queueHead s).map (fun e => .entry e.age)

/-- The entry with an age. -/
def entryOf (l : Link) (age : Nat) : Option TxEntry := l.queue.find? (fun e => e.age == age)

/-- The link with an entry freed. -/
def freeEntry (l : Link) (age : Nat) : Link := { l with queue := l.queue.filter (fun e => e.age != age) }

/-- The link with an entry's held request cleared. -/
def clearHold (l : Link) (age : Nat) : Link :=
  { l with queue := l.queue.map (fun e => if e.age == age then { e with hold := .none } else e) }

end Sys2Proof.Machine
end

