-- ==== Sys2Proof/Machine/Reports.lean ====
section
/-! DEFINITION. REPORT bodies (R189), the query queue and its service (R188), and the fetch of a frame's fields when it wins
arbitration (R16, R113, R117, R135, R188). -/

namespace Sys2Proof.Machine

/-! ## REPORT bodies (R189) -/

def reportIdentity : Byte := 1#8
def reportStatus : Byte := 2#8
def reportSlot : Byte := 3#8
def reportLine : Byte := 4#8
def reportSensors : Byte := 5#8
def reportOrderResult : Byte := 6#8
def reportOpenResult : Byte := 7#8
def reportReject : Byte := 8#8
def reportAssembly : Byte := 9#8

/-- A REPORT body: tag, kind, contents. -/
def reportBody (tag : Half) (kind : Byte) (contents : List Byte) : List Byte := field 2 tag ++ [kind] ++ contents

def identityContents (s : State) : List Byte :=
  [Config.vendorCode] ++ field 2 Config.partCode
    ++ [Config.revision, s.straps.node.setWidth 8, 0#2 ++ s.straps.nsta ++ s.straps.qrm] ++ field 3 s.dir.cabinetCheck

def peerBytes : Option PeerRecord → List Byte
  | none => 255#8 :: zeros 4
  | some r => r.state.code :: field 4 r.seq

/-- The seven counters in the order of R190. -/
def counterBytes (s : State) : List Byte :=
  field 2 s.link.receiveErrors ++ field 2 s.link.misplaced ++ field 2 s.link.nonMember ++ field 2 s.engine.undelivered
    ++ field 2 s.catchUp.attempts ++ field 2 s.engine.preempted ++ field 2 s.rep.dropped

/-- STATUS; a source of "none" is sent as 0 (log 24). -/
def statusContents (s : State) : List Byte :=
  [s.memb.state.code, detachedCauseCode s.memb.cause, flag 0 (quorate s) ||| flag 1 s.memb.leaving] ++ field 4 s.dir.seq
    ++ [s.catchUp.phase.code, (match s.catchUp.source with | none => 0#8 | some k => byteOf k),
        BitVec.ofNat 8 s.catchUp.pullIndex, BitVec.ofNat 8 s.catchUp.failures]
    ++ s.memb.peers.toList.flatMap peerBytes ++ counterBytes s

/-- SLOT: by number a slot above 63, by label UNKNOWN_KEY, is answered with the found flag clear (R188). -/
def slotContents (s : State) (sel : SlotSelector) : List Byte :=
  let found := match sel with | .byNumber b => slotOf? b | .byLabel l => s.dir.lookup l
  match found with
  | none => zeros 29
  | some i => [1#8, byteOf i] ++ slotReportBytes (s.dir.slot i) ++ usageBytes (s.dir.usageOf i)

/-- The entry that holds a line (R122); the lowest-numbered where images have left two (log 49). -/
def findLine (t : LineTable) (gateway line : Byte) : Option LineId :=
  (List.finRange 32).find? (fun i =>
    (tget t.entries i).state != .free && (tget t.entries i).gateway == gateway && (tget t.entries i).line == line)

/-- LINE: the free-entry form when no entry holds the pair (R188). -/
def lineContents (s : State) (gateway line : Byte) : List Byte :=
  match findLine s.lines gateway line with
  | none => zeros 85
  | some l => lineBytes (tget s.lines.entries l)

def channelBytes (c : ChannelRecord) : List Byte :=
  [c.state.code] ++ natBytes 2 c.last ++ natBytes 2 c.baseline ++ [BitVec.ofNat 8 c.trip]

def causeBytes : CauseRecord → List Byte
  | .none => [0#8, 0#8]
  | .channel ch => [channelCode ch, 0#8]
  | .order => [7#8, 0#8]
  | .peer k => [8#8, byteOf k]

def windowBytes : Option Nat → List Byte
  | none => zeros 3
  | some r => 1#8 :: natBytes 2 r

def sensorsContents (s : State) : List Byte :=
  s.tamper.channels.toList.flatMap channelBytes ++ windowBytes s.tamper.window ++ causeBytes s.tamper.cause

/-- The kind and contents that answer a query. -/
def queryAnswer (s : State) : QueryArg → Byte × List Byte
  | .identity => (reportIdentity, identityContents s)
  | .status => (reportStatus, statusContents s)
  | .slot sel => (reportSlot, slotContents s sel)
  | .line gateway line => (reportLine, lineContents s gateway line)
  | .sensors => (reportSensors, sensorsContents s)

/-- ORDER_RESULT, with the round id when a PROPOSE was queued and proposer 255, number 0 otherwise (R86, R95; log 24). -/
def orderResultBody (tag : Half) (byAssembly : Bool) (slot kind : Byte) (roundId : Option (Byte × Byte))
    (outcome : OrderOutcome) (detail : Byte) (version : Half) (seq : Word) : List Byte :=
  reportBody tag reportOrderResult
    ([flag 0 byAssembly, slot, kind] ++ (match roundId with | none => [255#8, 0#8] | some (p, k) => [p, k])
      ++ [outcome.code, detail] ++ field 2 version ++ field 4 seq)

def openResultBody (line : Byte) (r : OpenResult) : List Byte := reportBody 0#16 reportOpenResult [line, r.code]

def rejectBody (line position : Byte) (r : RejectReason) (p d : BitVec 4) : List Byte :=
  reportBody 0#16 reportReject [line, position, r.code, p ++ d]

def assemblyBody (id : Half) (target number : Byte) (status : AssemblyStatus) (detail : Option AssemblyDetail)
    (taken : Nat) (m : Byte) (check : Check) : List Byte :=
  reportBody id reportAssembly
    ([target, number, status.code, (match detail with | none => 0#8 | some x => x.code), BitVec.ofNat 8 taken, m]
      ++ field 3 check)

/-! ## The query queue (R188) -/

/-- The query kinds each state answers. -/
def queryAnswered (st : StationState) : QueryArg → Bool
  | .identity | .status | .sensors =>
    match st with
    | .blank | .zeroised | .detached | .listening | .catchup | .live => true
    | .strapFault | .retention => false
  | .slot _ | .line _ _ =>
    match st with
    | .listening | .catchup | .live => true
    | _ => false

/-- Serve the head of the query queue for as long as entries leave it: an entry whose kind is not answered leaves without a
report; for another a REPORT is asked for, and the entry stays until it is admitted (R188). -/
def serveQueriesLoop : Nat → State → State
  | 0, s => s
  | k + 1, s =>
    match s.rep.queries with
    | [] => s
    | q :: rest =>
      if hasPending s isQueryReport then s
      else if queryAnswered s.memb.state q.arg then serveQueriesLoop k (request (.queryReport q) s)
      else serveQueriesLoop k { s with rep := { s.rep with queries := rest } }

def serveQueries (s : State) : State := serveQueriesLoop (s.rep.queries.length + 1) s

/-! ## Fetching a frame's fields (R16) -/

/-- PRESENCE: in BLANK and ZEROISED the commit sequence and the live set are those of an erased station; in DETACHED the live set
is empty (R27). -/
def presenceBody (s : State) : PresenceBody where
  state := s.memb.state.code
  quorate := quorate s
  yield := s.memb.yieldMark
  seq := s.dir.seq
  dirDigest := ownDirDigest s
  workDigest := ownWorkDigest s
  live := setToMap s.memb.live
  check := s.dir.cabinetCheck
  freeDescs := BitVec.ofNat 8 s.pool.free.length
  freeBlocks := BitVec.ofNat 8 (grantableBlocks s.pool)

def joinBody (s : State) : JoinBody := ⟨s.dir.seq, ownDirDigest s, ownWorkDigest s, s.dir.cabinetCheck⟩

/-- An IMAGE item's contents, from the owning block (R113). -/
def imageContents (s : State) (area item : Byte) : List Byte :=
  match area.toNat with
  | 1 => field 2 (setToMap s.memb.live) ++ field 3 s.dir.cabinetCheck
  | 2 =>
    match (openEntries s)[item.toNat]? with
    | none => noRoundBytes
    | some e => roundBytes e.round
  | 3 =>
    match slotOf? item with
    | none => zeros 59
    | some i => slotBytes (s.dir.slot i) ++ usageBytes (s.dir.usageOf i)
  | _ =>
    match indexOf? 32 item with
    | none => zeros 85
    | some l => lineBytes (tget s.lines.entries l)

/-- The D advance: while position D is DONE and D is not P, position D returns to FREE with every field zeroed and D moves on
(R123). -/
def dAdvanceLoop : Nat → LineEntry → LineEntry
  | 0, e => e
  | k + 1, e =>
    let i : PosId := ⟨e.d.toNat, e.d.isLt⟩
    if e.d ≠ e.p ∧ (tget e.positions i).state = .done then
      dAdvanceLoop k { e with positions := tset e.positions i Position.zero, d := e.d + 1#4 }
    else e

def dAdvance (e : LineEntry) : LineEntry := dAdvanceLoop 16 e

/-- A position DONE with a reason; what settled it stands as given, and it has no owner (R123). -/
def donePosition (x : Position) (by_ : SettledBy) (reason : DoneReason) : Position :=
  { x with state := .done, settledBy := by_, owner := 0#4, reason := reason }

/-- The position is CLAIMED with a node as its owner. -/
def claimedBy (x : Position) (k : Node) : Bool := x.state == .claimed && x.owner.toNat == k.val

/-- The D an entry will hold after a FINAL's delivery: with the position DONE if the FINAL would settle it (R135); 0 with no entry (log
59). -/
def dAfterFinal (s : State) (pos : PosRef) : Byte :=
  match findLine s.lines pos.gateway pos.line, indexOf? 16 pos.position with
  | some l, some i =>
    let e := tget s.lines.entries l
    let x := tget e.positions i
    let e := if claimedBy x (ownNode s) then { e with positions := tset e.positions i (donePosition x .claim .finished) } else e
    (dAdvance e).d.setWidth 8
  | _, _ => 0#8

/-- The frame with its fields as they stand (R16). -/
def fetchFrame (s : State) : TxFrame → Frame
  | .join founding => .join founding (joinBody s)
  | .expel node reason => .expel (byteOf node) reason.code
  | .claim b => .claim b
  | .decline pos reason => .decline pos reason.code
  | .unclaimed pos => .unclaimed pos
  | .propose b => .propose b
  | .roundBody number material check => .roundBody number material check
  | .accept proposer number => .accept proposer number
  | .refuse proposer number reason => .refuse proposer number reason
  | .commit number seq version => .commit number seq version
  | .abandon number reason => .abandon number reason.code
  | .closeSilence gateway line => .close (.station gateway line 1#8)
  | .cleared b => .cleared b
  | .answer _ _ _ body => .answer body
  | .final _ b => .final { b with dAfter := dAfterFinal s b.pos }
  | .pull _ area start _ => .pull area start
  | .image _ area item => .image area item s.dir.seq (imageContents s area item)
  | .queryReport q => .report (reportBody q.tag (queryAnswer s q.arg).1 (queryAnswer s q.arg).2)
  | .report _ body | .custodyReport _ body | .roundReport _ body => .report body

/-- What a fetch takes note of first: for SENSORS, the remaining time of an open window as it now stands, which is a FREE VALUE
from 1 s to the time remaining before: at 0 the window would have closed (R178, R189; log 6). -/
def beforeFetch (f : TxFrame) (s : State) : State :=
  match f with
  | .queryReport ⟨_, _, .sensors⟩ =>
    match s.tamper.window with
    | none => s
    | some r =>
      { s with
        tamper := { s.tamper with window := some (r - Config.windowElapsed s.freeIndex % r) }
        freeIndex := s.freeIndex + 1 }
  | _ => s

end Sys2Proof.Machine
end

