-- ==== Sys2Proof/Machine/Pool.lean ====
section
/-! DEFINITION. The job pool's storage (sections 8.1 to 8.4, 8.6): granting and returning descriptors and card blocks, card
intake, the return of STREAM blocks, dropping everything. -/

namespace Sys2Proof.Machine

/-- The state with another pool. -/
def withPool (s : State) (p : Pool) : State := { s with pool := p }

/-- The state with one descriptor changed. -/
def modDesc (s : State) (d : DescId) (f : Descriptor → Descriptor) : State :=
  { s with pool := { s.pool with descs := tmod s.pool.descs d f } }

/-- The pool with a descriptor taken out of whichever queue holds it (R143). -/
def Pool.unqueue (p : Pool) (d : DescId) : Pool :=
  { p with
    free := p.free.filter (· != d)
    claiming := p.claiming.filter (· != d)
    loading := p.loading.filter (· != d)
    urgent := p.urgent.filter (· != d)
    bulk := p.bulk.filter (· != d)
    engine := if p.engine = some d then none else p.engine
    draining := p.draining.filter (· != d) }

def Pool.toClaiming (p : Pool) (d : DescId) : Pool := let p := p.unqueue d; { p with claiming := p.claiming ++ [d] }
def Pool.toLoading (p : Pool) (d : DescId) : Pool := let p := p.unqueue d; { p with loading := p.loading ++ [d] }
def Pool.toUrgent (p : Pool) (d : DescId) : Pool := let p := p.unqueue d; { p with urgent := p.urgent ++ [d] }
def Pool.toBulk (p : Pool) (d : DescId) : Pool := let p := p.unqueue d; { p with bulk := p.bulk ++ [d] }
/-- A batch set aside by preemption enters at the head (R143). -/
def Pool.toBulkHead (p : Pool) (d : DescId) : Pool := let p := p.unqueue d; { p with bulk := d :: p.bulk }
def Pool.toEngine (p : Pool) (d : DescId) : Pool := { p.unqueue d with engine := some d }
def Pool.toDraining (p : Pool) (d : DescId) : Pool := let p := p.unqueue d; { p with draining := p.draining ++ [d] }

/-- Whether a held descriptor's job has the position. -/
def jobAt (s : State) (pos : PosRef) (d : DescId) : Bool := (descOf s d).pos == pos

/-- The descriptor of a won job at a position. -/
def findJob (s : State) (pos : PosRef) : Option DescId :=
  (s.pool.loading ++ s.pool.urgent ++ s.pool.bulk ++ s.pool.engine.toList ++ s.pool.draining).find? (jobAt s pos)

/-- The descriptor in CLAIMING for a position (R144). -/
def findClaiming (s : State) (pos : PosRef) : Option DescId := s.pool.claiming.find? (jobAt s pos)

/-! ## Returns (R144, R145, R150) -/

/-- A descriptor or blocks have returned: while the refusal mark is set the pool clears it and tells the line table (R144). -/
def resourcesFreed (s : State) : State :=
  if s.pool.refused then
    { s with pool := { s.pool with refused := false }, lines := { s.lines with notice := true } }
  else s

/-- Blocks return to the free list, oldest return first, their cells emptied (R142); those of one job in the order of its chain
(log 51). -/
def Pool.returnBlocks (p : Pool) (bs : List BlockId) : Pool :=
  { p with
    freeBlocks := p.freeBlocks ++ bs
    blocks := bs.foldl (fun t b => tset t b emptyBlock) p.blocks }

/-- The blocks that still stand in a job's chain. -/
def chainBlocks (x : Descriptor) : List BlockId := x.chain.filterMap id

/-- Every block of a job's chain returns; the reserve is given up (R148, R150, R152). -/
def releaseStorage (s : State) (d : DescId) : State :=
  let x := descOf s d
  let s := withPool s (s.pool.returnBlocks (chainBlocks x))
  modDesc s d (fun y => { y with chain := [], reserve := 0 })

/-- A job leaves the pool: its storage returns, its fields are cleared, its segment records are dropped, its descriptor goes to
the tail of the free list (R145, R150, R152). -/
def freeDescriptor (s : State) (d : DescId) : State :=
  let s := releaseStorage s d
  let s := modDesc s d (fun _ => Descriptor.zero)
  let p := s.pool.unqueue d
  let s := withPool s { p with free := p.free ++ [d] }
  resourcesFreed { s with engine := { s.engine with segs := tset s.engine.segs d [] } }

/-- A claim that will not settle its position for this station gives its resources back (R145). The positions are considered
again, since one of the own CLAIMs has left the queue (R129). -/
def returnClaim (pos : PosRef) (s : State) : State :=
  let s := { s with lines := { s.lines with notice := true } }
  match findClaiming s pos with
  | none => s
  | some d => freeDescriptor s d

/-- The claims among frames that have been withdrawn or dropped return their resources (R145), in the order of the list (log 61). -/
def returnClaims (fs : List TxFrame) (s : State) : State :=
  fs.foldl (fun s f => match f with | .claim b => returnClaim b.pos s | _ => s) s

/-- Withdraw frames of the line table, returning the resources of every CLAIM taken out (R129, R132, R145). -/
def retractClaims (p : TxFrame → Bool) (s : State) : State := returnClaims (takenBy s.link p) (retract p s)

/-! ## Granting (R144) -/

/-- The blocks a job reserves: ⌈cards / 6⌉ for a BATCH, none for a SINGLE (R144). -/
def blocksNeeded (kind : JobKind) (count : Nat) : Nat :=
  match kind with
  | .single => 0
  | .batch => (count + 5) / 6

/-- The descriptor's fields at grant, from the position record and the posting note (R141, R144). -/
def grantedDescriptor (pos : PosRef) (x : Position) (note : PostingNote) : Descriptor :=
  { Descriptor.zero with
    pos := pos
    kind := x.kind
    function := x.function
    master := x.master
    transport := x.transport
    count := x.count.toNat
    segSize := (match x.kind with | .single => 0 | .batch => note.segSize.toNat)
    policy := (match x.kind with | .single => 0#8 | .batch => note.policy)
    inline := (match x.kind, note.card with | .single, some c => .card c | _, _ => .empty)
    groupsExpected := blocksNeeded x.kind x.count.toNat
    reserve := blocksNeeded x.kind x.count.toNat }

/-- The claim's resources: granted when the free list is not empty and R + b ≤ F; a refusal sets the refusal mark (R144). -/
def grantClaim (pos : PosRef) (x : Position) (note : PostingNote) (s : State) : Bool × State :=
  match s.pool.free with
  | [] => (false, withPool s { s.pool with refused := true })
  | d :: _ =>
    if reservedBlocks s.pool + blocksNeeded x.kind x.count.toNat ≤ freeBlockCount s.pool then
      (true, modDesc (withPool s (s.pool.toClaiming d)) d (fun _ => grantedDescriptor pos x note))
    else (false, withPool s { s.pool with refused := true })

/-! ## Intake (R147) -/

/-- The cells of a block that takes a group's records: in the frame's order, the remaining cells empty (R147). -/
def groupCells (records : List CardRecord) : Vector Cell 6 :=
  tableOf 6 (fun i => match records[i]? with | some c => .card c | none => .empty)

/-- A group is correct: its index is the number of groups received, and it carries 6 records, or the remainder for the last
(R147). -/
def groupCorrect (x : Descriptor) (group records : Nat) : Bool :=
  group == x.groupsReceived &&
    ((group + 1 < x.groupsExpected && records == 6)
      || (group + 1 == x.groupsExpected && records + 6 * (x.groupsExpected - 1) == x.count))

/-- A correct group is taken: the oldest free block joins the chain and out of the reserve (R147). -/
def takeGroup (s : State) (d : DescId) (records : List CardRecord) : State :=
  match s.pool.freeBlocks with
  | [] => s
  | b :: rest =>
    let s := withPool s { s.pool with freeBlocks := rest, blocks := tset s.pool.blocks b (groupCells records) }
    modDesc s d (fun x => { x with
      chain := x.chain ++ [some b]
      reserve := x.reserve - 1
      groupsReceived := x.groupsReceived + 1
      gapRunning := true })

/-! ## STREAM blocks (R151) -/

/-- A cell waits: it holds a result not yet carried by a sent ANSWER, or a card the engine will still derive (R151). -/
def cellWaits (sent : Nat) (status : JobStatus) : Cell → Bool
  | .empty => false
  | .card _ => status == .none
  | .result r => sent ≤ r.index.toNat

/-- No cell of a block waits. -/
def blockDone (p : Pool) (sent : Nat) (status : JobStatus) (b : BlockId) : Bool :=
  !(tget p.blocks b).toList.any (cellWaits sent status)

def isStream (x : Descriptor) : Bool := x.kind == .batch && x.policy == policyStream
def isHold (x : Descriptor) : Bool := x.kind == .batch && x.policy == policyHold

/-- Every chain block of a STREAM job in which no cell waits returns; the chain keeps its places (R151). -/
def streamReturn (s : State) (d : DescId) : State :=
  let x := descOf s d
  let sent := (jobContext s d).sent
  let done := (chainBlocks x).filter (blockDone s.pool sent x.status)
  if isStream x && !done.isEmpty then
    let s := withPool s (s.pool.returnBlocks done)
    let s := modDesc s d (fun y => { y with
      chain := y.chain.map (fun c => match c with | some b => if done.contains b then none else some b | none => none) })
    resourcesFreed s
  else s

/-! ## Dropping everything (R154, R155) -/

/-- The pool at a start event and at the station's own removal: every descriptor and block free, in number order, nothing else
(R154, R155; log 16). -/
def dropAllJobs (s : State) : State := withPool s Pool.empty

end Sys2Proof.Machine
end

