-- ==== Sys2Proof/Machine/Engine.lean ====
section
/-! DEFINITION. The derivation engine and its answer builder (chapter 9), with the pool's movements that end, cancel and tear
down jobs (R146 to R154). -/

namespace Sys2Proof.Machine

/-! ## Cards (R159 to R161) -/

/-- The 20 digits of a card number, the first in the most significant half byte (R159). -/
def cardDigits (c : CardRecord) : List (BitVec 4) := (List.range 20).map (fun i => c.number.extractLsb' (4 * (19 - i)) 4)

/-- The card is valid: digits 0 to 9 or pads, only pads after a pad, length 12 to 19, a decimal sequence byte (R159). -/
def cardValid (c : CardRecord) : Bool :=
  let digits := cardDigits c
  let shown := digits.takeWhile (· != 15#4)
  let rest := digits.dropWhile (· != 15#4)
  shown.all (fun d => d.toNat ≤ 9) && rest.all (· == 15#4) && 12 ≤ shown.length && shown.length ≤ 19
    && (c.seq.extractLsb' 4 4).toNat ≤ 9 && (c.seq.extractLsb' 0 4).toNat ≤ 9

/-- The derivation block A: card number, sequence byte, 5 zero bytes (R160). -/
def derivationBlock (c : CardRecord) : Block := c.number ++ c.seq ++ 0#40

/-- The block that APP encrypts under the card key: the application tag and 14 bytes 0xA5 (R160). -/
def appBlock (c : CardRecord) : Block := c.tag ++ 0xA5A5A5A5A5A5A5A5A5A5A5A5A5A5#112

/-- The card's key K under a function's master key (R160). -/
def cardKey (f : JobFunction) (master : Key) (c : CardRecord) : Block :=
  match f with
  | .app => Config.cipher (doubled (Config.cipher master (derivationBlock c))) (appBlock c)
  | _ => Config.cipher master (derivationBlock c)

/-- An OK result: K wrapped under the transport key, and K's check value (R160). -/
def okResult (index : Byte) (k : Block) (transport : Key) : CardResult :=
  ⟨index, .ok, Config.cipher transport k, checkOf (doubled k)⟩

/-- A BAD_CARD result: zero key and zero check value (R159). -/
def badResult (index : Byte) : CardResult := ⟨index, .badCard, 0#128, 0#24⟩

/-- The result a card start fixes (R158 step 3, R159 to R161). -/
def cardResult (s : State) (x : Descriptor) (m : SlotId) (index : Nat) (cell : Cell) : CardResult :=
  let i := BitVec.ofNat 8 index
  match x.function with
  | .check => ⟨0#8, .ok, 0#128, (s.dir.slot m).check⟩
  | f =>
    match cell with
    | .card c =>
      if cardValid c then
        match s.dir.keyUse m .master, (slotOf? x.transport).bind (fun t => s.dir.keyUse t .transport) with
        | some mk, some tk => okResult i (cardKey f mk c) tk
        | _, _ => badResult i
      else badResult i
    | _ => badResult i

/-! ## Segments (R166, R167) -/

def openSegment (s : State) (d : DescId) : Option Segment := (tget s.engine.segs d).find? (fun g => g.phase == .opened)

/-- A segment is produced: its ANSWER is admitted, or waits as PENDING (R167). -/
def produceSegment (d : DescId) (s : State) (number : Nat) : State :=
  request (.answer (some d) (nodeOf (descOf s d).pos.gateway) number []) (setSegmentPhase s d number .pending)

/-- The OPEN segment closes: HELD under HOLD, else produced (R166, R167). -/
def closeSegment (s : State) (d : DescId) : State :=
  match openSegment s d with
  | none => s
  | some g => if isHold (descOf s d) then setSegmentPhase s d g.number .held else produceSegment d s g.number

/-- The HELD segments, in segment order (R167). -/
def heldSegments (s : State) (d : DescId) : List Nat :=
  ((tget s.engine.segs d).filter (fun g => g.phase == .held)).map (·.number)

/-- The FINAL of an ended job; its D field is fetched when it wins (R170). -/
def finalOf (x : Descriptor) : FinalBody :=
  ⟨x.pos, x.status.code, BitVec.ofNat 8 x.ctx.next, BitVec.ofNat 8 x.ctx.consumed, BitVec.ofNat 8 x.ctx.bad,
   BitVec.ofNat 8 x.ctx.preemptions, 0#8⟩

/-- What the answer builder does at every end of a job: close the OPEN segment, produce the HELD segments, produce the FINAL; then
STREAM blocks that no longer wait return (R169, R151). -/
def jobEnded (s : State) (d : DescId) : State :=
  let s := closeSegment s d
  let s := (heldSegments s d).foldl (produceSegment d) s
  let s := request (.final (some d) (finalOf (descOf s d))) s
  streamReturn s d

/-- The segment a result joins, opened first if there is none (R166). -/
def joinSegment (s : State) (d : DescId) (index : Nat) : State :=
  match openSegment s d with
  | some _ =>
    { s with engine := { s.engine with
        segs := tmod s.engine.segs d (fun l => l.map (fun g =>
          if g.phase == .opened then { g with count := g.count + 1 } else g)) } }
  | none =>
    { s with engine := { s.engine with
        segs := tmod s.engine.segs d (fun l => l ++ [⟨s.engine.ctx.segment, index, 1, s.engine.ctx.version, .opened⟩])
        ctx := { s.engine.ctx with segment := s.engine.ctx.segment + 1 } } }

/-- The segment size s: the descriptor's for a BATCH, 1 for a SINGLE (R166). -/
def segmentSize (x : Descriptor) : Nat :=
  match x.kind with
  | .single => 1
  | .batch => x.segSize

/-- A full OPEN segment closes (R166). -/
def closeIfFull (s : State) (d : DescId) : State :=
  match openSegment s d with
  | some g => if segmentSize (descOf s d) ≤ g.count then closeSegment s d else s
  | none => s

/-! ## Leaving the engine -/

/-- The context is written back into the descriptor and the engine holds no card (R156). -/
def writeBack (s : State) (d : DescId) : State :=
  let s := modDesc s d (fun x => { x with ctx := s.engine.ctx })
  { s with engine := { s.engine with ctx := JobContext.zero, inFlight := none } }

/-- The engine ends its current job with a status: ENGINE to the tail of DRAINING (R169). -/
def endCurrent (status : JobStatus) (s : State) (d : DescId) : State :=
  let s := writeBack s d
  let s := modDesc s d (fun x => { x with status := status })
  jobEnded (withPool s (s.pool.toDraining d)) d

/-! ## Card start and taking work (R157, R158) -/

/-- The key check of a card start (R158 step 1). -/
def keysUsable (s : State) (x : Descriptor) : Option SlotId :=
  match slotOf? x.master with
  | none => none
  | some m =>
    let transport :=
      match x.function with
      | .check => true
      | _ => match slotOf? x.transport with | none => false | some t => s.dir.activeWith t .transport
    if s.dir.activeWith m .master && x.function.allowedIn (s.dir.slot m).functions && transport && s.dir.key.isSome
    then some m else none

/-- The early close: the OPEN segment's version differs from the slot's (R158 step 2, R166). -/
def earlyClose (s : State) (d : DescId) (version : Half) : State :=
  match openSegment s d with
  | some g => if g.version ≠ version then closeSegment s d else s
  | none => s

/-- The blocks of a BATCH that ends before its first card return at once, whatever its policy (R151, R148, R149). -/
def returnUnbegun (s : State) (d : DescId) (next : Nat) : State :=
  if (descOf s d).kind = .batch ∧ next = 0 then resourcesFreed (releaseStorage s d) else s

/-- A card start of the current job: it ends KEY_STOPPED, or a card is in flight (R158). -/
def cardStart (s : State) (d : DescId) : State :=
  match keysUsable s (descOf s d) with
  | none => endCurrent .keyStopped (returnUnbegun s d s.engine.ctx.next) d
  | some m =>
    let slot := s.dir.slot m
    let s := earlyClose s d slot.version
    let c := s.engine.ctx
    let c := { c with version := slot.version, label := if c.next = 0 then slot.label else c.label }
    let result := cardResult s (descOf s d) m c.next (cellOf s d c.next)
    { s with engine := { s.engine with ctx := c, inFlight := some result } }

/-- A job moves into ENGINE and its context is loaded (R157). -/
def loadJob (s : State) (d : DescId) : State :=
  let s := withPool s (s.pool.toEngine d)
  { s with engine := { s.engine with ctx := (descOf s d).ctx, inFlight := none } }

/-- The next card start: of the job that is current, else of the head of URGENT, else of the head of BULK; none while all are empty
(R157). A job is still current here only where the boundary found nothing in URGENT to set it aside for (R163). -/
def startNext (s : State) : Option State :=
  match s.pool.engine, s.pool.urgent, s.pool.bulk with
  | some d, _, _ => some (cardStart s d)
  | none, d :: _, _ => some (cardStart (loadJob s d) d)
  | none, [], d :: _ => some (cardStart (loadJob s d) d)
  | none, [], [] => none

/-- The engine takes work, again while a card start ends the job instead (R157). -/
def takeWork : Nat → State → State
  | 0, s => s
  | k + 1, s =>
    match startNext s with
    | none => s
    | some t => if t.engine.inFlight.isSome then t else takeWork k t

/-- As many times as there are jobs. -/
def engineWork (s : State) : State := takeWork 49 s

/-- A job has entered URGENT or BULK: an IDLE engine takes work (R157). -/
def workArrived (s : State) : State := if s.pool.engine = none then engineWork s else s

/-! ## Ends outside the engine (R148, R149) -/

/-- A job ends in LOADING, in one step (R148). -/
def endLoading (status : JobStatus) (s : State) (d : DescId) : State :=
  let s := releaseStorage s d
  let s := modDesc s d (fun x => { x with gapRunning := false, status := status })
  resourcesFreed (jobEnded (withPool s (s.pool.toDraining d)) d)

/-- A job ends in URGENT or BULK (R149). -/
def endWaiting (s : State) (d : DescId) : State :=
  let s := modDesc s d (fun x => { x with status := .cancelled })
  jobEnded (withPool s (s.pool.toDraining d)) d

/-- A CANCEL for a CLAIMED position reaches the pool (R149). -/
def cancelJob (pos : PosRef) (s : State) : State :=
  match findJob s pos with
  | none => s
  | some d =>
    if s.pool.loading.contains d then endLoading .cancelled s d
    else if s.pool.urgent.contains d then endWaiting s d
    else if s.pool.bulk.contains d then endWaiting (returnUnbegun s d (descOf s d).ctx.next) d
    else if s.pool.engine = some d then modDesc s d (fun x => { x with cancelMark := true })
    else s

/-! ## Claims won, intake (R146, R147) -/

/-- The own CLAIM has settled the position (R146). -/
def claimWon (pos : PosRef) (s : State) : State :=
  match findClaiming s pos with
  | none => s
  | some d =>
    let version := match slotOf? (descOf s d).master with | none => 0#16 | some m => (s.dir.slot m).version
    let s := modDesc s d (fun x => { x with ctx := { x.ctx with version := version } })
    match (descOf s d).kind with
    | .single => workArrived (withPool s (s.pool.toUrgent d))
    | .batch => modDesc (withPool s (s.pool.toLoading d)) d (fun x => { x with gapRunning := true })

/-- Intake is complete: the deadline stops and the job moves to the tail of BULK (R147). -/
def intakeDone (s : State) (d : DescId) : State :=
  let s := modDesc s d (fun x => { x with gapRunning := false })
  workArrived (withPool s (s.pool.toBulk d))

/-- A CARDS frame at the pool (R147). -/
def takeCards (pos : PosRef) (group : Byte) (records : List CardRecord) (s : State) : State :=
  match s.pool.loading.find? (jobAt s pos) with
  | none => s
  | some d =>
    if groupCorrect (descOf s d) group.toNat records.length then
      let s := takeGroup s d records
      if (descOf s d).groupsReceived = (descOf s d).groupsExpected then intakeDone s d else s
    else endLoading .badSequence s d

/-! ## Teardown and CLEARED (R152, R153, R165) -/

/-- The link from queued ANSWER and FINAL frames to a job that leaves the pool is cut (log 37). -/
def orphanFrame (d : DescId) : TxFrame → TxFrame
  | .answer (some x) gateway number body => .answer (if x = d then none else some x) gateway number body
  | .final (some x) b => .final (if x = d then none else some x) b
  | f => f

def orphanJob (s : State) (d : DescId) : State :=
  { s with link := { s.link with queue := s.link.queue.map (fun e => { e with frame := orphanFrame d e.frame }) } }

def isClearingOf (gateway line : Byte) (r : ClearingRecord) : Bool := r.gateway == gateway && r.line == line

/-- The state with a line's clearing record changed. -/
def modClearing (s : State) (gateway line : Byte) (f : ClearingRecord → ClearingRecord) : State :=
  withPool s { s.pool with
    clearing := s.pool.clearing.map (fun r => if isClearingOf gateway line r then f r else r) }

/-- The torn-down job leaves: its segments not yet admitted are dropped, those admitted stay and return no block, its position and
consumed count are entered in the clearing record, its storage and descriptor return (R152, R165). -/
def leaveTornDown (s : State) (d : DescId) : State :=
  let x := descOf s d
  let s := dropPending (isAnswerOf d) s
  let s := dropPending (isFinalOf d) s
  let s := orphanJob s d
  let s := modClearing s x.pos.gateway x.pos.line (fun r =>
    { r with entries := r.entries ++ [⟨x.pos.position, BitVec.ofNat 8 x.ctx.consumed⟩] })
  freeDescriptor s d

/-- An outstanding descriptor is no longer outstanding (R153). -/
def settleOutstanding (s : State) (x : Descriptor) : State :=
  modClearing s x.pos.gateway x.pos.line (fun r => { r with outstanding := r.outstanding - 1 })

/-- A list in position order (R153). -/
def insertEntry (e : ClearedEntry) : List ClearedEntry → List ClearedEntry
  | [] => [e]
  | x :: rest => if e.position.toNat ≤ x.position.toNat then e :: x :: rest else x :: insertEntry e rest

def sortEntries (l : List ClearedEntry) : List ClearedEntry := l.foldr insertEntry []

/-- The CLEARED of a clearing record (R153). -/
def clearedOf (r : ClearingRecord) : ClearedBody :=
  ⟨r.gateway, r.line, BitVec.ofNat 8 r.entries.length, sortEntries r.entries⟩

/-- Every clearing record with nothing outstanding gives its CLEARED and is dropped (R153). -/
def flushClearing (s : State) : State :=
  let ready := s.pool.clearing.filter (fun r => r.outstanding == 0)
  let s := withPool s { s.pool with clearing := s.pool.clearing.filter (fun r => r.outstanding != 0) }
  ready.foldl (fun s r => request (.cleared (clearedOf r)) s) s

/-- The descriptor stays outstanding: its teardown mark is set (R152; log 37). -/
def markOutstanding (s : State) (x : Descriptor) (d : DescId) : State :=
  let s := modDesc s d (fun x => { x with teardownMark := true })
  modClearing s x.pos.gateway x.pos.line (fun r => { r with outstanding := r.outstanding + 1 })

/-- Teardown of one held descriptor according to its queue (R152). -/
def tearDownJob (s : State) (d : DescId) : State :=
  if s.pool.loading.contains d || s.pool.urgent.contains d || s.pool.bulk.contains d then leaveTornDown s d
  else if s.pool.engine = some d then markOutstanding s (descOf s d) d
  else if s.pool.draining.contains d then
    let s := if hasQueued s (isFinalOf d) then retract (isFinalOf d) s else s
    if hasQueued s (isFinalOf d) then markOutstanding s (descOf s d) d else leaveTornDown s d
  else s

/-- A held descriptor of a won job of a line. -/
def jobOfLine (s : State) (gateway line : Byte) (d : DescId) : Bool :=
  !(s.pool.free.contains d) && !(s.pool.claiming.contains d)
    && (descOf s d).pos.gateway == gateway && (descOf s d).pos.line == line

/-- The station's node has entered a line's pending-clear set: its jobs of the line are torn down (R152, R153), in
descriptor number order (log 52). -/
def tearDown (gateway line : Byte) (s : State) : State :=
  let jobs := (List.finRange 48).filter (jobOfLine s gateway line)
  let s := withPool s { s.pool with clearing := s.pool.clearing ++ [⟨gateway, line, [], 0⟩] }
  flushClearing (jobs.foldl tearDownJob s)

/-- The withdrawal of a torn-down job's FINAL has been taken at the end of an arbitration (R152, R18). -/
def finalWithdrawn (job : Option DescId) (s : State) : State :=
  match job with
  | none => s
  | some d => flushClearing (leaveTornDown (settleOutstanding s (descOf s d)) d)

/-! ## Completion and the card boundary (R162 to R165) -/

/-- The result overwrites the card's record (R162). -/
def writeResult (s : State) (d : DescId) (card : Nat) (r : CardResult) : State :=
  let x := descOf s d
  match x.kind with
  | .single => modDesc s d (fun x => { x with inline := .result r })
  | .batch =>
    match x.chain.getD (card / 6) none with
    | none => s
    | some b =>
      withPool s { s.pool with
        blocks := tmod s.pool.blocks b (fun t => tset t ⟨card % 6, Nat.mod_lt _ (by decide)⟩ (.result r)) }

/-- The batch context after a card's completion (R162). -/
def countCard (f : JobFunction) (r : CardResult) (c : JobContext) : JobContext :=
  { c with
    next := c.next + 1
    consumed := if r.status = .ok ∧ f ≠ .check then c.consumed + 1 else c.consumed
    bad := if r.status = .badCard then c.bad + 1 else c.bad }

/-- The number of a job's cards: 1 for a SINGLE, the card count for a BATCH (R163). -/
def jobCards (x : Descriptor) : Nat :=
  match x.kind with
  | .single => 1
  | .batch => x.count

/-- Preemption: the current batch goes to the head of BULK with its context, its OPEN segment kept (R164). -/
def preempt (s : State) (d : DescId) : State :=
  let s := writeBack s d
  let s := modDesc s d (fun x => { x with ctx := { x.ctx with preemptions := min 255 (x.ctx.preemptions + 1) } })
  let s := { s with engine := { s.engine with preempted := raise16 s.engine.preempted } }
  withPool s (s.pool.toBulkHead d)

/-- A job with the teardown mark is handed back to the pool without ending (R165). -/
def handBack (s : State) (d : DescId) : State :=
  let s := writeBack s d
  flushClearing (leaveTornDown (settleOutstanding s (descOf s d)) d)

/-- The boundary decisions, the first case that applies (R163). -/
def cardBoundary (s : State) (d : DescId) : State :=
  let x := descOf s d
  if x.teardownMark then engineWork (handBack s d)
  else if s.engine.ctx.next = jobCards x then engineWork (endCurrent .complete s d)
  else if x.cancelMark then engineWork (endCurrent .cancelled s d)
  else if x.kind = .batch ∧ s.pool.urgent ≠ [] then engineWork (preempt s d)
  else engineWork s

/-- The card in flight completes (R162). -/
def completeCard (s : State) : State :=
  match s.pool.engine, s.engine.inFlight with
  | some d, some r =>
    let card := s.engine.ctx.next
    let s := writeResult s d card r
    let s := { s with engine := { s.engine with
      ctx := countCard (descOf s d).function r s.engine.ctx, inFlight := none } }
    let s := closeIfFull (joinSegment s d card) d
    cardBoundary s d
  | _, _ => s

/-! ## Completion notices (R171) -/

/-- An ANSWER or FINAL whose gateway slot is not marked is counted (R171). -/
def countUndelivered (s : State) (gateway : Node) (receipt : NodeMap) : State :=
  if receipt.getLsbD gateway.val then s
  else { s with engine := { s.engine with undelivered := raise16 s.engine.undelivered } }

/-- The job's results sent index, in the context while the job is current, else in the descriptor (R156, R171). -/
def setSent (s : State) (d : DescId) (sent : Nat) : State :=
  if s.pool.engine = some d then { s with engine := { s.engine with ctx := { s.engine.ctx with sent := sent } } }
  else modDesc s d (fun x => { x with ctx := { x.ctx with sent := sent } })

/-- ANSWER completion (R171). -/
def answerSent (job : Option DescId) (gateway : Node) (number : Nat) (receipt : NodeMap) (s : State) : State :=
  let s := countUndelivered s gateway receipt
  match job with
  | none => s
  | some d =>
    match (tget s.engine.segs d).find? (fun g => g.number == number) with
    | none => s
    | some g =>
      let s := { s with engine := { s.engine with
        segs := tmod s.engine.segs d (fun l => l.filter (fun x => x.number != number)) } }
      streamReturn (setSent s d (g.first + g.count)) d

/-- FINAL completion: the descriptor returns; a descriptor that was outstanding in a clearing record no longer is (R150, R153,
R171). -/
def finalSent (job : Option DescId) (gateway : Node) (receipt : NodeMap) (s : State) : State :=
  let s := countUndelivered s gateway receipt
  match job with
  | none => s
  | some d =>
    let x := descOf s d
    let s := if x.teardownMark then settleOutstanding s x else s
    flushClearing (freeDescriptor s d)

/-! ## Abandonment (R172) -/

/-- The card in flight is abandoned, the context and the answer builder are cleared; the counters stay (R172, R173). -/
def abandonEngine (s : State) : State :=
  { s with engine := { s.engine with inFlight := none, ctx := JobContext.zero, segs := noSegments } }

/-- Queued frames of jobs that no longer exist have no job (log 37). -/
def orphanAll : TxFrame → TxFrame
  | .answer _ gateway number body => .answer none gateway number body
  | .final _ b => .final none b
  | f => f

/-- The station's own removal: every job and resource is dropped (R154, R172). -/
def dropJobs (s : State) : State :=
  let s := dropAllJobs (abandonEngine s)
  { s with link := { s.link with queue := s.link.queue.map (fun e => { e with frame := orphanAll e.frame }) } }

end Sys2Proof.Machine
end

