-- ==== Sys2Proof/Machine/Leave.lean ====
section
/-! DEFINITION. Self-expulsion (R35): what a LIVE station does when it finds a cause, and the withdrawals that go with it. -/

namespace Sys2Proof.Machine

/-- The pull queue is emptied, every queued IMAGE withdrawn and every pending one dropped (R113). -/
def stopServing (s : State) : State := retract isImage { s with catchUp := { s.catchUp with serve := [] } }

/-- The own PROPOSE is withdrawn; if that is taken the own round returns to HELD, and if it is held or refused the round's
phase is decided later (R34, R35, R67). -/
def withdrawPropose (s : State) : State :=
  if s.rounds.own.phase = .proposed then
    let s := retract isPropose s
    if hasFrame s isPropose then s
    else { s with rounds := { s.rounds with own := { s.rounds.own with phase := .held } } }
  else s

/-- A LIVE station that is not leaving and finds a cause queues the EXPEL naming itself and becomes leaving: it withdraws its CLAIM,
PROPOSE, ACCEPT, REFUSE and COMMIT frames, and its serving side stops (R35, R113). A cause found while leaving queues no
second EXPEL. -/
def selfExpel (reason : ExpelReason) (s : State) : State :=
  if isLive s && !s.memb.leaving then
    let s := { s with memb := { s.memb with leaving := true } }
    let s := request (.expel (self s) reason) s
    let s := retractClaims isClaim s
    let s := withdrawPropose s
    let s := retract isVoteOrCommit s
    stopServing s
  else s

end Sys2Proof.Machine
end

