-- ==== Sys2Proof/Machine/Lines.lean ====
section
/-! DEFINITION. The line table (chapter 7): opening, posting, claim conditions, settlement, completion, closing, and what the
membership changes do to it. -/

namespace Sys2Proof.Machine

/-! ## Reading and writing entries -/

def entryAt (s : State) (l : LineId) : LineEntry := tget s.lines.entries l
def positionOf (s : State) (l : LineId) (p : PosId) : Position := tget (entryAt s l).positions p
def localAt (s : State) (l : LineId) (p : PosId) : LocalPos := tget (tget s.lines.locals l) p

def setEntry (s : State) (l : LineId) (e : LineEntry) : State :=
  { s with lines := { s.lines with entries := tset s.lines.entries l e } }

def setLocal (s : State) (l : LineId) (p : PosId) (x : LocalPos) : State :=
  { s with lines := { s.lines with locals := tset s.lines.locals l (tset (tget s.lines.locals l) p x) } }

/-- The position of a line as frames name it. -/
def posRefOf (e : LineEntry) (p : PosId) : PosRef := ⟨e.gateway, e.line, byteOf p⟩

/-- The posted positions are to be considered again (R49, R85, R130, R144; log 10). -/
def giveNotice (s : State) : State := { s with lines := { s.lines with notice := true } }

/-- The position that three bytes name, when an entry holds the line (R132). -/
def findPosition (s : State) (pos : PosRef) : Option (LineId × PosId) :=
  match findLine s.lines pos.gateway pos.line, indexOf? 16 pos.position with
  | some l, some p => some (l, p)
  | _, _ => none

/-- An entry is freed: all fields zero, every position FREE, no note and no timer (R122). -/
def freeLine (s : State) (l : LineId) : State :=
  { s with lines := { s.lines with
      entries := tset s.lines.entries l LineEntry.zero
      locals := tset s.lines.locals l (Vector.replicate 16 LocalPos.empty) } }

/-! ## Claim conditions (R127, R128) -/

/-- The form check fails (R127 check 1); so does a job whose function is outside its list (section 11.5; log 11). Without a note
segment size and policy are taken as valid. -/
def formFails (x : Position) (note : Option PostingNote) : Bool :=
  x.function == .none || x.kind == .batch &&
    (x.function == .check || x.count.toNat == 0 || 240 < x.count.toNat ||
      (match note with
       | none => false
       | some n => n.segSize.toNat == 0 || 4 < n.segSize.toNat || !(n.policy == policyStream || n.policy == policyHold)))

/-- A round is open on a slot that a position names; NONE names no slot (R85, R127 check 7). -/
def namedSlotFrozen (s : State) (slot : Byte) : Bool := (slotOf? slot).isSome && frozenSlot s slot

/-- The claim conditions, in order; the first that fails gives the decline reason, none when they hold (R127). -/
def claimConditions (s : State) (x : Position) (note : Option PostingNote) : Option DeclineReason :=
  if formFails x note then some .form
  else
    match slotOf? x.master with
    | none => some .masterUnknown
    | some m =>
      if !s.dir.activeWith m .master then some .masterUnusable
      else if !x.function.allowedIn (s.dir.slot m).functions then some .function
      else if x.function != .check && (slotOf? x.transport).isNone then some .transportUnknown
      else if x.function != .check && !((slotOf? x.transport).any (fun t => s.dir.activeWith t .transport)) then
        some .transportUnusable
      else if namedSlotFrozen s x.master || namedSlotFrozen s x.transport then some .keyChanging
      else if (s.dir.usageOf m).exhausted then some .exhausted
      else if s.dir.room m < x.count.toNat then some .noRoom
      else if !liveSetQuorate s then some .notQuorate
      else none

/-- The preferred station: the member at index (8 × line + position + gateway) mod member count (R128). -/
def preferred (s : State) (e : LineEntry) (p : PosId) : Option StationId :=
  (members s)[(8 * e.line.toNat + p.val + e.gateway.toNat) % memberCount s]?

/-- The card counts of the own CLAIMs, queued or pending, for other positions with a master slot (R129). -/
def ownClaimCards (s : State) (master : Byte) (pos : PosRef) : Nat :=
  ((s.link.admissions ++ s.link.queue.map (·.frame)).map (fun f =>
    match f with
    | .claim b => if b.master == master && b.pos != pos then b.count.toNat else 0
    | _ => 0)).foldl (· + ·) 0

/-- R129's list, but for the pool's grant: serving, no CLAIM queued or pending, room for the own claims too, and preferred or past
the deferral. -/
def mayClaim (s : State) (e : LineEntry) (p : PosId) (x : Position) (loc : LocalPos) : Bool :=
  serving s && !hasFrame s (isClaimFor (posRefOf e p))
    && (preferred s e p == some (self s) || loc.deferral == .expired)
    && (slotOf? x.master).any (fun m => x.count.toNat + ownClaimCards s x.master (posRefOf e p) ≤ s.dir.room m)

/-- A station acts on an evaluation of a POSTED position (R129); one that is not preferred keeps no DECLINE for it (log 53). -/
def considerPosition (s : State) (l : LineId) (p : PosId) : State :=
  let e := entryAt s l
  let x := tget e.positions p
  let loc := localAt s l p
  let pos := posRefOf e p
  let isPreferred := preferred s e p == some (self s)
  if x.state != .posted then s
  else
    match claimConditions s x loc.note with
    | some reason =>
      let s := retractClaims (isClaimFor pos) s
      if isPreferred then (if hasFrame s (isDeclineFor pos) then s else request (.decline pos reason) s)
      else retract (isDeclineFor pos) s
    | none =>
      let s := retract (isDeclineFor pos) s
      match loc.note with
      | none => s
      | some note =>
        if mayClaim s e p x loc then
          match grantClaim pos x note s with
          | (true, s) => request (.claim ⟨pos, x.count, x.master, x.transport⟩) s
          | (false, s) => s
        else s

/-- Posted positions with the place of their job frame; one without a note is as old as any (R129). -/
def postedPositions (s : State) : List (Nat × LineId × PosId) :=
  (List.finRange 32).flatMap (fun l =>
    if (entryAt s l).state = .free then []
    else (List.finRange 16).filterMap (fun p =>
      if (positionOf s l p).state = .posted then
        some ((match (localAt s l p).note with | none => 0 | some n => n.place), l, p)
      else none))

def insertPosted (x : Nat × LineId × PosId) : List (Nat × LineId × PosId) → List (Nat × LineId × PosId)
  | [] => [x]
  | y :: rest => if x.1 ≤ y.1 then x :: y :: rest else y :: insertPosted x rest

/-- In the order of their job frames' delivery (R129). -/
def sortPosted (l : List (Nat × LineId × PosId)) : List (Nat × LineId × PosId) := l.foldr insertPosted []

/-- Every POSTED position is considered, again while a CLAIM leaves the queue meanwhile (R129, R130, R144; log 10). -/
def considerLoop : Nat → State → State
  | 0, s => { s with lines := { s.lines with notice := false } }
  | k + 1, s =>
    if s.lines.notice then
      let s := { s with lines := { s.lines with notice := false } }
      considerLoop k ((sortPosted (postedPositions s)).foldl (fun s x => considerPosition s x.2.1 x.2.2) s)
    else s

/-- Only a LIVE station evaluates (R126, R130). -/
def considerPosted (s : State) : State :=
  if isLive s then considerLoop 64 s else { s with lines := { s.lines with notice := false } }

/-! ## Settlement (R123, R132) -/

/-- The station withdraws and drops its CLAIM, DECLINE and UNCLAIMED for a position (R132). -/
def retractSettlements (pos : PosRef) (s : State) : State := retractClaims (isSettlementFor pos) s

/-- A POSTED position becomes DONE; its note and timers go, the station's frames for it are withdrawn, D advances (R123, R132). -/
def settlePosted (s : State) (l : LineId) (p : PosId) (by_ : SettledBy) (reason : DoneReason) : State :=
  let e := entryAt s l
  let x := tget e.positions p
  let s := setEntry s l (dAdvance { e with positions := tset e.positions p (donePosition x by_ reason) })
  retractSettlements (posRefOf e p) (setLocal s l p LocalPos.empty)

/-- DECLINE and UNCLAIMED: a late settlement is ignored (R132). -/
def settleFrame (pos : PosRef) (by_ : SettledBy) (reason : DoneReason) (s : State) : State :=
  match findPosition s pos with
  | none => s
  | some (l, p) => if (positionOf s l p).state = .posted then settlePosted s l p by_ reason else s

/-- The own CLAIM has not been taken (R133, R145). -/
def claimLost (src : Node) (pos : PosRef) (s : State) : State := if src = ownNode s then returnClaim pos s else s

/-- The reservation is taken: the position is CLAIMED (R133). -/
def claimTaken (src : Node) (l : LineId) (p : PosId) (m : SlotId) (s : State) : State :=
  let e := entryAt s l
  let x := tget e.positions p
  let s := { s with dir := s.dir.reserve m x.count.toNat }
  let x' : Position := { x with state := .claimed, settledBy := .claim, owner := BitVec.ofNat 4 src.val }
  let s := setEntry s l { e with positions := tset e.positions p x' }
  let s := setLocal s l p LocalPos.empty
  let s := if src = ownNode s then claimWon (posRefOf e p) s else s
  giveNotice (retractSettlements (posRefOf e p) s)

/-- The reservation is refused: the position is DONE with reason OVERRUN, and a LIVE station finds CLAIM_OVERRUN (R53, R133). -/
def claimOverrun (src : Node) (l : LineId) (p : PosId) (s : State) : State :=
  let pos := posRefOf (entryAt s l) p
  let s := settlePosted s l p .claim .overrun
  selfExpel .claimOverrun (claimLost src pos s)

/-- CLAIM (R132, R133). A CLAIM whose record names no master slot fails test 1, since an unknown master cannot pass it (R133;
log 41). -/
def onClaim (h : Header) (b : ClaimBody) (s : State) : State :=
  match findPosition s b.pos with
  | none => claimLost h.src b.pos s
  | some (l, p) =>
    let x := positionOf s l p
    if x.state != .posted then claimLost h.src b.pos s
    else if b.count != x.count || b.master != x.master || b.transport != x.transport then claimLost h.src b.pos s
    else if !liveSetQuorate s then claimLost h.src b.pos s
    else
      match slotOf? x.master with
      | none => claimLost h.src b.pos s
      | some m =>
        if s.dir.reserveTaken m x.count.toNat then claimTaken h.src l p m s
        else claimOverrun h.src l p s

/-- DECLINE (R132); a reason outside its list is ignored (log 11). -/
def onDecline (pos : PosRef) (reason : Byte) (s : State) : State :=
  if declineReasonListed reason then settleFrame pos .decline .declined s else s

/-- UNCLAIMED (R132). -/
def onUnclaimed (pos : PosRef) (s : State) : State := settleFrame pos .unclaimed .unclaimed s

/-- CANCEL: a POSTED position is settled, a CLAIMED one's owner passes it to its job (R134). -/
def onCancel (h : Header) (line position : Byte) (s : State) : State :=
  let pos : PosRef := ⟨byteOf h.src, line, position⟩
  match findPosition s pos with
  | none => s
  | some (l, p) =>
    let x := positionOf s l p
    if x.state = .posted then settlePosted s l p .cancel .cancelled
    else if claimedBy x (ownNode s) then cancelJob pos s
    else s

/-! ## Opening and posting (R125, R126) -/

/-- A REPORT of the duty station (R32, R125, R126). -/
def dutyReport (gateway : Node) (body : List Byte) (s : State) : State :=
  if duty s then request (.report gateway body) s else s

/-- The lowest-numbered free entry (R122). -/
def freeEntryIndex (t : LineTable) : Option LineId := (List.finRange 32).find? (fun l => (tget t.entries l).state == .free)

/-- OPEN (R125). -/
def onOpen (h : Header) (line : Byte) (s : State) : State :=
  let gateway := byteOf h.src
  if 7 < line.toNat then s
  else
    match findLine s.lines gateway line with
    | some l =>
      if (entryAt s l).state = .opened then dutyReport h.src (openResultBody line .alreadyOpen) s
      else dutyReport h.src (openResultBody line .closing) s
    | none =>
      match freeEntryIndex s.lines with
      | none => dutyReport h.src (openResultBody line .tableFull) s
      | some l =>
        dutyReport h.src (openResultBody line .opened)
          (setEntry (freeLine s l) l { LineEntry.zero with state := .opened, gateway := gateway, line := line })

/-- A label's slot at posting, NONE for UNKNOWN_KEY (R126). -/
def slotAtPosting (s : State) (l : Label) : Byte :=
  match s.dir.lookup l with
  | none => 255#8
  | some i => byteOf i

/-- What the posting tests find: the entry to post into, or why not, with the entry's P and D (R126). -/
def postingTest (s : State) (gateway line position : Byte) : Except (RejectReason × BitVec 4 × BitVec 4) LineId :=
  if 7 < line.toNat then .error (.noLine, 0#4, 0#4)
  else
    match findLine s.lines gateway line with
    | none => .error (.noLine, 0#4, 0#4)
    | some l =>
      let e := entryAt s l
      if e.state != .opened then .error (.noLine, e.p, e.d)
      else if position.toNat != e.p.toNat then .error (.sequence, e.p, e.d)
      else if e.p + 1#4 == e.d then .error (.ringFull, e.p, e.d)
      else .ok l

/-- A job is posted: position P takes the record, P moves on, the note is made, the position's two timers start (R124, R126). -/
def postJob (s : State) (l : LineId) (x : Position) (segSize policy : Byte) (card : Option CardRecord) : State :=
  let e := entryAt s l
  let p : PosId := ⟨e.p.toNat, e.p.isLt⟩
  let s := setEntry s l { e with positions := tset e.positions p x, p := e.p + 1#4 }
  giveNotice (setLocal s l p ⟨some ⟨segSize, policy, card, s.wirePlace⟩, .running, .running⟩)

/-- The posting of a job frame (R126). -/
def post (h : Header) (line position : Byte) (x : Position) (segSize policy : Byte) (card : Option CardRecord)
    (s : State) : State :=
  match postingTest s (byteOf h.src) line position with
  | .error (reason, p, d) => dutyReport h.src (rejectBody line position reason p d) s
  | .ok l => postJob s l x segSize policy card

/-- A POSTED position's record (R123, R126). -/
def postedPosition (kind : JobKind) (f : JobFunction) (master transport count : Byte) : Position :=
  ⟨.posted, kind, f, master, transport, count, .none, 0#4, .none⟩

/-- The transport slot at posting: NONE for CHECK, for an absent label, for UNKNOWN_KEY (R123, R126). -/
def transportAtPosting (s : State) (f : JobFunction) (l : Option Label) : Byte :=
  match f, l with
  | .check, _ => 255#8
  | _, none => 255#8
  | _, some l => slotAtPosting s l

/-- JOB (R126); a function outside its list has card count 1 (log 60). -/
def onJob (h : Header) (b : JobBody) (s : State) : State :=
  let f := JobFunction.ofCode b.function
  let x := postedPosition .single f (slotAtPosting s b.master) (transportAtPosting s f b.transport)
    (if f = .check then 0#8 else 1#8)
  post h b.line b.position x 0#8 0#8 (some b.card) s

/-- BATCH (R126). -/
def onBatch (h : Header) (b : BatchBody) (s : State) : State :=
  let f := JobFunction.ofCode b.function
  let x := postedPosition .batch f (slotAtPosting s b.master) (transportAtPosting s f (some b.transport)) b.count
  post h b.line b.position x b.segSize b.policy none s

/-- CARDS goes to the pool of a LIVE station (R147). -/
def onCards (h : Header) (b : CardsBody) (s : State) : State :=
  if isLive s then takeCards ⟨byteOf h.src, b.line, b.position⟩ b.group b.records s else s

/-! ## Completion (R135) -/

/-- A settle request on a position's master slot (R54, R135, R138). -/
def settleUsage (s : State) (x : Position) (k : Nat) : State :=
  match slotOf? x.master with
  | none => s
  | some m => { s with dir := s.dir.settle m x.count.toNat k }

/-- A release request on a position's master slot (R55, R139). -/
def releaseUsage (s : State) (x : Position) : State :=
  match slotOf? x.master with
  | none => s
  | some m => { s with dir := s.dir.release m x.count.toNat }

/-- FINAL: from the position's owner it charges the consumed count and ends the position FINISHED (R135); a status outside its list
is ignored (log 11). -/
def onFinal (h : Header) (b : FinalBody) (s : State) : State :=
  if !jobStatusListed b.status then s
  else
    match findPosition s b.pos with
    | none => s
    | some (l, p) =>
      let e := entryAt s l
      let x := tget e.positions p
      if claimedBy x h.src then
        let s := settleUsage s x b.consumed.toNat
        giveNotice (setEntry s l (dAdvance { e with positions := tset e.positions p (donePosition x x.settledBy .finished) }))
      else s

/-! ## Closing (R136 to R138) -/

/-- The owners of the CLAIMED positions (R136). -/
def ownersOf (e : LineEntry) : StationSet :=
  e.positions.toList.foldl (fun t x => if x.state = .claimed then setAdd t x.owner.toNat else t) 0#8

/-- Every POSTED position of a closing entry becomes DONE with reason CLOSED (R136). -/
def closePositions (e : LineEntry) : Vector Position 16 :=
  tmap (fun x => if x.state = .posted then donePosition x .close .closed else x) e.positions

/-- The positions of an entry that are POSTED. -/
def postedOf (e : LineEntry) : List PosId := (List.finRange 16).filter (fun p => (tget e.positions p).state == .posted)

/-- A CLOSE acts on an OPEN entry (R136). -/
def closeLine (gateway line : Byte) (s : State) : State :=
  match findLine s.lines gateway line with
  | none => s
  | some l =>
    let e := entryAt s l
    if e.state = .opened then
      let owners := ownersOf e
      let s := setEntry s l (dAdvance { e with state := .closing, pendingClear := owners, positions := closePositions e })
      let s := (postedOf e).foldl (fun s p => retractSettlements (posRefOf e p) (setLocal s l p LocalPos.empty)) s
      if owners = 0#8 then freeLine s l
      else if setHas owners (ownNode s).val then tearDown gateway line s
      else s
    else s

/-- CLOSE: from a gateway, or from a station with reason SILENCE (R136); another reason is ignored (log 11). -/
def onClose (h : Header) (b : CloseBody) (s : State) : State :=
  match b with
  | .gateway line => closeLine (byteOf h.src) line s
  | .station gateway line reason => if reason = 1#8 then closeLine gateway line s else s

/-- One position of a CLEARED is settled (R138). -/
def clearPosition (src : Node) (l : LineId) (s : State) (p : PosId) (k : Nat) : State :=
  let e := entryAt s l
  let x := tget e.positions p
  if claimedBy x src then
    setEntry (settleUsage s x k) l { e with positions := tset e.positions p (donePosition x x.settledBy .cleared) }
  else s

/-- One entry of the list (R138). -/
def clearListed (src : Node) (l : LineId) (s : State) (c : ClearedEntry) : State :=
  match indexOf? 16 c.position with
  | none => s
  | some p => clearPosition src l s p c.consumed.toNat

/-- CLEARED (R138); the count byte is passed over, the list is what the body holds (log 50). -/
def onCleared (h : Header) (b : ClearedBody) (s : State) : State :=
  match findLine s.lines b.gateway b.line with
  | none => s
  | some l =>
    if (entryAt s l).state = .closing ∧ setHas (entryAt s l).pendingClear h.src.val = true then
      let s := b.entries.foldl (clearListed h.src l) s
      let s := (List.finRange 16).foldl (fun s p => clearPosition h.src l s p 0) s
      let e := entryAt s l
      let e := dAdvance { e with pendingClear := setDel e.pendingClear h.src.val }
      giveNotice (if e.pendingClear = 0#8 then freeLine s l else setEntry s l e)
    else s

/-! ## Membership (R139) -/

/-- An EXPEL's effect on one position: CLAIMED by the node it becomes LOST and its reservation is released (R139). -/
def losePosition (k : StationId) (l : LineId) (s : State) (p : PosId) : State :=
  let e := entryAt s l
  let x := tget e.positions p
  if x.state = .claimed ∧ x.owner.toNat = k.val then
    setEntry (releaseUsage s x) l { e with positions := tset e.positions p (donePosition x x.settledBy .lost) }
  else s

/-- An EXPEL's effect on one entry (R30, R139). -/
def expelFromLine (k : StationId) (s : State) (l : LineId) : State :=
  if (entryAt s l).state = .free then s
  else
    let s := (List.finRange 16).foldl (losePosition k l) s
    let e := entryAt s l
    let cleared := dAdvance { e with pendingClear := setDel e.pendingClear k.val }
    if e.state = .closing ∧ setHas e.pendingClear k.val = true ∧ cleared.pendingClear = 0#8 then freeLine s l
    else setEntry s l cleared

def expelFromLines (k : StationId) (s : State) : State :=
  giveNotice ((List.finRange 32).foldl (expelFromLine k) s)

/-! ## Timers (R124, R129, R131, R137) -/

/-- The deferral timer of a POSTED position expires (R129). -/
def deferralExpired (l : LineId) (p : PosId) (s : State) : State :=
  let loc := localAt s l p
  if loc.deferral = .running then giveNotice (setLocal s l p { loc with deferral := .expired }) else s

/-- An UNCLAIMED is queued, unless one is already queued for the position (R131). -/
def queueUnclaimed (pos : PosRef) (s : State) : State :=
  if hasFrame s (isUnclaimedFor pos) then s else request (.unclaimed pos) s

/-- The unclaimed deadline of a POSTED position expires: the duty station queues UNCLAIMED, another marks it expired (R131). -/
def unclaimedExpired (l : LineId) (p : PosId) (s : State) : State :=
  let loc := localAt s l p
  if loc.deadline = .running ∧ (positionOf s l p).state = .posted then
    if duty s then queueUnclaimed (posRefOf (entryAt s l) p) (setLocal s l p { loc with deadline := .stopped })
    else setLocal s l p { loc with deadline := .expired }
  else s

/-- An OPEN entry that holds a non-FREE position (R137). -/
def busyOpen (e : LineEntry) : Bool := e.state == .opened && e.positions.toList.any (fun x => x.state != .free)

/-- A CLOSE(SILENCE) for each busy OPEN entry of a gateway, unless one is queued for it (R137). -/
def closeForSilence (g : Node) (s : State) : State :=
  (List.finRange 32).foldl (fun s l =>
    let e := entryAt s l
    if busyOpen e && e.gateway == byteOf g && !hasFrame s (isCloseSilenceFor e.gateway e.line)
    then request (.closeSilence e.gateway e.line) s else s) s

def setWatch (s : State) (g : Node) (t : TimerState) : State :=
  { s with lines := { s.lines with watches := tset s.lines.watches g t } }

/-- A gateway watch expires (R137). -/
def gatewayExpired (g : Node) (s : State) : State :=
  if tget s.lines.watches g = .running then
    if duty s then closeForSilence g (setWatch s g .stopped) else setWatch s g .expired
  else s

/-- A frame from a gateway restarts its watch, clears its mark, and the CLOSE(SILENCE) frames for it are withdrawn (R124, R137). -/
def gatewayHeard (g : Node) (s : State) : State := retract (isCloseSilenceOf (byteOf g)) (setWatch s g .running)

/-- What a station that gains the duty does with the line table's marks (R131, R137, R139): UNCLAIMED by entry and position, then CLOSE
by gateway and entry (log 58). -/
def lineDutyGained (s : State) : State :=
  let s := (List.finRange 32).foldl (fun s l =>
    if (entryAt s l).state = .free then s
    else (List.finRange 16).foldl (fun s p =>
      if (localAt s l p).deadline = .expired ∧ (positionOf s l p).state = .posted
      then queueUnclaimed (posRefOf (entryAt s l) p) s else s) s) s
  (List.finRange 16).foldl (fun s g => if tget s.lines.watches g = .expired then closeForSilence g s else s) s

/-! ## Images (R116, R124) -/

/-- Local line state of a position that an image has overwritten: notes and timers stay where it was POSTED and is POSTED; a posted
position without a note has its deadline running and its deferral expired (R124; log 39). -/
def imagedLocal (before after : Position) (loc : LocalPos) : LocalPos :=
  if after.state = .posted then
    if before.state = .posted ∧ loc.note.isSome then loc
    else ⟨none, .expired, .running⟩
  else LocalPos.empty

/-- A LINES item replaces an entry (R116, R124); another entry that holds the same line stays (log 49). -/
def imageLine (s : State) (l : LineId) (e : LineEntry) : State :=
  let before := entryAt s l
  let locals := tableOf 16 (fun i =>
    match (indexOf? 16 (BitVec.ofNat 8 i) : Option PosId) with
    | none => LocalPos.empty
    | some p => imagedLocal (tget before.positions p) (tget e.positions p) (localAt s l p))
  let s := { s with lines := { s.lines with
    entries := tset s.lines.entries l e, locals := tset s.lines.locals l locals } }
  if e.state = .free then s else setWatch s (nodeOf e.gateway) .running

/-- The table emptied on entry to a state that holds no lines (R140). -/
def emptyLines (s : State) : State := { s with lines := LineTable.empty }

end Sys2Proof.Machine
end

