-- ==== Sys2Proof/Machine/Tamper.lean ====
section
/-! DEFINITION. The tamper monitor (chapter 10): sampling, settling, judging, baseline steps, the maintenance window, and what a
TAMPER erases. -/

namespace Sys2Proof.Machine

/-! ## Channels (R174 to R177) -/

def tripWidth : Channel → Nat
  | .T => 24 | .V => 16 | .L => 8 | .M => 12 | .D => 0 | .C => 0

def windowLow : Channel → Nat
  | .T => 80 | .V => 300 | .L => 0 | .M => 200 | .D => 0 | .C => 0

def windowHigh : Channel → Nat
  | .T => 900 | .V => 700 | .L => 400 | .M => 800 | .D => 0 | .C => 0

def isDigital : Channel → Bool
  | .D | .C => true
  | _ => false

/-- What a sample is recorded as: the reading of an analog channel, 1 for OPEN and 0 for CLOSED (R174, R189). -/
def sampleValue (ch : Channel) (reading : BitVec 10) : Nat :=
  if isDigital ch then (if reading = 0#10 then 0 else 1) else reading.toNat

/-- Out of range: more than the trip width from the baseline, or outside the absolute window (R176). -/
def outOfRange (ch : Channel) (baseline v : Nat) : Bool :=
  baseline + tripWidth ch < v || v + tripWidth ch < baseline || v < windowLow ch || windowHigh ch < v

/-- A sample in SETTLING: the 32nd arms the channel, and an analog one takes its baseline (R175). -/
def settleSample (ch : Channel) (v : Nat) (c : ChannelRecord) : ChannelRecord :=
  let c := { c with last := v, settleCount := c.settleCount + 1,
                    settleSum := if isDigital ch then 0 else c.settleSum + v }
  if c.settleCount < Config.settleSamples then c
  else if isDigital ch then { c with state := .armed, settleCount := 0, settleSum := 0 }
  else { c with
    state := .armed
    baseline := c.settleSum / Config.settleSamples
    trip := 0
    stepCount := 0
    stepSum := 0
    settleCount := 0
    settleSum := 0 }

/-- The baseline step: after 64 judged samples it moves one unit toward their mean (R177). -/
def stepBaseline (v : Nat) (c : ChannelRecord) : ChannelRecord :=
  let count := c.stepCount + 1
  let sum := c.stepSum + v
  if count < Config.stepSamples then { c with stepCount := count, stepSum := sum }
  else
    let mean := sum / Config.stepSamples
    { c with
      stepCount := 0
      stepSum := 0
      baseline := if c.baseline < mean then c.baseline + 1 else if mean < c.baseline then c.baseline - 1 else c.baseline }

/-- An analog channel in ARMED judges a sample, then steps (R176, R177): the channel after it, and whether it declares a
TAMPER. -/
def judgeAnalog (ch : Channel) (v : Nat) (c : ChannelRecord) : ChannelRecord × Bool :=
  let trip := if outOfRange ch c.baseline v then c.trip + 1 else 0
  let tampered := Config.tripSamples ≤ trip
  (stepBaseline v { c with last := v, trip := if tampered then 0 else trip }, tampered)

/-- A channel's sample: the channel after it, and whether it declares a TAMPER (R174 to R177). -/
def takeSample (ch : Channel) (v : Nat) (c : ChannelRecord) : ChannelRecord × Bool :=
  match c.state with
  | .settling => (settleSample ch v c, false)
  | .disarmed => ({ c with last := v }, false)
  | .armed => if isDigital ch then ({ c with last := v }, v != 0) else judgeAnalog ch v c

/-- Entry to SETTLING: the sample count, its sum and the step counters start from 0 (R175, R177). -/
def enterSettling (c : ChannelRecord) : ChannelRecord :=
  { c with state := .settling, settleCount := 0, settleSum := 0, stepCount := 0, stepSum := 0 }

/-- DISARMED, the trip count 0 (R178). -/
def disarm (c : ChannelRecord) : ChannelRecord := { c with state := .disarmed, trip := 0 }

def channelOf (t : Tamper) (ch : Channel) : ChannelRecord := tget t.channels (channelIndex ch)

def setChannel (t : Tamper) (ch : Channel) (c : ChannelRecord) : Tamper :=
  { t with channels := tset t.channels (channelIndex ch) c }

/-! ## The maintenance window (R178, R179) -/

/-- A WINDOW_OPEN applied (R178). -/
def openWindow (seconds : Nat) (t : Tamper) : Tamper :=
  match t.window with
  | some _ => { t with window := some seconds }
  | none =>
    let t := setChannel t .D (disarm (channelOf t .D))
    let t := setChannel t .L (disarm (channelOf t .L))
    { t with window := some seconds }

/-- An OPEN window becomes CLOSED, D ARMED, L SETTLING: a close without its reading (R179). -/
def shutWindow (t : Tamper) : Tamper :=
  match t.window with
  | none => t
  | some _ =>
    let t := setChannel t .D { channelOf t .D with state := .armed }
    let t := setChannel t .L (enterSettling (channelOf t .L))
    { t with window := none }

/-! ## Erasure and zeroisation (R182) -/

/-- Every block's state that zeroisation erases, apart from the membership unit's and the link interface's (R61, R88, R108, R121,
R140, R155, R172, R173, R179, R182). -/
def eraseBlocks (s : State) : State :=
  let s := abandonEngine (dropAllJobs (emptyLines s))
  { s with
    dir := Directory.erased
    rounds := RoundControl.empty
    cust := Custody.empty
    catchUp := { s.catchUp with
      phase := .idle, source := none, pullIndex := 0, awaited := [], pullTimer := false, verifyTimer := false, failures := 0,
      joinFailure := none, serve := [] }
    tamper := shutWindow s.tamper }

/-- The membership unit's state that the start events empty (R25, R41). -/
def emptyMembership (m : Membership) : Membership :=
  { m with
    cause := none
    live := 0#8
    peers := Vector.replicate 8 none
    heard := Vector.replicate 8 none
    windowOpen := false
    watches := Vector.replicate 8 .stopped
    leaving := false
    restartOutstanding := false
    yieldMark := false
    retainedZeroised := false }

/-- What the station does on the bus when its queue is erased: a frame in transmission is cut off; a register's candidate goes on
contending (R20; log 30). -/
def busAfterErasure : Bus → Bus
  | .contending .alarm => .contending .alarm
  | .contending .presence => .contending .presence
  | _ => .idle

/-- The link interface at zeroisation (R20). -/
def zeroiseLink (own : Option ZeroCause) (l : Link) : Link :=
  let l := { l with bus := busAfterErasure l.bus }
  match own with
  | none => l
  | some c => loadAlarm l c

/-- Zeroisation: everything of R182 is erased, the cause record takes the cause, the alarm register is loaded for an own cause, the
state becomes ZEROISED (R25, R182, R183). -/
def zeroise (cause : CauseRecord) (own : Option ZeroCause) (s : State) : State :=
  let s := eraseBlocks (emptyQueue s)
  { s with
    link := zeroiseLink own s.link
    memb := { emptyMembership s.memb with state := .zeroised }
    tamper := { s.tamper with cause := cause } }

/-- A TAMPER according to the station state (R180). -/
def declareTamper (ch : Channel) (s : State) : State :=
  match s.memb.state with
  | .blank | .listening | .catchup | .live | .detached => zeroise (.channel ch) (some (.channel ch)) s
  | .retention =>
    let s := eraseBlocks s
    { s with
      tamper := { s.tamper with cause := .channel ch, retentionTrip := true }
      memb := { s.memb with retainedZeroised := true } }
  | .zeroised | .strapFault => s

/-- The close reading of D (R179). -/
def closeReading (s : State) : State :=
  let v := if s.inputs.pins.doorOpen then 1 else 0
  let r := takeSample .D v (channelOf s.tamper .D)
  let s := { s with tamper := setChannel s.tamper .D r.1 }
  if r.2 then declareTamper .D s else s

/-- The window closes with its close reading, if it is OPEN (R179). -/
def closeWindow (s : State) : State :=
  match s.tamper.window with
  | none => s
  | some _ => closeReading { s with tamper := shutWindow s.tamper }

end Sys2Proof.Machine
end

