-- ==== Sys2Proof/Machine/Starts.lean ====
section
/-! DEFINITION. The start events and the entries to station states that empty blocks: cold start, warm start, entry to
RETENTION, CLEAR, LISTENING, DETACHED (R20, R23 to R26, R38, R41, R61, R87, R88, R99, R108, R121, R140, R155, R173,
R184 to R190). -/

namespace Sys2Proof.Machine

/-- The pulling side out of CATCHUP: IDLE, no source, pull index 0 (log 57), timers stopped; its failure count stays (R109; log
32). -/
def idleCatchUp (c : CatchUp) : CatchUp :=
  { c with phase := .idle, source := none, pullIndex := 0, awaited := [], pullTimer := false, verifyTimer := false,
           joinFailure := none }

/-- Entry to LISTENING, DETACHED or another state that holds no rounds, lines or assemblies: they are emptied and every reserved
count is 0 (R61, R87, R104, R140). -/
def leaveCabinetState (s : State) : State :=
  let s := emptyLines s
  { s with
    dir := s.dir.dropReserved
    rounds := { s.rounds with list := [] }
    cust := { s.cust with areas := Vector.replicate 2 none }
    catchUp := { idleCatchUp s.catchUp with serve := [] } }

/-- Entry to LISTENING opens a listening window and empties the live set and the listening record (R38). -/
def enterListening (s : State) : State :=
  let s := leaveCabinetState s
  { s with memb := { s.memb with
      state := .listening, cause := none, live := 0#8, heard := Vector.replicate 8 none, windowOpen := true,
      watches := Vector.replicate 8 .stopped } }

/-- Entry to DETACHED (R26). -/
def enterDetached (c : DetachedCause) (s : State) : State :=
  let s := leaveCabinetState s
  { s with memb := { s.memb with
      state := .detached, cause := some c, live := 0#8, windowOpen := false, watches := Vector.replicate 8 .stopped } }

/-- The volatile blocks at a start event: link, rounds, custody, catch-up, lines, pool, engine, queries (R20, R88, R108, R121, R140,
R155, R173, R188). A station that is contending drops out of the contention (log 42). -/
def clearVolatile (s : State) : State :=
  let s := abandonEngine (dropAllJobs (emptyLines (emptyQueue s)))
  { s with
    link := { s.link with presence := ⟨false, false⟩, alarm := none, bus := .idle }
    rounds := RoundControl.empty
    cust := { s.cust with areas := Vector.replicate 2 none }
    catchUp := { idleCatchUp s.catchUp with failures := 0, serve := [] }
    rep := { s.rep with queries := [] } }

/-- The seven counters set to 0 (R190). -/
def clearCounters (s : State) : State :=
  { s with
    link := { s.link with receiveErrors := 0#16, misplaced := 0#16, nonMember := 0#16 }
    engine := { s.engine with undelivered := 0#16, preempted := 0#16 }
    catchUp := { s.catchUp with attempts := 0#16 }
    rep := { s.rep with dropped := 0#16 } }

/-- Presence loading starts and the register is loaded, unless in STRAP_FAULT (R27, R41). -/
def startPresence (s : State) : State :=
  if s.memb.state = .strapFault then { s with memb := { s.memb with presenceLoading := false } }
  else { s with memb := { s.memb with presenceLoading := true }, link := loadPresence s.link }

/-- Cold start: the straps are sampled and every block takes its cold-start values (R23 and the tables of start events). -/
def coldStart (s : State) : State :=
  let s := clearCounters (clearVolatile s)
  let straps := strapsOf s.inputs.pins
  startPresence { s with
    inputs := { s.inputs with powerFail := false }
    straps := straps
    memb := { emptyMembership s.memb with state := if straps.valid then .blank else .strapFault }
    dir := Directory.erased
    cust := Custody.empty
    tamper := ⟨Vector.replicate 6 ChannelRecord.zero, none, .none, false, true⟩ }

/-- The state a warm start enters (R23). -/
def warmState (straps : Straps) (d : Directory) : StationState :=
  if straps.valid then (if d.key.isSome then .listening else .blank) else .strapFault

/-- At the end of a warm start that a recorded RESTART or YIELD has caused, DONE is reported with the state entered; the record is
emptied (R99). -/
def reportDirectOrder (s : State) : State :=
  match s.cust.record with
  | none => s
  | some r =>
    let s := { s with cust := { s.cust with record := none } }
    match s.memb.state with
    | .listening | .blank =>
      request (.custodyReport r.gateway
        (orderResultBody r.tag false 255#8 r.kind none .done s.memb.state.code 0#16 0#32)) s
    | _ => s

/-- Every block at its warm-start values, the straps sampled (R23); `keepYield` for the warm start a YIELD causes (R26); any other
clears the mark, that of an earlier YIELD too (log 44). -/
def warmValues (keepYield : Bool) (s : State) : State :=
  let s := clearCounters (clearVolatile s)
  let straps := strapsOf s.inputs.pins
  let dir := if straps.valid then s.dir.dropReserved else Directory.erased
  let state := warmState straps s.dir
  startPresence { s with
    inputs := { s.inputs with powerFail := false }
    straps := straps
    memb := { emptyMembership s.memb with
      state := state, windowOpen := state == .listening, yieldMark := keepYield && s.memb.yieldMark }
    dir := dir }

/-- Warm start: the values, then the window's close, then the direct order's report (R23, R99, R179). -/
def warmStart (keepYield : Bool) (s : State) : State := reportDirectOrder (closeWindow (warmValues keepYield s))

/-- Entry to RETENTION (R25, R41, R184); the window closes after the entry (R179). -/
def enterRetention (s : State) : State :=
  let zeroised := s.memb.state == .zeroised
  let s := clearVolatile s
  closeWindow { s with
    link := { s.link with slotDriven := false }
    memb := { emptyMembership s.memb with state := .retention, retainedZeroised := zeroised, presenceLoading := false }
    dir := s.dir.dropReserved
    cust := Custody.empty }

/-- The return from RETENTION to ZEROISED: a breach of the station's own while retained loads its ZERO (R25, R185). It is no warm
start, so the station counters stay (log 67). -/
def returnZeroised (s : State) : State :=
  let s := { s with
    inputs := { s.inputs with powerFail := false }
    memb := { s.memb with state := .zeroised, retainedZeroised := false } }
  let s := startPresence s
  if s.tamper.retentionTrip then
    let s := { s with tamper := { s.tamper with retentionTrip := false } }
    match s.tamper.cause with
    | .channel ch => { s with link := loadAlarm s.link (.channel ch) }
    | _ => s
  else s

/-- CLEAR asserted while ZEROISED: BLANK, everything else kept as the tables of start events give (R24, R41). -/
def clearToBlank (s : State) : State :=
  { s with memb := { s.memb with
      state := .blank, cause := none, live := 0#8, heard := Vector.replicate 8 none, windowOpen := false,
      watches := Vector.replicate 8 .stopped, leaving := false, restartOutstanding := false, yieldMark := false,
      retainedZeroised := false } }

end Sys2Proof.Machine
end

