-- ==== Sys2Proof/Machine/Rounds.lean ====
section
/-! DEFINITION. The round controller (chapter 4): the open round list, validation, voting, counting, COMMIT and ABANDON, the
outcomes of custody items. -/

namespace Sys2Proof.Machine

/-! ## Kinds (R69, R89) -/

/-- The kinds whose target is the cabinet, slot 255 (R69, R89). -/
def cabinetKind (kind : Byte) : Bool := [8, 9, 10, 11, 12].contains kind.toNat

/-- The approvals an order or a round of a kind requires (R69, R89): an ACTIVATE of a CUSTODIAN slot requires none under open
custody (R93). -/
def approvalsRequired (d : Directory) (kind slot mask : Byte) : Nat :=
  match kind.toNat with
  | 2 => if (slotOf? slot).any (fun i => (d.slot i).cls == .custodian) && d.openCustody then 0 else 2
  | 4 => 2
  | 5 => 1
  | 6 => 2
  | 7 => if mask = 0#8 then 1 else 2
  | 8 => 2
  | 9 => 1
  | 10 => 1
  | 11 => 2
  | 12 => 2
  | _ => 0

/-- Two approvals name different custodian slots (R71, R90). -/
def approvalsDistinct : List Approval → Bool
  | [a, b] => a.slot != b.slot
  | _ => true

/-- The from-states of R69. -/
def fromState (kind : ChangeKind) (st : SlotState) : Bool :=
  match kind, st with
  | .importKey, .empty => true
  | .activate, .staged => true
  | .suspend, .active => true
  | .resume, .suspended => true
  | .retire, .active => true
  | .retire, .suspended => true
  | .destroy, .staged => true
  | .destroy, .retired => true
  | .edit, .empty => false
  | .edit, _ => true
  | _, _ => false

def isWindowKind : ChangeKind → Bool
  | .windowOpen | .windowClose => true
  | _ => false

/-! ## The open round list (R65, R116) -/

/-- The filled places close up in their order (R116). -/
def closeUp (l : List (Option RoundEntry)) : List (Option RoundEntry) := (openList l).map some

/-- The list without the empty places after its last filled one. -/
def trimPlaces (l : List (Option RoundEntry)) : List (Option RoundEntry) := (l.reverse.dropWhile (·.isNone)).reverse

/-- A round enters at the end of the list; in a ROUNDS burst after the last filled position, the filled positions closing up first
when position 3 is filled (R66, R116). -/
def addRound (l : List (Option RoundEntry)) (e : RoundEntry) : List (Option RoundEntry) :=
  let l := trimPlaces l
  (if l.length < Config.openRounds then l else closeUp l) ++ [some e]

/-- The rounds that match leave the list; in a ROUNDS burst their places stay empty (R116). -/
def removeRounds (burst : Bool) (p : Round → Bool) (l : List (Option RoundEntry)) : List (Option RoundEntry) :=
  if burst then l.map (fun x => x.bind (fun e => if p e.round then none else some e))
  else l.filter (fun x => match x with | none => true | some e => !p e.round)

/-- The round id: proposer node and number (R65). -/
def hasId (proposer : Node) (number : Byte) (r : Round) : Bool := r.proposer.val == proposer.val && r.number == number

/-- The round of an id in the list. -/
def findRound (s : State) (proposer : Node) (number : Byte) : Option RoundEntry :=
  (openEntries s).find? (fun e => hasId proposer number e.round)

/-- The state with another list. -/
def setRounds (s : State) (l : List (Option RoundEntry)) : State := { s with rounds := { s.rounds with list := l } }

/-- The open-round notice: given for a slot 0 to 63 that has gained or lost a round since `before`, for slot 255 never (R85,
R107). -/
def openRoundNotice (before s : State) : State := if openRoundsDiffer before s then giveNotice s else s

/-- Another open round list, with the notices that the difference gives (R85). -/
def changeRounds (s : State) (l : List (Option RoundEntry)) : State := openRoundNotice s (setRounds s l)

/-- The round of an id leaves the list (R80, R84, R85). -/
def dropRound (proposer : Node) (number : Byte) (s : State) : State :=
  changeRounds s (removeRounds (roundsBurst s) (hasId proposer number) s.rounds.list)

/-- The entry of an id with another value. -/
def modRound (s : State) (proposer : Node) (number : Byte) (f : RoundEntry → RoundEntry) : State :=
  setRounds s (s.rounds.list.map (fun x => x.map (fun e => if hasId proposer number e.round then f e else e)))

/-- The state with another own round. -/
def setOwn (s : State) (o : OwnRound) : State := { s with rounds := { s.rounds with own := o } }

/-! ## Validation (R70, R71) -/

/-- The functions and limit a slot would have after an EDIT (R82). -/
def editedFunctions (x : Slot) (r : Round) : Byte := if maskFunctions r.mask then r.functions else x.functions
def editedLimit (x : Slot) (r : Round) : Word := if maskLimit r.mask then r.limit else x.limit

/-- Check 6: the record the change would leave is not class consistent, a functions bit of no function among the reasons (log
63). -/
def classFails (d : Directory) (kind : ChangeKind) (r : Round) : Bool :=
  match kind with
  | .importKey =>
    match KeyClass.ofCode? r.cls with
    | none => true
    | some c => !classConsistent c r.functions r.limit
  | .edit =>
    match slotOf? r.slot with
    | none => false
    | some i => !classConsistent (d.slot i).cls (editedFunctions (d.slot i) r) (editedLimit (d.slot i) r)
  | _ => false

/-- Check 8: the recovered key's check value differs from the body's. -/
def bodyFails (d : Directory) (r : Round) : Bool :=
  match d.key, r.body with
  | some k, some b => checkOf (recovered k.key b.material) != b.check
  | _, _ => true

/-- Check 9: used + reserved exceeds the new effective limit, used taken as 0 under RESET-USED. -/
def limitFails (d : Directory) (r : Round) : Bool :=
  match slotOf? r.slot with
  | none => false
  | some i =>
    let used := if maskResetUsed r.mask then 0 else (d.usageOf i).used.toNat
    effective r.limit < used + (d.usageOf i).reserved.toNat

/-- A round that takes, or may take, a custodian slot out of ACTIVE. -/
def takesCustodian (r : Round) : Bool := [3, 5, 6].contains r.kind.toNat

/-- The ACTIVE CUSTODIAN slots that would remain: not the round's own, and none with a SUSPEND, RETIRE or DESTROY round in the list
(R70 check 11). -/
def remainingCustodians (s : State) (slot : SlotId) : Nat :=
  ((List.finRange 64).filter (fun i =>
    s.dir.activeWith i .custodian && i != slot
      && !(openEntries s).any (fun e => takesCustodian e.round && e.round.slot == byteOf i))).length

/-- Check 11: RETIRE or DESTROY of a CUSTODIAN slot that would leave fewer than 2. -/
def floorFails (s : State) (kind : ChangeKind) (r : Round) : Bool :=
  match kind, slotOf? r.slot with
  | .retire, some i | .destroy, some i => (s.dir.slot i).cls == .custodian && remainingCustodians s i < 2
  | _, _ => false

/-- The message of a round's approvals: bound to the expected version, or to the commit sequence for a cabinet-wide kind (R71,
R92). -/
def roundMessage (d : Directory) (r : Round) : List Byte :=
  orderMessage r.kind 255#8 r.slot r.mask r.functions r.limit r.window
    (if r.slot = 255#8 then d.seq else r.expected.setWidth 32)

/-- Check 12 (R71). -/
def approvalsFail (d : Directory) (r : Round) : Bool :=
  r.approvals.length < approvalsRequired d r.kind r.slot r.mask || !approvalsDistinct r.approvals
    || !r.approvals.all (fun a => d.approvalValid a (roundMessage d r))

/-- Check 2: body-follows against IMPORT, slot 255 against the window kinds; a slot from 64 to 254, an IMPORT's class and an EDIT's
mask bit outside their lists count as form too (section 11.5; log 11). -/
def roundFormFails (kind : ChangeKind) (r : Round) : Bool :=
  (kind == .importKey) != r.body.isSome
    || (kind == .importKey && (KeyClass.ofCode? r.cls).isNone)
    || (if isWindowKind kind then r.slot != 255#8 else (slotOf? r.slot).isNone)
    || (kind == .edit && !maskListed r.mask)

/-- Check 3: the slot's state is not a from-state. -/
def transitionFails (d : Directory) (kind : ChangeKind) (r : Round) : Bool :=
  match slotOf? r.slot with
  | none => false
  | some i => !fromState kind (d.slot i).state

/-- Check 4: versions. -/
def versionFails (d : Directory) (r : Round) : Bool :=
  match slotOf? r.slot with
  | none => r.expected != 0#16
  | some i => r.expected != (d.slot i).version || (d.slot i).version.toNat == Config.maxHalf

/-- Validation: the first check that fails, in the order of R70. -/
def validate (s : State) (r : Round) : Option RefuseReason :=
  if s.dir.seq.toNat = Config.maxCount then some .sequenceEnd
  else
    match ChangeKind.ofCode? r.kind with
    | none => some .form
    | some kind =>
      if roundFormFails kind r then some .form
      else if transitionFails s.dir kind r then some .transition
      else if versionFails s.dir r then some .version
      else if kind == .importKey && (r.label.issuer == 0#24 || (s.dir.lookup r.label).isSome) then some .label
      else if classFails s.dir kind r then some .cls
      else if kind == .windowOpen && (r.window.toNat == 0 || 600 < r.window.toNat) then some .value
      else if kind == .importKey && bodyFails s.dir r then some .body
      else if kind == .edit && maskLimit r.mask && limitFails s.dir r then some .limit
      else if kind == .destroy && (slotOf? r.slot).any (fun i => (s.dir.usageOf i).reserved != 0#32) then some .inUse
      else if floorFails s kind r then some .custodianFloor
      else if approvalsFail s.dir r then some .approval
      else none

/-! ## Outcomes of the custody queue (R86) -/

/-- The round id a report carries: the own round's, when a PROPOSE was queued (R86). -/
def ownRoundId (s : State) : Option (Byte × Byte) :=
  if s.rounds.own.proposeQueued then some (byteOf (self s), s.rounds.own.number) else none

/-- An area that stands QUEUED for an IMPORT item is freed when the item's outcome is reached (R104). -/
def freeQueuedArea (item : CustodyItem) (s : State) : State :=
  if item.byAssembly then
    { s with cust := { s.cust with
        areas := tmap (fun a => match a with
          | some x => if x.id = item.tag ∧ x.phase = .queued then none else some x
          | none => none) s.cust.areas } }
  else s

/-- The report of an item's outcome (R86). -/
def outcomeReport (item : CustodyItem) (roundId : Option (Byte × Byte)) (o : OrderOutcome) (detail : Byte) (version : Half)
    (seq : Word) : TxFrame :=
  .roundReport item.origin (orderResultBody item.tag item.byAssembly item.slot item.kind.code roundId o detail version seq)

/-- The head item ends with an outcome: it is reported and leaves the queue, the custody unit is told, the next item moves to the
head (R86). The own round is then HELD or NONE according to the queue (R63). -/
def endItem (o : OrderOutcome) (detail : Byte) (version : Half) (seq : Word) (s : State) : State :=
  match s.rounds.queue with
  | [] => setOwn s OwnRound.empty
  | item :: rest =>
    let s := request (outcomeReport item (ownRoundId s) o detail version seq) s
    let own := { OwnRound.empty with phase := if rest.isEmpty then .none else .held }
    freeQueuedArea item { s with rounds := { s.rounds with queue := rest, own := own } }

/-- An outcome with no version and no sequence (R189). -/
def endPlain (o : OrderOutcome) (detail : Byte) (s : State) : State := endItem o detail 0#16 0#32 s

/-! ## Voting and counting (R72 to R75) -/

/-- The slot version a COMMIT carries for a round: expected plus one for a slot kind, the expected for a probe, 0 for the window
kinds (R80). As a number, since versions do not wrap (R47; log 21). R80 gives none for a kind outside its list: the model takes the
expected version itself, as for a probe (log 69). An EDIT whose mask holds unlisted bits alone is no probe (log 69). -/
def resultingVersion (r : Round) : Nat :=
  match ChangeKind.ofCode? r.kind with
  | some .windowOpen | some .windowClose => 0
  | some .edit => if r.mask = 0#8 then r.expected.toNat else r.expected.toNat + 1
  | some _ => r.expected.toNat + 1
  | none => r.expected.toNat

/-- The round of the own id. -/
def ownEntry (s : State) : Option RoundEntry := findRound s (ownNode s) s.rounds.own.number

/-- The decision test (R75). A COMMIT carries version 0 where the list lacks the own round, which only a second node of the own address
can bring about (logs 7 and 69). -/
def decisionTest (s : State) : State :=
  let o := s.rounds.own
  if o.phase != .counting then s
  else if quorum s ≤ setCount o.accepts && !s.memb.leaving then
    let version := match ownEntry s with | none => 0 | some e => resultingVersion e.round
    request (.commit o.number (nextSeq s.dir.seq) (BitVec.ofNat 16 version))
      (setOwn s { o with phase := .decided, outcome := some (.done, 0#8) })
  else if setCount o.accepts + setCount (o.eligible &&& ~~~ o.voted) < quorum s then
    request (.abandon o.number .refused)
      (setOwn s { o with phase := .decided, outcome := some (.refused, o.firstRefusal) })
  else s

/-- The proposer's entry to VOTING: the eligible set is fixed, and it counts itself or queues ABANDON(STALE) (R73). -/
def proposerEntry (r : Round) (s : State) : State :=
  let o := { s.rounds.own with
    eligible := setDel s.memb.live (self s).val, accepts := 0#8, voted := 0#8, firstRefusal := 0#8 }
  match validate s r with
  | none => setOwn s { o with phase := .counting, accepts := setAdd 0#8 (self s).val }
  | some reason =>
    request (.abandon o.number .stale) (setOwn s { o with phase := .decided, outcome := some (.stale, reason.code) })

/-- A voter that is LIVE and not leaving validates the round and queues one vote, marking it (R72). -/
def castVote (r : Round) (s : State) : State :=
  if isLive s && !s.memb.leaving then
    let proposer : Node := ⟨r.proposer.val, by omega⟩
    match validate s r with
    | none =>
      request (.accept (byteOf r.proposer) r.number)
        (modRound s proposer r.number (fun e => { e with mark := .accepted }))
    | some reason =>
      request (.refuse (byteOf r.proposer) r.number reason.code)
        (modRound s proposer r.number (fun e => { e with mark := .refused }))
  else s

/-- A round enters VOTING: the vote begins (R72, R73). A round of the station's own that is not its own round's any more gets no
vote from it (log 19). -/
def beginVote (r : Round) (s : State) : State :=
  if r.proposer = self s then
    match s.rounds.own.phase with
    | .proposed | .bodyOut => if s.rounds.own.number = r.number then proposerEntry r s else s
    | _ => s
  else castVote r s

/-! ## PROPOSE (R66, R67) -/

/-- A label that an IMPORT cannot take: a non-EMPTY slot or an IMPORT round in the list carries it (R64, R66). -/
def labelTaken (s : State) (l : Label) : Bool :=
  (List.finRange 64).any (s.dir.carries l)
    || (openEntries s).any (fun e => e.round.kind == ChangeKind.importKey.code && e.round.label == l)

/-- Why a proposal is, or would be, unusable under items 2 to 4 of R66: CONFLICT or ROUNDS_FULL, in the order R64 gives for the
admission check, which R67 does not give for a PROPOSE already queued (log 65). -/
def proposalClash (s : State) (slot kind : Byte) (l : Label) : Option OrderOutcome :=
  if frozenSlot s slot then some .conflict
  else if kind == ChangeKind.importKey.code && labelTaken s l then some .conflict
  else if Config.openRounds ≤ (openEntries s).length then some .roundsFull
  else none

/-- The round record a PROPOSE makes (R65, R66). -/
def proposedRound (proposer : StationId) (b : ProposeBody) : Round where
  proposer := proposer
  number := b.number
  slot := b.slot
  kind := b.kind
  mask := b.mask
  label := b.label
  cls := b.cls
  functions := b.functions
  limit := b.limit
  window := b.window
  approvals := b.approvals.entries
  expected := b.expected
  phase := if b.bodyFollows then .awaitingBody else .voting
  body := none

/-- The own PROPOSE has been delivered and ignored: an outcome, or back to HELD where item 5 of R66 stands alone (R67; log 65). -/
def ownProposeIgnored (clash : Option OrderOutcome) (s : State) : State :=
  if s.rounds.own.phase = .proposed then
    match clash with
    | some o => endPlain o 0#8 s
    | none => setOwn s { s.rounds.own with phase := .held }
  else s

/-- Another station's proposal has made the own PROPOSE unusable: its withdrawal is asked for, and its outcome follows when that is
taken (R67). -/
def withdrawForClash (s : State) : State :=
  if s.rounds.own.phase = .proposed then
    match s.rounds.queue with
    | [] => s
    | item :: _ =>
      match proposalClash s item.slot item.kind.code item.label with
      | none => s
      | some o =>
        let s := retract isPropose s
        if hasFrame s isPropose then
          setOwn s { s.rounds.own with onWithdrawn := if contendingAge s.link = none then s.rounds.own.onWithdrawn else some o }
        else endPlain o 0#8 s
  else s

/-- The withdrawal of the own PROPOSE has been taken at the end of an arbitration (R18, R67). -/
def proposeWithdrawn (s : State) : State :=
  if s.rounds.own.phase = .proposed then
    match s.rounds.own.onWithdrawn with
    | some o => endPlain o 0#8 s
    | none => setOwn s { s.rounds.own with phase := .held }
  else s

/-- The own PROPOSE has entered the list: the deadline starts, and the BODY is queued if one follows (R67, R76). -/
def ownProposeEntered (b : ProposeBody) (s : State) : State :=
  if s.rounds.own.phase = .proposed ∧ s.rounds.own.number = b.number then
    let s := setOwn s { s.rounds.own with deadline := true }
    if b.bodyFollows then
      let s := setOwn s { s.rounds.own with phase := .bodyOut }
      match s.rounds.queue.head?.bind (·.material) with
      | some k => request (.roundBody b.number k.material k.check) s
      | none => s
    else s
  else s

/-- PROPOSE (R66, R67): the vote is queued before the own PROPOSE is withdrawn (section 4.9, step 2); an approval count outside its
list leaves it ignored (log 11). -/
def onPropose (h : Header) (b : ProposeBody) (s : State) : State :=
  match stationOf? s h.src with
  | none => s
  | some proposer =>
    if 2 < b.approvals.count.toNat then s
    else
      let own := proposer == self s
      let held := (openEntries s).any (fun e => e.round.proposer == proposer)
      let clash := if held then some .conflict else proposalClash s b.slot b.kind b.label
      if clash.isSome || !liveSetQuorate s then (if own then ownProposeIgnored clash s else s)
      else
        let r := proposedRound proposer b
        let s := changeRounds s (addRound s.rounds.list ⟨r, .none⟩)
        let s := if own then ownProposeEntered b s else s
        let s := if b.bodyFollows then s else beginVote r s
        if own then s else withdrawForClash s

/-! ## BODY and the votes (R68, R74) -/

/-- BODY: the material joins its round, which enters VOTING (R68), also where the proposer's deadline has passed: then its own round
stays as decided (log 55). -/
def onBody (h : Header) (number : Byte) (material : Key) (check : Check) (s : State) : State :=
  match findRound s h.src number with
  | none => s
  | some e =>
    if e.round.phase = .awaitingBody then
      let r := { e.round with phase := .voting, body := some ⟨material, check⟩ }
      beginVote r (modRound s h.src number (fun e => { e with round := r }))
    else s

/-- The proposer acts on a vote: its own round COUNTING, the vote for it, the source eligible and not yet heard (R74). -/
def voteCounts (s : State) (src : Node) (proposer number : Byte) : Bool :=
  let o := s.rounds.own
  o.phase == .counting && proposer == byteOf (ownNode s) && number == o.number
    && setHas o.eligible src.val && !setHas o.voted src.val

/-- ACCEPT (R74). -/
def onAccept (h : Header) (proposer number : Byte) (s : State) : State :=
  if voteCounts s h.src proposer number then
    let o := s.rounds.own
    decisionTest (setOwn s { o with accepts := setAdd o.accepts h.src.val, voted := setAdd o.voted h.src.val })
  else s

/-- REFUSE (R74); a reason outside its list is ignored (log 11), BAD_APPROVAL 13 among them (log 70). -/
def onRefuse (h : Header) (proposer number reason : Byte) (s : State) : State :=
  if voteCounts s h.src proposer number && refuseReasonListed reason then
    let o := s.rounds.own
    decisionTest (setOwn s { o with
      voted := setAdd o.voted h.src.val
      firstRefusal := if o.firstRefusal = 0#8 then reason else o.firstRefusal })
  else s

/-- The own BODY that is still queued or pending is withdrawn (R68). -/
def withdrawBody (s : State) : State := retract isRoundBody s

/-- The proposer's deadline expires (R76). -/
def roundDeadline (s : State) : State :=
  let o := s.rounds.own
  if o.deadline then
    let s := setOwn s { o with deadline := false }
    if o.phase = .bodyOut ∨ o.phase = .counting then
      let s := setOwn s { o with deadline := false, phase := .decided, outcome := some (.timeout, 0#8) }
      withdrawBody (request (.abandon o.number .timeout) s)
    else s
  else s

/-! ## Application (R80 to R83) -/

/-- A slot record after a committed change of a kind, its version and last change apart (R81, R82). An IMPORT that no validation has
seen may hold no body or a class outside its list: zero material, class MASTER (log 47). -/
def changedSlot (kind : ChangeKind) (r : Round) (x : Slot) : Slot :=
  match kind with
  | .importKey =>
    let b := r.body.getD ⟨0#256, 0#24⟩
    { x with
      state := .staged
      cls := (KeyClass.ofCode? r.cls).getD .master
      label := r.label
      functions := r.functions
      limit := r.limit
      material := b.material
      check := b.check }
  | .activate | .resume => { x with state := .active }
  | .suspend => { x with state := .suspended }
  | .retire => { x with state := .retired }
  | .destroy => { Slot.zero with version := x.version }
  | .edit => { x with functions := editedFunctions x r, limit := editedLimit x r }
  | .windowOpen | .windowClose => x

/-- The version rises by one and the last change is the round id, zero after a DESTROY (R47, R80). -/
def stampSlot (kind : ChangeKind) (r : Round) (x : Slot) : Slot :=
  let x := { x with version := x.version + 1#16 }
  if kind = .destroy then x else { x with lastProposer := byteOf r.proposer, lastNumber := r.number }

/-- The usage entry after an EDIT: RESET-USED, then LIMIT (R56, R82). -/
def editedUsage (r : Round) (u : Usage) : Usage :=
  let u := if maskResetUsed r.mask then { u with used := 0#32, exhausted := false } else u
  if maskLimit r.mask then
    { u with exhausted :=
        if u.used.toNat < effective r.limit then false else if u.used.toNat = effective r.limit then true else u.exhausted }
  else u

/-- The usage entry after a committed change (R81, R82). -/
def changedUsage (kind : ChangeKind) (r : Round) (u : Usage) : Usage :=
  match kind with
  | .importKey | .destroy => Usage.zero
  | .edit => editedUsage r u
  | _ => u

/-- A probe: an EDIT with an empty mask (R82); an unlisted bit alone makes it none (log 69). -/
def isProbe (kind : ChangeKind) (r : Round) : Bool := kind == .edit && r.mask == 0#8

/-- The directory after a committed round: the slot's change, then the commit sequence (R80). A round that no validation has judged may
hold a kind outside its list (log 11) or name no slot for a slot kind (log 69): it raises the sequence only. -/
def applyToDirectory (r : Round) (d : Directory) : Directory :=
  let d :=
    match ChangeKind.ofCode? r.kind, slotOf? r.slot with
    | some kind, some i =>
      if isProbe kind r || isWindowKind kind then d
      else
        let d' := d.setSlot i (stampSlot kind r (changedSlot kind r (d.slot i)))
        d'.setUsage i (changedUsage kind r (d'.usageOf i))
    | _, _ => d
  { d with seq := nextSeq d.seq }

/-- A committed WINDOW_OPEN opens the maintenance window (R83) for the round's seconds, whatever they are where no validation has
judged them (log 62). -/
def applyWindowOpen (r : Round) (t : Tamper) : Tamper :=
  if r.kind = ChangeKind.windowOpen.code then openWindow r.window.toNat t else t

/-- Applying a committed round: the change, the sequence, the round's removal, the notices (R80). A WINDOW_CLOSE is applied by
`applyWindowClose`, after the rest (log 18). -/
def applyRound (r : Round) (s : State) : State :=
  let s := { s with dir := applyToDirectory r s.dir, tamper := applyWindowOpen r s.tamper }
  dropRound ⟨r.proposer.val, by omega⟩ r.number s

/-- A committed WINDOW_CLOSE closes the window if it is OPEN (R83, R179). -/
def applyWindowClose (r : Round) (s : State) : State :=
  if r.kind = ChangeKind.windowClose.code then closeWindow s else s

/-- The slot version a DONE reports: the slot's after application, 0 for the cabinet (R86). -/
def reportedVersion (s : State) (slot : Byte) : Half :=
  match slotOf? slot with
  | none => 0#16
  | some i => (s.dir.slot i).version

/-! ## COMMIT and ABANDON (R78, R79, R84) -/

/-- Check 3 of R78 fails: the slot's version is not the expected one, or the carried version is not R80's (for a kind outside its
list the expected version, log 69). -/
def commitVersionFails (d : Directory) (r : Round) (version : Half) : Bool :=
  (match slotOf? r.slot with
   | none => false
   | some i => (d.slot i).version != r.expected)
    || version.toNat != resultingVersion r

/-- The cause a LIVE station finds at a COMMIT (R78). -/
def commitCause (s : State) (e : Option RoundEntry) (version : Half) : Option ExpelReason :=
  match e with
  | none => some .commitUnknown
  | some e =>
    if e.round.phase = .awaitingBody then some .commitUnknown
    else if e.mark = .refused then some .refusedCommit
    else if commitVersionFails s.dir e.round version then some .commitVersion
    else none

/-- The own round is the one a COMMIT or ABANDON names. -/
def namesOwnRound (s : State) (src : Node) (number : Byte) : Bool :=
  src == ownNode s && s.rounds.own.phase == .decided && s.rounds.own.number == number

/-- A LIVE station applies a COMMIT (R78, R80). -/
def commitApplied (h : Header) (number : Byte) (seq : Word) (r : Round) (s : State) : State :=
  let own := namesOwnRound s h.src number
  let s := applyRound r s
  let s := if own then endItem .done 0#8 (reportedVersion s r.slot) s.dir.seq s else s
  let s := if s.dir.seq.toNat < seq.toNat then selfExpel .sequence s else s
  applyWindowClose r s

/-- A LIVE station finds a cause at a COMMIT: the round leaves the list and the cause is raised (R78); the proposer's own round
ends LOST (R80). -/
def commitRefused (h : Header) (number : Byte) (cause : ExpelReason) (s : State) : State :=
  let own := namesOwnRound s h.src number
  let s := dropRound h.src number s
  let s := if own then endPlain .lost 0#8 s else s
  selfExpel cause s

/-- A CATCHUP station's COMMIT (R79; log 20). -/
def commitCatchup (h : Header) (number : Byte) (version : Half) (s : State) : State :=
  match findRound s h.src number with
  | none => s
  | some e =>
    if e.round.phase = .awaitingBody ∨ commitVersionFails s.dir e.round version = true then dropRound h.src number s
    else applyWindowClose e.round (applyRound e.round s)

/-- COMMIT (R78, R79). -/
def onCommit (h : Header) (number : Byte) (seq : Word) (version : Half) (s : State) : State :=
  if isLive s then
    match commitCause s (findRound s h.src number) version, findRound s h.src number with
    | some cause, _ => commitRefused h number cause s
    | none, some e => commitApplied h number seq e.round s
    | none, none => s
  else commitCatchup h number version s

/-- ABANDON: its round leaves every list; at the proposer the own round ends with the fixed outcome (R84). A reason outside its
list is ignored (log 11). -/
def onAbandon (h : Header) (number reason : Byte) (s : State) : State :=
  if !abandonReasonListed reason then s
  else
    let own := namesOwnRound s h.src number
    let s := if (findRound s h.src number).isSome then dropRound h.src number s else s
    if own then
      match s.rounds.own.outcome with
      | some (o, detail) => endPlain o detail s
      | none => s
    else s

/-! ## Membership (R77, R87) -/

/-- An EXPEL's effect on rounds: the node's rounds leave the list; a proposer still counting drops the node and tests again
(R30, R77). -/
def expelFromRounds (k : StationId) (s : State) : State :=
  let s := changeRounds s (removeRounds (roundsBurst s) (fun r => r.proposer == k) s.rounds.list)
  let o := s.rounds.own
  if o.phase = .counting ∧ setHas o.eligible k.val = true then
    decisionTest (setOwn s { o with
      eligible := setDel o.eligible k.val, accepts := setDel o.accepts k.val, voted := setDel o.voted k.val })
  else s

/-- The LOST reports of the custody queue, in queue order (R87). -/
def lostReports (s : State) : List TxFrame :=
  match s.rounds.queue with
  | [] => []
  | item :: rest =>
    outcomeReport item (ownRoundId s) .lost 0#8 0#16 0#32
      :: rest.map (fun x => outcomeReport x none .lost 0#8 0#16 0#32)

/-- The round controller at the station's own removal: own round and queue end, the list stays with every mark NONE (R87). -/
def roundsRemoved (r : RoundControl) : RoundControl :=
  { r with
    queue := []
    own := OwnRound.empty
    list := r.list.map (fun x => x.map (fun e => { e with mark := .none })) }

end Sys2Proof.Machine
end

