-- ==== Sys2Proof/Machine/Custody.lean ====
section
/-! DEFINITION. The custody unit (chapter 5): orders and their tests, direct orders, the assembly areas, commissioning, the room an
assembled key takes in the custody queue, and the admission check that makes the head item a proposal (R64). -/

namespace Sys2Proof.Machine

/-! ## The custody queue (R62, R64, R103) -/

/-- An item joins the tail of the custody queue; the own round of a station with none becomes HELD (R62, R63). -/
def addItem (item : CustodyItem) (s : State) : State :=
  let r := s.rounds
  { s with rounds := { r with
      queue := r.queue ++ [item]
      own := if r.own.phase = .none then { r.own with phase := .held } else r.own } }

/-- An area that is COMPLETE, with the place in wire order of its last component. -/
def completeSince (a : Option Area) : Option (Nat × Key) :=
  match a with
  | some x => match x.phase with | .complete stored => some (x.last, stored) | _ => none
  | none => none

/-- The area that became COMPLETE first (R103). -/
def firstComplete (c : Custody) : Option (AreaId × Area × Key) :=
  match tget c.areas 0, tget c.areas 1 with
  | a, b =>
    match completeSince a, completeSince b, a, b with
    | some (i, k), some (j, l), some x, some y => if i ≤ j then some (0, x, k) else some (1, y, l)
    | some (_, k), none, some x, _ => some (0, x, k)
    | none, some (_, l), _, some y => some (1, y, l)
    | _, _, _, _ => none

/-- The IMPORT item of an assembled key (R103). -/
def importItem (d : Directory) (x : Area) (stored : Key) : CustodyItem where
  origin := x.gateway
  tag := x.id
  byAssembly := true
  kind := .importKey
  slot := x.target
  label := x.label
  cls := x.cls
  functions := x.functions
  limit := x.limit
  mask := 0#8
  window := 0#16
  approvals := []
  bound := match slotOf? x.target with | none => 0#16 | some i => (d.slot i).version
  material := some ⟨stored, x.expected⟩

/-- A COMPLETE area takes room while the queue holds fewer than 4 items (R103). -/
def takeRoom (s : State) : State :=
  if s.rounds.queue.length < Config.custodyItems then
    match firstComplete s.cust with
    | none => s
    | some (i, x, stored) =>
      let s := { s with cust := { s.cust with areas := tset s.cust.areas i (some { x with phase := .queued }) } }
      addItem (importItem s.dir x stored) s
  else s

/-- The PROPOSE of an item under a round number (R64). -/
def proposeOf (number : Byte) (x : CustodyItem) : ProposeBody where
  number := number
  slot := x.slot
  kind := x.kind.code
  mask := x.mask
  expected := x.bound
  label := x.label
  cls := x.cls
  functions := x.functions
  limit := x.limit
  window := x.window
  bodyFollows := x.kind == .importKey
  approvals := ⟨BitVec.ofNat 8 x.approvals.length, x.approvals⟩

/-- The check passes: the next round number is assigned, the counter as it stands before it is raised (log 48), and the PROPOSE is
queued (R64). -/
def proposeItem (x : CustodyItem) (s : State) : State :=
  let number := s.rounds.counter
  let own := { s.rounds.own with phase := .proposed, number := number, proposeQueued := true, onWithdrawn := none }
  request (.propose (proposeOf number x)) { s with rounds := { s.rounds with counter := number + 1#8, own := own } }

/-- In HELD, while LIVE, quorate and not leaving, the head item is checked: reported CONFLICT or ROUNDS_FULL, or proposed
(R64). -/
def admissionCheck (s : State) : State :=
  match s.rounds.own.phase, s.rounds.queue with
  | .held, x :: _ =>
    if serving s then
      match proposalClash s x.slot x.kind.code x.label with
      | some o => endPlain o 0#8 s
      | none => proposeItem x s
    else s
  | _, _ => s

/-- Room is taken and the head item checked for as long as items end at the check: at most the 4 items and the 2 areas. -/
def custodyLoop : Nat → State → State
  | 0, s => s
  | k + 1, s => custodyLoop k (admissionCheck (takeRoom (takeRoom s)))

def custodyWork (s : State) : State := custodyLoop 8 s

/-! ## Orders (R89 to R99) -/

/-- The states that act on ORDER (R22). -/
def actsOnOrder (st : StationState) : Bool :=
  match st with
  | .listening | .catchup | .live | .detached => true
  | _ => false

/-- A direct kind: RESTART, YIELD, ERASE (R89). -/
def directKind (kind : Byte) : Bool := [10, 11, 12].contains kind.toNat

/-- The form test (R90); an approval count outside its list fails it too (log 11). -/
def orderFormFails (kind : Byte) (b : OrderBody) : Bool :=
  !(2 ≤ kind.toNat && kind.toNat ≤ 12)
    || (if cabinetKind kind then b.slot != 255#8 else (slotOf? b.slot).isNone)
    || !maskListed b.mask || 2 < b.approvals.count.toNat || !approvalsDistinct b.approvals.entries

/-- The state test: whether the station serves a kind (R91). -/
def orderServed (s : State) (kind : Byte) : Bool :=
  match kind.toNat with
  | 10 => actsOnOrder s.memb.state
  | 11 => s.memb.state == .detached
  | 12 => isLive s || s.memb.state == .detached
  | _ => serving s

/-- The approval message of an order as this station would have it (R92). -/
def orderApprovalMessage (s : State) (kind : Byte) (b : OrderBody) : List Byte :=
  orderMessage kind (if directKind kind then byteOf (ownNode s) else 255#8) b.slot b.mask b.functions b.limit b.window
    (match slotOf? b.slot with | none => s.dir.seq | some i => (s.dir.slot i).version.setWidth 32)

/-- The approval test fails (R93). -/
def orderApprovalsFail (s : State) (kind : Byte) (b : OrderBody) : Bool :=
  b.approvals.entries.length < approvalsRequired s.dir kind b.slot b.mask
    || !b.approvals.entries.all (fun a => s.dir.approvalValid a (orderApprovalMessage s kind b))

/-- A refusal at arrival is reported once, with no round id (R95). -/
def refuseOrder (h : Header) (kind : Byte) (b : OrderBody) (o : OrderOutcome) (detail : Byte) (s : State) : State :=
  request (.custodyReport h.src (orderResultBody b.tag false b.slot kind none o detail 0#16 0#32)) s

/-- The item of an accepted order: every field the kind does not read is zero (R94). -/
def orderItem (d : Directory) (h : Header) (kind : ChangeKind) (b : OrderBody) : CustodyItem :=
  let edit := kind = .edit
  { origin := h.src
    tag := b.tag
    byAssembly := false
    kind := kind
    slot := b.slot
    label := Label.zero
    cls := 0#8
    functions := if edit ∧ maskFunctions b.mask then b.functions else 0#8
    limit := if edit ∧ maskLimit b.mask then b.limit else 0#32
    mask := if edit then b.mask else 0#8
    window := if kind = .windowOpen then b.window else 0#16
    approvals := b.approvals.entries
    bound := match slotOf? b.slot with | none => 0#16 | some i => (d.slot i).version
    material := none }

/-- The room test, and acceptance of a round kind (R94). -/
def acceptRoundOrder (change : ChangeKind) (h : Header) (b : OrderBody) (s : State) : State :=
  if Config.custodyItems ≤ s.rounds.queue.length then refuseOrder h change.code b .busy 0#8 s
  else addItem (orderItem s.dir h change b) s

/-- The direct-order record takes the order (R99). -/
def recordOrder (h : Header) (kind : Byte) (b : OrderBody) (s : State) : State :=
  { s with cust := { s.cust with record := some ⟨h.src, b.tag, kind⟩ } }

/-- An accepted RESTART: in LIVE it is outstanding and its cause is raised, elsewhere the warm start is taken at once (R96). -/
def acceptRestart (h : Header) (b : OrderBody) (s : State) : State :=
  if s.cust.record.isSome then refuseOrder h codeRestart b .busy 0#8 s
  else
    let s := recordOrder h codeRestart b s
    if isLive s then selfExpel .restart { s with memb := { s.memb with restartOutstanding := true } }
    else warmStart false s

/-- An accepted YIELD sets the yield mark and takes a warm start, which keeps it (R97). -/
def acceptYield (h : Header) (b : OrderBody) (s : State) : State :=
  if s.cust.record.isSome then refuseOrder h codeYield b .busy 0#8 s
  else
    let s := recordOrder h codeYield b s
    warmStart true { s with memb := { s.memb with yieldMark := true } }

/-- An accepted ERASE zeroises the station with cause ORDER (R98). -/
def acceptErase (s : State) : State := zeroise .order (some .order) s

/-- The tests of an ORDER in turn: form, state, approvals; then what its kind does when accepted (R90 to R94). -/
def orderArrives (kind : Byte) (accept : State → State) (h : Header) (b : OrderBody) (s : State) : State :=
  if !actsOnOrder s.memb.state then s
  else if orderFormFails kind b then refuseOrder h kind b .refused detailForm s
  else if !orderServed s kind then refuseOrder h kind b .notServing 0#8 s
  else if orderApprovalsFail s kind b then refuseOrder h kind b .refused detailBadApproval s
  else accept s

def onOrderActivate (h : Header) (b : OrderBody) (s : State) : State :=
  orderArrives codeActivate (acceptRoundOrder .activate h b) h b s
def onOrderSuspend (h : Header) (b : OrderBody) (s : State) : State :=
  orderArrives codeSuspend (acceptRoundOrder .suspend h b) h b s
def onOrderResume (h : Header) (b : OrderBody) (s : State) : State :=
  orderArrives codeResume (acceptRoundOrder .resume h b) h b s
def onOrderRetire (h : Header) (b : OrderBody) (s : State) : State :=
  orderArrives codeRetire (acceptRoundOrder .retire h b) h b s
def onOrderDestroy (h : Header) (b : OrderBody) (s : State) : State :=
  orderArrives codeDestroy (acceptRoundOrder .destroy h b) h b s
def onOrderEdit (h : Header) (b : OrderBody) (s : State) : State :=
  orderArrives codeEdit (acceptRoundOrder .edit h b) h b s
def onOrderWindowOpen (h : Header) (b : OrderBody) (s : State) : State :=
  orderArrives codeWindowOpen (acceptRoundOrder .windowOpen h b) h b s
def onOrderWindowClose (h : Header) (b : OrderBody) (s : State) : State :=
  orderArrives codeWindowClose (acceptRoundOrder .windowClose h b) h b s
def onOrderRestart (h : Header) (b : OrderBody) (s : State) : State :=
  orderArrives codeRestart (acceptRestart h b) h b s
def onOrderYield (h : Header) (b : OrderBody) (s : State) : State :=
  orderArrives codeYield (acceptYield h b) h b s
def onOrderErase (h : Header) (b : OrderBody) (s : State) : State :=
  orderArrives codeErase acceptErase h b s
/-- A kind code outside 2 to 12 fails the form test (R90). -/
def onOrderUnknown (h : Header) (kind : Byte) (b : OrderBody) (s : State) : State :=
  orderArrives kind id h b s

/-- An ORDER by its kind code (R89). -/
def onOrder (h : Header) (kind : Byte) (b : OrderBody) (s : State) : State :=
  match kind.toNat with
  | 2 => onOrderActivate h b s
  | 3 => onOrderSuspend h b s
  | 4 => onOrderResume h b s
  | 5 => onOrderRetire h b s
  | 6 => onOrderDestroy h b s
  | 7 => onOrderEdit h b s
  | 8 => onOrderWindowOpen h b s
  | 9 => onOrderWindowClose h b s
  | 10 => onOrderRestart h b s
  | 11 => onOrderYield h b s
  | 12 => onOrderErase h b s
  | _ => onOrderUnknown h kind b s

/-! ## Assembly areas (R100 to R106) -/

def areaAt (s : State) (a : AreaId) : Option Area := tget s.cust.areas a

def setArea (s : State) (a : AreaId) (x : Option Area) : State :=
  { s with cust := { s.cust with areas := tset s.cust.areas a x } }

/-- The area that holds an assembly id. -/
def areaOfId (s : State) (id : Half) : Option (AreaId × Area) :=
  match areaAt s 0, areaAt s 1 with
  | some x, some y => if x.id = id then some (0, x) else if y.id = id then some (1, y) else none
  | some x, none => if x.id = id then some (0, x) else none
  | none, some y => if y.id = id then some (1, y) else none
  | none, none => none

/-- A FREE area: area 0 before area 1 (log 56). -/
def freeArea (s : State) : Option AreaId :=
  if (areaAt s 0).isNone then some 0 else if (areaAt s 1).isNone then some 1 else none

/-- The number of components taken. -/
def takenCount (x : Area) : Nat := ((List.range 4).filter (fun i => x.received.getLsbD i)).length

/-- The ASSEMBLY report of a component (R105). -/
def assemblyReport (h : Header) (b : ComponentBody) (status : AssemblyStatus) (detail : Option AssemblyDetail) (taken : Nat)
    (m : Byte) (check : Check) : TxFrame :=
  .custodyReport h.src (assemblyBody b.id b.target b.number status detail taken m check)

/-- A component is refused with a detail; it changes no area (R102, R105). The counts are those of the area that holds the id, else
none taken and the frame's m (log 24). -/
def refuseComponent (h : Header) (b : ComponentBody) (detail : AssemblyDetail) (s : State) : State :=
  match areaOfId s b.id with
  | some (_, x) => request (assemblyReport h b .refused (some detail) (takenCount x) x.m 0#24) s
  | none => request (assemblyReport h b .refused (some detail) 0 b.m 0#24) s

/-- The form of m and of the component number (R101). -/
def numbersFail (b : ComponentBody) : Bool :=
  b.m.toNat < 2 || 4 < b.m.toNat || b.number.toNat < 1 || b.m.toNat < b.number.toNat

/-- The form test of a slot component (R101); an approval count outside its list fails it too (log 11). -/
def componentFormFails (b : ComponentBody) : Bool :=
  numbersFail b || (KeyClass.ofCode? b.cls).isNone || b.label.issuer == 0#24 || 1 < b.approvals.count.toNat

/-- The component's check value differs from the one the frame carries (R101). -/
def componentCheckFails (b : ComponentBody) : Bool := checkOf b.component != b.componentCheck

/-- An area holds the slot or the label (R102). -/
def areaClaims (b : ComponentBody) (a : Option Area) : Bool :=
  match a with
  | none => false
  | some x => x.target == b.target || x.label == b.label

/-- The target test of component number 1 fails (R102); a target from 64 to 254 names no slot (log 11), and a functions bit of no
function is not class consistent (log 63). -/
def targetFails (s : State) (b : ComponentBody) : Bool :=
  match slotOf? b.target, KeyClass.ofCode? b.cls with
  | some i, some c =>
    (s.dir.slot i).state != .empty || (List.finRange 64).any (s.dir.carries b.label)
      || areaClaims b (areaAt s 0) || areaClaims b (areaAt s 1) || !classConsistent c b.functions b.limit
  | _, _ => true

/-- A later component differs from its area (R102). -/
def inconsistent (h : Header) (b : ComponentBody) (x : Area) : Bool :=
  x.gateway != h.src || x.target != b.target || x.label != b.label || x.cls != b.cls || x.functions != b.functions
    || x.limit != b.limit || x.m != b.m || x.expected != b.wholeCheck

/-- The approval is refused: absent where required, by a custodian already used, or invalid (R102). -/
def componentApprovalFails (s : State) (b : ComponentBody) (used : List Byte) : Bool :=
  match b.approvals.entries with
  | [] => !(b.cls == KeyClass.custodian.code && s.dir.openCustody)
  | a :: _ =>
    let version := match slotOf? b.target with | none => 0#16 | some i => (s.dir.slot i).version
    used.contains a.slot || !s.dir.approvalValid a (componentMessage b version)

/-- The area that component number 1 opens, holding no component yet (R102). -/
def openedArea (h : Header) (b : ComponentBody) : Area where
  phase := .collecting 0#256
  id := b.id
  gateway := h.src
  target := b.target
  label := b.label
  cls := b.cls
  functions := b.functions
  limit := b.limit
  m := b.m
  received := 0#4
  expected := b.wholeCheck
  custodians := []
  last := 0

/-- The XOR of the components taken, in COLLECTING (R100). -/
def accumulatorOf (x : Area) : Key := match x.phase with | .collecting k => k | _ => 0#256

/-- A component taken: its number, its custodian, the time, the accumulator (R102). -/
def withComponent (b : ComponentBody) (place : Nat) (x : Area) : Area :=
  { x with
    phase := .collecting (accumulatorOf x ^^^ b.component)
    received := x.received ||| BitVec.twoPow 4 (b.number.toNat - 1)
    custodians := x.custodians ++ (b.approvals.entries.take 1).map (·.slot)
    last := place }

/-- Where a component is placed: the area it opens or joins, or the detail it is refused with (R102). `cabinet` for a component with
target 255, which has no target test (R106). -/
def placeComponent (cabinet : Bool) (h : Header) (b : ComponentBody) (s : State) : Except AssemblyDetail (AreaId × Area) :=
  if b.number = 1#8 then
    if (areaOfId s b.id).isSome then .error .duplicate
    else if !cabinet && targetFails s b then .error .target
    else
      match freeArea s with
      | none => .error .noArea
      | some a => .ok (a, openedArea h b)
  else
    match areaOfId s b.id with
    | none => .error .noAssembly
    | some (a, x) =>
      match x.phase with
      | .collecting _ =>
        if inconsistent h b x then .error .inconsistent
        else if x.received.getLsbD (b.number.toNat - 1) then .error .duplicate
        else .ok (a, x)
      | _ => .error .noAssembly

/-- A slot assembly's last component is in (R103). -/
def completeSlot (h : Header) (b : ComponentBody) (a : AreaId) (x : Area) (s : State) : State :=
  let acc := accumulatorOf x
  if checkOf acc = x.expected then
    match s.dir.key with
    | none => s
    | some k =>
      request (assemblyReport h b .complete none (takenCount x) x.m x.expected)
        (setArea s a (some { x with phase := .complete (storedForm k.key acc) }))
  else request (assemblyReport h b .failed none (takenCount x) x.m 0#24) (setArea s a none)

/-- A slot component is taken into its area (R102, R103). -/
def takeSlotComponent (h : Header) (b : ComponentBody) (a : AreaId) (x : Area) (s : State) : State :=
  let x := withComponent b s.wirePlace x
  if takenCount x = x.m.toNat then completeSlot h b a x s
  else request (assemblyReport h b .taken none (takenCount x) x.m 0#24) (setArea s a (some x))

/-- COMPONENT for a slot (R101 to R103). -/
def onComponentSlot (h : Header) (b : ComponentBody) (s : State) : State :=
  if inCatchup s then refuseComponent h b .notServing s
  else if !isLive s then s
  else if !serving s then refuseComponent h b .notServing s
  else if componentFormFails b then refuseComponent h b .form s
  else if componentCheckFails b then refuseComponent h b .badComponent s
  else
    match placeComponent false h b s with
    | .error d => refuseComponent h b d s
    | .ok (a, x) =>
      if componentApprovalFails s b x.custodians then refuseComponent h b .badApproval s
      else takeSlotComponent h b a x s

/-- A CABINET component as it is read: label, class, functions, limit and approvals are not (R106). -/
def cabinetComponent (b : ComponentBody) : ComponentBody :=
  { b with label := Label.zero, cls := 0#8, functions := 0#8, limit := 0#32, approvals := ⟨0#8, []⟩ }

/-- The cabinet key is installed: the register takes it, both areas become FREE, the report carries INSTALLED, the station enters
LISTENING (R57, R106). -/
def installCabinetKey (h : Header) (b : ComponentBody) (x : Area) (s : State) : State :=
  let key := accumulatorOf x
  let s := { s with dir := { s.dir with key := some ⟨key, checkOf key⟩ } }
  let s := request (assemblyReport h b .installed none (takenCount x) x.m (checkOf key)) s
  enterListening { s with cust := { s.cust with areas := Vector.replicate 2 none } }

/-- A CABINET component is taken into its area (R106). -/
def takeCabinetComponent (h : Header) (b : ComponentBody) (a : AreaId) (x : Area) (s : State) : State :=
  let x := withComponent b s.wirePlace x
  if takenCount x = x.m.toNat then
    if checkOf (accumulatorOf x) = x.expected then installCabinetKey h b x s
    else request (assemblyReport h b .failed none (takenCount x) x.m 0#24) (setArea s a none)
  else request (assemblyReport h b .taken none (takenCount x) x.m 0#24) (setArea s a (some x))

/-- COMPONENT with target 255, in BLANK (R106). -/
def onComponentCabinet (h : Header) (body : ComponentBody) (s : State) : State :=
  if s.memb.state = .blank then
    let b := cabinetComponent body
    if numbersFail b then refuseComponent h b .form s
    else if componentCheckFails b then refuseComponent h b .badComponent s
    else
      match placeComponent true h b s with
      | .error d => refuseComponent h b d s
      | .ok (a, x) => takeCabinetComponent h b a x s
  else s

/-- COMPONENT by its target (R12, R106). -/
def onComponent (h : Header) (b : ComponentBody) (s : State) : State :=
  if b.target = 255#8 then onComponentCabinet h b s else onComponentSlot h b s

/-- A report given by the timeout or by removal: component number 0 (R105). -/
def areaReport (x : Area) (status : AssemblyStatus) : TxFrame :=
  .custodyReport x.gateway (assemblyBody x.id x.target 0#8 status none (takenCount x) x.m 0#24)

/-- 300 s after the last component of a COLLECTING or COMPLETE area (R104). -/
def areaTimeout (a : AreaId) (s : State) : State :=
  match areaAt s a with
  | none => s
  | some x =>
    match x.phase with
    | .queued => s
    | _ => request (areaReport x .expired) (setArea s a none)

/-- The LOST reports of the areas at the station's own removal (R104). -/
def areaLostReports (c : Custody) : List TxFrame :=
  c.areas.toList.filterMap (fun a =>
    match a with
    | none => none
    | some x => match x.phase with | .queued => none | _ => some (areaReport x .lost))

end Sys2Proof.Machine
end

