-- ==== Sys2Proof/Machine/CatchUp.lean ====
section
/-! DEFINITION. The catch-up unit (chapter 6): choosing a source, the pull sequence, serving, applying images, verification, and the
failure of an attempt. -/

namespace Sys2Proof.Machine

def setCatchUp (s : State) (c : CatchUp) : State := { s with catchUp := c }

/-! ## Attempts (R110, R111) -/

/-- The PULL of the current pull index is queued (R111). -/
def queuePull (s : State) : State :=
  match s.catchUp.source with
  | none => s
  | some k => request (.pull k (pullOf s.catchUp.pullIndex).1 (pullOf s.catchUp.pullIndex).2 false) s

/-- An attempt begins with a source: counted, at pull 1 (R109, R111). -/
def startAttempt (k : StationId) (s : State) : State :=
  queuePull (setCatchUp s { s.catchUp with
    phase := .pulling, source := some k, pullIndex := 1, awaited := [], pullTimer := false, verifyTimer := false,
    joinFailure := none, attempts := raise16 s.catchUp.attempts })

/-- A member whose peer record holds LIVE (R110). -/
def qualifies (s : State) (k : StationId) : Bool :=
  match tget s.memb.peers k with
  | none => false
  | some r => r.state == .live

/-- The source of an attempt from LIVE or after a failed one: the lowest-numbered qualifying member, passing over the failed source
while another qualifies (R110). The puller itself is no source, whatever an image has made of its live set (R120). -/
def chooseSource (s : State) (failed : Option StationId) : Option StationId :=
  let able := (members s).filter (fun k => k != self s && qualifies s k)
  match able.find? (fun k => failed != some k) with
  | some k => some k
  | none => able.head?

/-- The next attempt, or LISTENING when there is no LIVE source (R110). -/
def nextAttempt (failed : Option StationId) (s : State) : State :=
  match chooseSource s failed with
  | none => enterListening s
  | some k => startAttempt k s

/-- The lowest-numbered node that announced LIVE in the window with a matching cabinet check value (R39). -/
def heardLive (s : State) : Option StationId :=
  stationList.find? (fun k =>
    match tget s.memb.heard k with
    | none => false
    | some r => r.state == .live && r.check == s.dir.cabinetCheck)

/-- The source R39 names. -/
def listeningSource (s : State) : Option StationId :=
  match heardLive s with
  | some k => some k
  | none => lowestMember s

/-- The AHEAD check against a source's commit sequence: DETACHED(AHEAD), or the attempt begins (R39, R110). -/
def aheadCheck (k : StationId) (seq : Word) (s : State) : State :=
  if seq.toNat < s.dir.seq.toNat then enterDetached .ahead s else startAttempt k s

/-- Entry to CATCHUP from LISTENING: the source of R39, and the AHEAD check unless the yield mark is set, which clears (R26, R39,
R110; log 35). -/
def enterCatchupFromListening (s : State) : State :=
  match listeningSource s with
  | none => enterListening s
  | some k =>
    let yielded := s.memb.yieldMark
    let s := { s with memb := { s.memb with state := .catchup, windowOpen := false, yieldMark := false } }
    if yielded then startAttempt k s
    else
      match tget s.memb.peers k with
      | some r => aheadCheck k r.seq s
      | none => setCatchUp s { s.catchUp with phase := .waitSource, source := some k, verifyTimer := true }

/-! ## Failure (R118, R119) -/

/-- A PULL that cannot be withdrawn belongs to an attempt that has ended (R119; log 37). -/
def stalePull : TxFrame → TxFrame
  | .pull k area start _ => .pull k area start true
  | f => f

def markPullsStale (s : State) : State :=
  { s with link := { s.link with queue := s.link.queue.map (fun e => { e with frame := stalePull e.frame }) } }

/-- An attempt's failure is handled (R119). No item of a burst is awaited any more, so the rounds close up (R116). -/
def failAttempt (s : State) : State :=
  let failed := s.catchUp.source
  let s := markPullsStale (retract isPull s)
  let s := setRounds s (closeUp s.rounds.list)
  let s := setCatchUp s { s.catchUp with
    pullTimer := false, verifyTimer := false, joinFailure := none, failures := s.catchUp.failures + 1 }
  if 3 ≤ s.catchUp.failures then enterDetached .failed s
  else if s.memb.live = 0#8 then enterListening s
  else nextAttempt failed s

/-- The failure kept while the JOIN's withdrawal is undecided: a receive error stands over another cause (R118; log 37). -/
def keptFailure (old : Option FailCause) (new : FailCause) : FailCause :=
  match old, new with
  | _, .receiveError => .receiveError
  | some c, _ => c
  | none, c => c

/-- A cause found in JOINING: the JOIN's withdrawal is asked for; taken, the failure is handled; otherwise it waits (R118). -/
def failJoining (c : FailCause) (s : State) : State :=
  let s := retract isJoin s
  if hasFrame s isJoin then setCatchUp s { s.catchUp with joinFailure := some (keptFailure s.catchUp.joinFailure c) }
  else failAttempt s

/-- A cause is found (R118, R119). -/
def findFailure (c : FailCause) (s : State) : State :=
  match s.catchUp.phase with
  | .idle => s
  | .joining => failJoining c s
  | .waitSource | .pulling | .verifying => failAttempt s

/-- The pull timer expires with items awaited (R112). -/
def pullTimedOut (s : State) : State :=
  if s.catchUp.pullTimer then findFailure .pullTimeout s else s

/-- The verification timer expires in WAIT_SOURCE or VERIFYING (R110, R117). -/
def verificationTimedOut (s : State) : State :=
  if s.catchUp.verifyTimer then findFailure .presenceTimeout s else s

/-! ## Serving (R113) -/

/-- The head of the pull queue is served: one IMAGE for each of its items (R113). -/
def serveHead (s : State) : State :=
  match s.catchUp.serve with
  | [] => s
  | e :: _ => e.items.foldl (fun s i => request (.image e.puller e.area i) s) s

/-- PULL (R113). -/
def onPull (h : Header) (area start : Byte) (s : State) : State :=
  match areaSize? area with
  | none => s
  | some size =>
    if isLive s && !s.memb.leaving && decide (s.catchUp.serve.length < Config.pullEntries) && decide (start.toNat < size) then
      let idle := s.catchUp.serve.isEmpty
      let s := setCatchUp s { s.catchUp with serve := s.catchUp.serve ++ [⟨h.src, area, start, burstItems area start⟩] }
      if idle then serveHead s else s
    else s

/-- An IMAGE has been sent: with the last of its entry's, the entry leaves the queue and the next is served (R113). -/
def imageSent (puller : Node) (area item : Byte) (s : State) : State :=
  match s.catchUp.serve with
  | [] => s
  | e :: rest =>
    if e.puller = puller ∧ e.area = area ∧ e.items.contains item = true then
      let items := e.items.erase item
      if items.isEmpty then serveHead (setCatchUp s { s.catchUp with serve := rest })
      else setCatchUp s { s.catchUp with serve := { e with items := items } :: rest }
    else s

/-! ## The pull under way (R111, R112, R114) -/

/-- The own PULL has been delivered: its burst is awaited and the pull timer starts (R111). -/
def pullSent (stale : Bool) (s : State) : State :=
  if stale || s.catchUp.phase != .pulling then s
  else
    let p := pullOf s.catchUp.pullIndex
    setCatchUp s { s.catchUp with awaited := burstItems p.1 p.2, pullTimer := true }

/-- An IMAGE carries an awaited item (R112). -/
def awaits (s : State) (area item : Byte) : Bool :=
  s.catchUp.phase == .pulling && (pullOf s.catchUp.pullIndex).1 == area && s.catchUp.awaited.contains item

/-- An awaited item is no longer awaited. -/
def tookItem (area item : Byte) (s : State) : State :=
  if awaits s area item then setCatchUp s { s.catchUp with awaited := s.catchUp.awaited.erase item } else s

/-- The burst is in: the timer stops, and the next PULL is queued, or VERIFYING begins (R112, R114). -/
def burstDone (s : State) : State :=
  if s.catchUp.pullIndex < 26 then
    queuePull (setCatchUp s { s.catchUp with pullTimer := false, pullIndex := s.catchUp.pullIndex + 1 })
  else setCatchUp s { s.catchUp with pullTimer := false, phase := .verifying, verifyTimer := true }

/-! ## Images (R114 to R116) -/

/-- Four places of the open round list (R116). -/
def fourPlaces (l : List (Option RoundEntry)) : List (Option RoundEntry) :=
  l ++ List.replicate (Config.openRounds - l.length) none

/-- A ROUNDS item: the record at position k, or the position emptied; another position with the same slot or proposer is emptied
first (R116). The vote mark is NONE. -/
def placeRound (k : Nat) (r : Option Round) (l : List (Option RoundEntry)) : List (Option RoundEntry) :=
  let l := fourPlaces l
  match r with
  | none => l.set k none
  | some r =>
    (l.map (fun x => x.bind (fun e =>
      if e.round.slot = r.slot ∨ e.round.proposer = r.proposer then none else some e))).set k (some ⟨r, .none⟩)

/-- The places after an item: they close up unless items of a ROUNDS burst are still awaited (R116). -/
def settlePlaces (s : State) : State :=
  if roundsBurst s then s else setRounds s (closeUp s.rounds.list)

/-- A MEMBERS item fails the attempt: its map names the puller, does not name the source, or its check value is another (R116). -/
def membersFail (s : State) (live : StationSet) (check : Check) : Bool :=
  setHas live (self s).val || !(match s.catchUp.source with | none => false | some k => setHas live k.val)
    || check != s.dir.cabinetCheck

/-- What an IMAGE carries, read from its bytes. -/
inductive ImageItem where
  | members (map : NodeMap) (check : Check)
  | round (k : Nat) (r : Option Round)
  | slot (i : SlotId) (x : Slot) (u : Usage)
  | line (l : LineId) (e : LineEntry)
  deriving DecidableEq, Repr

/-- The item of an IMAGE; none for an area, an item number or a record code outside its list, which leaves the IMAGE ignored
(log 11). -/
def imageItem? (area item : Byte) (contents : List Byte) : Option ImageItem :=
  match area.toNat with
  | 1 => if item = 0#8 then some (.members (fieldAt 16 2 0 contents) (fieldAt 24 3 2 contents)) else none
  | 2 => if item.toNat < 4 then (roundOfBytes? contents).map (.round item.toNat) else none
  | 3 =>
    match slotOf? item, slotOfBytes? contents with
    | some i, some x => some (.slot i x (usageOfBytes (contents.drop 50)))
    | _, _ => none
  | 4 =>
    match indexOf? 32 item, lineOfBytes? contents with
    | some l, some e => some (.line l e)
    | _, _ => none
  | _ => none

/-- The overwrite of an item other than MEMBERS (R116). -/
def overwriteItem (x : ImageItem) (s : State) : State :=
  match x with
  | .members map _ => { s with memb := { s.memb with live := setOfMap (stationCount s) map } }
  | .round k r => openRoundNotice s (settlePlaces (setRounds s (placeRound k r s.rounds.list)))
  | .slot i x u => giveNotice { s with dir := (s.dir.setSlot i x).setUsage i u }
  | .line l e => imageLine s l e

/-- The item fails the attempt (R116). -/
def itemFails (x : ImageItem) (s : State) : Bool :=
  match x with
  | .members map check => membersFail s (setOfMap (stationCount s) map) check
  | _ => false

/-- The pulling side applies IMAGEs from its source in PULLING, VERIFYING and JOINING (R114). -/
def takesImages (s : State) (src : Node) : Bool :=
  inCatchup s && (match s.catchUp.source with | none => false | some k => k.val == src.val)
    && (match s.catchUp.phase with | .pulling | .verifying | .joining => true | .idle | .waitSource => false)

/-- IMAGE (R112, R114 to R116): the commit sequence, the item, then the pull's advance. -/
def onImage (h : Header) (area item : Byte) (seq : Word) (contents : List Byte) (s : State) : State :=
  match imageItem? area item contents with
  | none => s
  | some x =>
    if takesImages s h.src then
      let awaited := awaits s area item
      let s := tookItem area item { s with dir := { s.dir with seq := seq } }
      let fails := itemFails x s
      let s := overwriteItem x s
      if fails then findFailure .mismatch s
      else if awaited && s.catchUp.awaited.isEmpty then burstDone s
      else s
    else s

/-! ## Presences of the source (R110, R117 to R119) -/

/-- R117's five comparisons. -/
def verified (s : State) (b : PresenceBody) : Bool :=
  b.state == StationState.live.code && b.seq == s.dir.seq && b.dirDigest == ownDirDigest s && b.workDigest == ownWorkDigest s
    && b.check == s.dir.cabinetCheck

/-- The comparisons hold: the JOIN is queued (R117). -/
def beginJoining (s : State) : State :=
  request (.join false) (setCatchUp s { s.catchUp with phase := .joining, verifyTimer := false })

/-- A PRESENCE of the source reaches the pulling side (R110, R117, R118, R119). -/
def sourceHeard (b : PresenceBody) (k : StationId) (s : State) : State :=
  let live := b.state == StationState.live.code
  match s.catchUp.phase with
  | .idle => s
  | .waitSource =>
    if live then aheadCheck k b.seq (setCatchUp s { s.catchUp with verifyTimer := false })
    else findFailure .sourceLost s
  | .pulling => if live then s else findFailure .sourceLost s
  | .verifying =>
    if verified s b then beginJoining s
    else if live then findFailure .mismatch s
    else findFailure .sourceLost s
  | .joining => if live then s else findFailure .sourceLost s

/-- A PRESENCE in CATCHUP. -/
def catchUpPresence (k : StationId) (b : PresenceBody) (s : State) : State :=
  if inCatchup s ∧ s.catchUp.source = some k then sourceHeard b k s else s

end Sys2Proof.Machine
end

