-- ==== Sys2Proof/Machine/Membership.lean ====
section
/-! DEFINITION. The membership unit (chapter 2): peer records, silence watches, duty and quorum, JOIN and EXPEL, listening and
founding. -/

namespace Sys2Proof.Machine

/-! ## Records (R28, R38) -/

/-- The standing of announced values against the receiver's own (R28). -/
def standingOf (s : State) (seq dirDigest workDigest : Word) : Standing :=
  if seq.toNat < s.dir.seq.toNat then .lower
  else if s.dir.seq.toNat < seq.toNat then .higher
  else if dirDigest = ownDirDigest s ∧ workDigest = ownWorkDigest s then .agree
  else .differ

def setPeer (s : State) (k : StationId) (r : PeerRecord) : State :=
  { s with memb := { s.memb with peers := tset s.memb.peers k (some r) } }

/-- Record k takes a PRESENCE; the station's own record has standing AGREE (R28). -/
def recordPresence (k : StationId) (st : StationState) (b : PresenceBody) (s : State) : State :=
  setPeer s k ⟨st, b.seq, b.dirDigest, b.workDigest,
    if k = self s then .agree else standingOf s b.seq b.dirDigest b.workDigest⟩

/-- The sender's record takes a JOIN that is taken: its state becomes LIVE (R28). `before` is the state the JOIN finds (log 22). -/
def recordJoin (before : State) (k : StationId) (b : JoinBody) (s : State) : State :=
  setPeer s k ⟨.live, b.seq, b.dirDigest, b.workDigest, standingOf before b.seq b.dirDigest b.workDigest⟩

/-! ## Silence watches (R33) -/

def setSilence (s : State) (k : StationId) (t : TimerState) : State :=
  { s with memb := { s.memb with watches := tset s.memb.watches k t } }

/-- An EXPEL(SILENT) for a node, unless one is already queued for it (R33). -/
def ensureSilent (k : StationId) (s : State) : State :=
  if hasFrame s (isSilentExpelOf k) then s else request (.expel k .silent) s

/-- A member counts as failed: its watch has expired, or its record is not LIVE (R33), as a PRESENCE announced it or a
taken JOIN set it (log 43). -/
def hasFailed (s : State) (k : StationId) : Bool :=
  tget s.memb.watches k == .expired
    || (match tget s.memb.peers k with | none => false | some r => r.state != .live)

/-- A LIVE station without the duty: when every member below it has failed it queues EXPEL(SILENT) for the lowest, and otherwise
withdraws its own (R33; log 28). -/
def silentUpkeep (s : State) : State :=
  if isLive s && !duty s then
    let lower := (members s).filter (fun k => k.val < (self s).val)
    match lower with
    | [] => s
    | k :: _ => if lower.all (hasFailed s) then ensureSilent k s else retract isSilentExpel s
  else s

/-- A silence watch expires (R33). -/
def silenceExpired (k : StationId) (s : State) : State :=
  if tget s.memb.watches k = .running then
    let s := setSilence s k .expired
    if duty s then ensureSilent k s else silentUpkeep s
  else s

/-! ## Duty and quorum (R32, R34) -/

/-- A station gains the duty: it acts on the silence watches that have expired and on the line table's marks (R32, R139). -/
def dutyGained (s : State) : State :=
  lineDutyGained ((members s).foldl (fun s k => if tget s.memb.watches k = .expired then ensureSilent k s else s) s)

/-- A station loses the duty: its EXPEL(SILENT), UNCLAIMED and CLOSE(SILENCE) frames are withdrawn (R32, R139). -/
def dutyLost (s : State) : State := retract isCloseSilence (retract isUnclaimed (retract isSilentExpel s))

/-- A LIVE station after a change of its live set: duty, quorum, the posted positions (R32, R33, R34, R139). -/
def liveSetChanged (hadDuty : Bool) (s : State) : State :=
  let s := if hadDuty && !duty s then dutyLost s else if !hadDuty && duty s then dutyGained s else s
  let s := if quorate s then s else withdrawPropose s
  giveNotice (silentUpkeep s)

/-! ## Entering LIVE (R29, R40, R118) -/

/-- The watches at entry to LIVE: one for each other member (R33). -/
def startedWatches (own : StationId) (live : StationSet) : Vector TimerState 8 :=
  tableOf 8 (fun i => if setHas live i && i != own.val then .running else .stopped)

/-- The station enters LIVE at its own JOIN's delivery: it gains the duty, or judges the members below it (R32, R33); a receive
error found while JOINING is then a cause (R29, R118). -/
def enterLive (s : State) : State :=
  let failure := s.catchUp.joinFailure
  let s := { s with
    memb := { s.memb with
      state := .live, cause := none, windowOpen := false, watches := startedWatches (self s) s.memb.live }
    catchUp := { idleCatchUp s.catchUp with failures := 0 } }
  let s := giveNotice (if duty s then dutyGained s else silentUpkeep s)
  if failure = some .receiveError then selfExpel .receiveError s else s

/-! ## Listening and founding (R38 to R40) -/

/-- A founder whose live set has become non-empty withdraws its founding JOIN; if that is taken it enters CATCHUP (R40), also where an
ordinary JOIN has filled the set (log 54). -/
def founderCheck (s : State) : State :=
  if s.memb.state = .listening ∧ s.memb.live ≠ 0#8 ∧ hasFrame s isFoundingJoin = true then
    let s := retract isFoundingJoin s
    if hasFrame s isFoundingJoin then s else enterCatchupFromListening s
  else s

/-- A record that counts toward founding: LISTENING with a matching cabinet check value (R38, R39). -/
def counted (s : State) (r : HeardRecord) : Bool := r.state == .listening && r.check == s.dir.cabinetCheck

/-- A counted node that goes before this one: its yield flag clear, its sequence higher, or equal with a lower node (R39). -/
def goesBefore (s : State) (k : StationId) (r : HeardRecord) : Bool :=
  counted s r && !r.yield
    && (s.dir.seq.toNat < r.seq.toNat || (r.seq == s.dir.seq && k.val < (self s).val))

/-- Item 2 of R39 holds: the station founds. -/
def mayFound (s : State) : Bool :=
  let heard := stationList.filterMap (fun k => (tget s.memb.heard k).map (fun r => (k, r)))
  quorum s ≤ 1 + (heard.filter (fun x => counted s x.2)).length && !s.memb.yieldMark
    && !heard.any (fun x => goesBefore s x.1 x.2)

/-- The listening window expires (R39). -/
def listeningExpired (s : State) : State :=
  if s.memb.state = .listening ∧ s.memb.windowOpen = true then
    if (heardLive s).isSome ∨ s.memb.live ≠ 0#8 then enterCatchupFromListening s
    else if mayFound s then request (.join true) { s with memb := { s.memb with windowOpen := false } }
    else { s with memb := { s.memb with heard := Vector.replicate 8 none } }
  else s

/-- A PRESENCE in LISTENING: the listening record while the window is open, and the adoption of a LIVE sender's live set (R38,
R40). -/
def listeningPresence (k : StationId) (st : StationState) (b : PresenceBody) (s : State) : State :=
  let s :=
    if s.memb.windowOpen && k != self s then
      { s with memb := { s.memb with heard := tset s.memb.heard k (some ⟨st, b.seq, b.yield, b.check⟩) } }
    else s
  if st = .live ∧ b.check = s.dir.cabinetCheck then
    founderCheck { s with memb := { s.memb with live := setOfMap (stationCount s) b.live } }
  else s

/-! ## PRESENCE in LIVE (R33, R36, R37) -/

/-- The other members whose record holds the receiver's own commit sequence (R37: E), and those of them that DIFFER (F). -/
def comparable (s : State) : List PeerRecord :=
  ((members s).filter (· != self s)).filterMap (fun k =>
    match tget s.memb.peers k with
    | none => none
    | some r => if r.seq = s.dir.seq then some r else none)

def mismatched (s : State) : Bool :=
  (comparable s).length < 2 * ((comparable s).filter (fun r => r.standing == .differ)).length

/-- The watch restarts; a state other than LIVE gives EXPEL(SILENT) at the duty station, LIVE withdraws one that is queued (R33). -/
def watchPresence (k : StationId) (st : StationState) (s : State) : State :=
  let s := setSilence s k .running
  if st = .live then silentUpkeep (retract (isSilentExpelOf k) s)
  else if duty s then ensureSilent k s
  else silentUpkeep s

/-- The causes SEQUENCE and MISMATCH at a LIVE member's PRESENCE (R36, R37). -/
def presenceCauses (k : StationId) (b : PresenceBody) (s : State) : State :=
  if s.dir.seq.toNat < b.seq.toNat then selfExpel .sequence s
  else
    match tget s.memb.peers k with
    | some r => if r.standing = .differ ∧ mismatched s = true then selfExpel .mismatch s else s
    | none => s

def livePresence (k : StationId) (st : StationState) (b : PresenceBody) (s : State) : State :=
  if isMember s k && k != self s then
    let s := watchPresence k st s
    if st = .live then presenceCauses k b s else s
  else s

/-- The states that act on PRESENCE (R22). -/
def actsOnPresence (st : StationState) : Bool := st != .strapFault && st != .retention

/-- PRESENCE (R28, R33, R36 to R38, R40, R110, R117, R119); a station state outside its list leaves it ignored (log 11). -/
def onPresence (h : Header) (b : PresenceBody) (s : State) : State :=
  match stationOf? s h.src, StationState.ofCode? b.state with
  | some k, some st =>
    if actsOnPresence s.memb.state then
      let s := recordPresence k st b s
      match s.memb.state with
      | .live => livePresence k st b s
      | .listening => listeningPresence k st b s
      | .catchup => catchUpPresence k b s
      | _ => s
    else s
  | _, _ => s

/-! ## JOIN (R29, R40) -/

/-- The states that act on JOIN and EXPEL (R22). -/
def actsOnJoin (st : StationState) : Bool :=
  match st with
  | .listening | .catchup | .live => true
  | _ => false

/-- What a taken JOIN brings about beyond the live set and the record (R29, R40). -/
def joinTaken (k : StationId) (hadDuty : Bool) (s : State) : State :=
  if k = self s then enterLive s
  else
    match s.memb.state with
    | .live => liveSetChanged hadDuty (setSilence s k .running)
    | .listening => founderCheck s
    | _ => s

/-- The own JOIN has not been taken (R29, R118). -/
def joinRefused (k : StationId) (s : State) : State :=
  if k = self s ∧ inCatchup s = true ∧ s.catchUp.phase ≠ .idle then failAttempt s else s

/-- JOIN with the founding flag clear (R29). -/
def onJoin (h : Header) (b : JoinBody) (s : State) : State :=
  match stationOf? s h.src with
  | none => s
  | some k =>
    if !actsOnJoin s.memb.state then s
    else if !isMember s k && b.check == s.dir.cabinetCheck then
      let hadDuty := duty s
      let s' := { s with memb := { s.memb with live := setAdd s.memb.live k.val } }
      joinTaken k hadDuty (recordJoin s k b s')
    else joinRefused k s

/-- The own founding JOIN has been ignored: CATCHUP as item 1 of R39 gives (R40). -/
def foundingIgnored (k : StationId) (s : State) : State :=
  if k = self s ∧ s.memb.state = .listening then enterCatchupFromListening s else s

/-- JOIN with the founding flag set (R40). -/
def onJoinFounding (h : Header) (b : JoinBody) (s : State) : State :=
  match stationOf? s h.src with
  | none => s
  | some k =>
    if !actsOnJoin s.memb.state then s
    else if s.memb.live = 0#8 ∧ b.check = s.dir.cabinetCheck then
      let s' := { s with memb := { s.memb with live := setAdd 0#8 k.val } }
      joinTaken k false (recordJoin s k b s')
    else foundingIgnored k s

/-! ## EXPEL (R30, R31) -/

/-- The effects of a member's removal that R30 gives for CATCHUP and LIVE, with the EXPEL(SILENT) queued for it withdrawn (R33). -/
def removeMember (k : StationId) (s : State) : State :=
  let s := { s with memb := { s.memb with live := setDel s.memb.live k.val } }
  let s := expelFromLines k (expelFromRounds k s)
  retract (isSilentExpelOf k) (setSilence s k .stopped)

/-- The station after its own removal, its work dropped: out of LIVE's leaving condition, its queue purged, its jobs, rounds,
assemblies and pull queue gone (R19, R31, R87, R104, R113, R154, R172). -/
def removedSelf (s : State) : State :=
  let s := dropJobs (purge s)
  { s with
    memb := { s.memb with leaving := false, watches := Vector.replicate 8 .stopped }
    rounds := roundsRemoved s.rounds
    cust := { s.cust with areas := Vector.replicate 2 none }
    catchUp := { s.catchUp with serve := [] } }

/-- The EXPEL that removes the station itself (R31): a warm start for RESTART or an outstanding RESTART, else CATCHUP, the LOST
reports queued after the purge (R87, R104; log 17). -/
def selfRemoved (reason : ExpelReason) (s : State) : State :=
  let restart := reason == .restart || s.memb.restartOutstanding
  let reports := lostReports s ++ areaLostReports s.cust
  let s := removedSelf s
  let s := { s with memb := { s.memb with restartOutstanding := false } }
  if restart then warmStart false s
  else
    let s := { s with memb := { s.memb with state := .catchup } }
    nextAttempt none (reports.foldl (fun s f => request f s) s)

/-- An EXPEL that removes a member, by state (R30, R31, R119). -/
def expelMember (k : StationId) (reason : ExpelReason) (s : State) : State :=
  match s.memb.state with
  | .listening => { s with memb := { s.memb with live := setDel s.memb.live k.val } }
  | .catchup =>
    let s := removeMember k s
    if s.catchUp.source = some k then findFailure .sourceLost s else s
  | .live =>
    let hadDuty := duty s
    let s := removeMember k s
    if k = self s then selfRemoved reason s else liveSetChanged hadDuty s
  | _ => s

/-- EXPEL (R30); one naming no member, or with a reason outside its list, is ignored (log 11). -/
def onExpel (node reason : Byte) (s : State) : State :=
  match (indexOf? 8 node : Option StationId), ExpelReason.ofCode? reason with
  | some k, some r => if isMember s k then expelMember k r s else s
  | _, _ => s

/-! ## ZERO (R181) -/

/-- ZERO: from another station it zeroises the receiver with cause PEER, unless it is ZEROISED already (R25, R181); a cause outside
its list leaves it ignored (log 11). -/
def onZero (h : Header) (cause : Byte) (s : State) : State :=
  match stationOf? s h.src with
  | none => s
  | some k =>
    if zeroCauseListed cause && k != self s && s.memb.state != .zeroised then zeroise (.peer k) none s else s

end Sys2Proof.Machine
end

