-- ==== Sys2Proof/Machine/Ops.lean ====
section
/-! DEFINITION. The shared operations every command goes through: the end of a step, the receive filter with the owning block's part
of it, and the station's own transmitter (R1, R4 to R13, R22, R188). -/

namespace Sys2Proof.Machine

/-! ## The end of a step (log 10) -/

/-- What blocks still have to do when a step's event has been applied: assembled keys take room and the head item is checked, posted
positions are considered, queries are served (R64, R103, R129, R130, R188). -/
def settle (s : State) : State := serveQueries (considerPosted (custodyWork s))

/-! ## Queries (R188) -/

/-- A QUERY joins the query queue, or is dropped and counted when 4 wait (R188). -/
def onQuery (h : Header) (tag : Half) (arg : QueryArg) (s : State) : State :=
  if Config.queryEntries ≤ s.rep.queries.length then { s with rep := { s.rep with dropped := raise16 s.rep.dropped } }
  else { s with rep := { s.rep with queries := s.rep.queries ++ [⟨h.src, tag, arg⟩] } }

/-- The argument of a QUERY body; none for a kind or a selector outside its list (R188, R193; log 11). The kinds 6 to 9, which only
a REPORT has, count as outside (log 68). -/
def queryArg? (kind : Byte) (arg : List Byte) : Option QueryArg :=
  match kind.toNat with
  | 1 => some .identity
  | 2 => some .status
  | 3 =>
    match (byteAt 0 arg).toNat with
    | 0 => some (.slot (.byNumber (byteAt 1 arg)))
    | 1 => some (.slot (.byLabel (labelAt 1 arg)))
    | _ => none
  | 4 => some (.line (byteAt 0 arg) (byteAt 1 arg))
  | 5 => some .sensors
  | _ => none

/-- A QUERY by its kind byte. -/
def onQueryFrame (h : Header) (tag : Half) (kind : Byte) (arg : List Byte) (s : State) : State :=
  match queryArg? kind arg with
  | none => s
  | some a => onQuery h tag a s

/-- A frame no block acts on: ANSWER and REPORT at a station (R11). -/
def passedOver (s : State) : State := s

/-! ## The owning block (R22) -/

/-- The kinds a station state acts on (R22). -/
def actsOn (st : StationState) (f : Frame) : Bool :=
  match st with
  | .strapFault | .retention => false
  | .blank =>
    match f with
    | .presence _ | .zero _ | .component _ | .query _ _ _ => true
    | _ => false
  | .listening =>
    match f with
    | .presence _ | .join _ _ | .expel _ _ | .zero _ | .order _ _ | .query _ _ _ => true
    | _ => false
  | .catchup | .live => true
  | .detached =>
    match f with
    | .presence _ | .zero _ | .order _ _ | .query _ _ _ => true
    | _ => false
  | .zeroised =>
    match f with
    | .presence _ | .zero _ | .query _ _ _ => true
    | _ => false

/-- What the owning block does with a frame the filter hands it. -/
def deliver (h : Header) (f : Frame) (s : State) : State :=
  match f with
  | .zero cause => onZero h cause s
  | .presence b => onPresence h b s
  | .join false b => onJoin h b s
  | .join true b => onJoinFounding h b s
  | .expel node reason => onExpel node reason s
  | .claim b => onClaim h b s
  | .decline pos reason => onDecline pos reason s
  | .unclaimed pos => onUnclaimed pos s
  | .cancel line position => onCancel h line position s
  | .propose b => onPropose h b s
  | .roundBody number material check => onBody h number material check s
  | .accept proposer number => onAccept h proposer number s
  | .refuse proposer number reason => onRefuse h proposer number reason s
  | .commit number seq version => onCommit h number seq version s
  | .abandon number reason => onAbandon h number reason s
  | .order kind b => onOrder h kind b s
  | .component b => onComponent h b s
  | .openLine line => onOpen h line s
  | .close b => onClose h b s
  | .cleared b => onCleared h b s
  | .job b => onJob h b s
  | .batch b => onBatch h b s
  | .cards b => onCards h b s
  | .answer _ => passedOver s
  | .final b => onFinal h b s
  | .pull area start => onPull h area start s
  | .image area item seq contents => onImage h area item seq contents s
  | .query tag kind arg => onQueryFrame h tag kind arg s
  | .report _ => passedOver s

/-! ## The receive filter (R7, R11 to R13) -/

/-- A frame has been received intact: its slot is driven, and it has a place in wire order (R7). -/
def receivedIntact (s : State) : State :=
  { s with wirePlace := s.wirePlace + 1, link := { s.link with slotDriven := true } }

/-- The receipt slot is left undriven: a frame not received intact, or one that ends while the station is off the link (R1, R7). -/
def slotUndriven (s : State) : State := { s with link := { s.link with slotDriven := false } }

/-- A misplaced frame is ignored and counted (R12). -/
def countMisplaced (s : State) : State := { s with link := { s.link with misplaced := raise16 s.link.misplaced } }

/-- A frame of a station that is not a member is ignored and counted (R13). -/
def countNonMember (s : State) : State := { s with link := { s.link with nonMember := raise16 s.link.nonMember } }

/-- A gateway's frame restarts its watch in CATCHUP and LIVE, whatever its kind and destination (R124, R137; log 15). -/
def noteGateway (h : Header) (s : State) : State :=
  if applies s && roleOf (stationCount s) h.src == .gateway then gatewayHeard h.src s else s

/-- Addressed to another node: passed over without counting (R11). -/
def passesOver (s : State) (h : Header) : Bool := !h.dst.broadcast && h.dst.node != ownNode s

/-- The membership test fails: in CATCHUP or LIVE, a station frame that acts on the cabinet state from outside the live set (R13). -/
def failsMembership (s : State) (h : Header) (f : Frame) : Bool :=
  applies s && roleOf (stationCount s) h.src == .station && frameNeedsMember f && !setHas s.memb.live h.src.val

/-- The tests after form, and the hand-over to the owning block's handler in the states that act on the kind (R11, R13, R22). -/
def handOver (h : Header) (f : Frame) (handler : State → State) (s : State) : State :=
  let s := noteGateway h s
  if passesOver s h then s
  else if failsMembership s h f then countNonMember s
  else if actsOn s.memb.state f then handler s
  else s

/-- The receive filter over a frame received intact, self-delivered frames included (R9, R11 to R13). A station in STRAP_FAULT or
RETENTION takes no frame and drives no slot (R1, R7). A misplaced frame is counted also where it is addressed to another node
(log 64). -/
def filterFrame (h : Header) (f : Frame) (handler : State → State) (s : State) : State :=
  if onLink s then
    if frameMisplaced f (stationCount s) h then countMisplaced (receivedIntact s)
    else handOver h f handler (receivedIntact s)
  else slotUndriven s

/-- A frame command: the filter, the handler, the end of the step. -/
def receive (h : Header) (f : Frame) (handler : State → State) (s : State) : State := settle (filterFrame h f handler s)

/-! ## Receive errors and raw frames (R10, R12) -/

/-- What the membership unit does with a receive error (R10). -/
def receiveErrorFound (s : State) : State :=
  match s.memb.state with
  | .live => selfExpel .receiveError s
  | .catchup => findFailure .receiveError s
  | _ => s

/-- A receive error: counted, the slot left undriven, reported to the membership unit (R10). -/
def receiveError (s : State) : State :=
  if onLink s then
    receiveErrorFound
      { s with link := { s.link with receiveErrors := raise16 s.link.receiveErrors, slotDriven := false } }
  else slotUndriven s

/-- A frame given by its bits: a body above 96 bytes is a receive error (R10); bits that spell no well-formed frame are misplaced; a
frame that fits is delivered as what it is (R12; log 36). -/
def receiveRaw (r : RawFrame) (s : State) : State :=
  if Config.maxBody < r.body.length then receiveError s
  else
    match rawFrame? r with
    | none => if onLink s then countMisplaced (receivedIntact s) else slotUndriven s
    | some f => filterFrame (rawHeader r) f (deliver (rawHeader r) f) s

/-! ## The own transmitter (R4 to R9) -/

def setBus (s : State) (b : Bus) : State := { s with link := { s.link with bus := b } }

/-- A bus idle: the station joins the contention with its candidate (R4). -/
def contend (s : State) : State :=
  match s.link.bus with
  | .idle =>
    if onLink s then
      match candidate s with
      | none => s
      | some c => setBus s (.contending c)
    else s
  | _ => s

/-- A withdrawal that was refused leaves no request behind (R18). -/
def refuseHeld (f : TxFrame) (s : State) : State :=
  match f with
  | .propose _ => setOwn s { s.rounds.own with onWithdrawn := none }
  | _ => s

/-- The candidate has won: its fields are fetched and it is in transmission (R5, R16); a held request is refused (R18, R19). -/
def winArbitration (c : Candidate) (s : State) : State :=
  match c with
  | .alarm =>
    match s.link.alarm with
    | none => setBus s .idle
    | some cause => setBus s (.sending .alarm ⟨true, 0⟩ (.zero cause.code))
  | .presence => setBus s (.sending .presence ⟨true, 0⟩ (.presence (presenceBody s)))
  | .entry age =>
    match entryOf s.link age with
    | none => setBus s .idle
    | some e =>
      let s := refuseHeld e.frame (beforeFetch e.frame s)
      setBus { s with link := clearHold s.link age } (.sending (.entry age) (txDest e.frame) (fetchFrame s e.frame))

/-- What a producer does when a held withdrawal has been taken (R18, R40, R67, R118, R145, R152). -/
def withdrawn (f : TxFrame) (s : State) : State :=
  match f with
  | .claim b => returnClaim b.pos s
  | .propose _ => proposeWithdrawn s
  | .join true => if s.memb.state = .listening then enterCatchupFromListening s else s
  | .join false => if inCatchup s then failAttempt s else s
  | .final job _ => finalWithdrawn job s
  | _ => s

/-- The candidate has lost: it stays in place, unless a held withdrawal or purge now frees its entry (R5, R18, R19). -/
def loseArbitration (c : Candidate) (s : State) : State :=
  let s := setBus s .idle
  match c with
  | .alarm | .presence => s
  | .entry age =>
    match entryOf s.link age with
    | none => s
    | some e =>
      match e.hold with
      | .none => s
      | .purge => fillQueue { s with link := freeEntry s.link age }
      | .withdraw => withdrawn e.frame (fillQueue { s with link := freeEntry s.link age })

/-- The end of the arbitration field (R5). -/
def endArbitration (won : Bool) (s : State) : State :=
  match s.link.bus with
  | .contending c => if won then winArbitration c s else loseArbitration c s
  | _ => s

/-- The sent frame's register is emptied, or its entry freed (R8, R16, R17). -/
def releaseSent (c : Candidate) (l : Link) : Link :=
  match c with
  | .alarm => { l with alarm := none }
  | .presence => { l with presence := ⟨l.presence.reload, false⟩ }
  | .entry age => freeEntry l age

/-- The completion notice's effect at the producer (R8, R111, R113, R145, R171). -/
def completed (f : TxFrame) (receipt : NodeMap) (s : State) : State :=
  match f with
  | .claim b => if (findClaiming s b.pos).isSome then returnClaim b.pos s else s
  | .answer job gateway number _ => answerSent job gateway number receipt s
  | .final job b => finalSent job (nodeOf b.pos.gateway) receipt s
  | .pull _ _ _ stale => pullSent stale s
  | .image puller area item => imageSent puller area item s
  | _ => s

/-- The queued frame a candidate stands for. -/
def sentFrame (c : Candidate) (l : Link) : Option TxFrame :=
  match c with
  | .entry age => (entryOf l age).map (·.frame)
  | _ => none

/-- The own frame has been sent: its entry or register is free, it is self-delivered, its producer is notified (R8, R9; log 9). -/
def frameCompleted (receipt : NodeMap) (s : State) : State :=
  match s.link.bus with
  | .sending c dst f =>
    let producer := sentFrame c s.link
    let h : Header := ⟨ownNode s, dst⟩
    let s := fillQueue { s with link := releaseSent c { s.link with bus := .idle } }
    let s := filterFrame h f (deliver h f) s
    match producer with
    | none => s
    | some t => completed t receipt s
  | _ => s

/-- An abort: the own frame in transmission stays in place; another's is discarded (R6). No slot is driven (R7). -/
def abortFrame (s : State) : State :=
  let s := slotUndriven s
  if onLink s then
    match s.link.bus with
    | .sending _ _ _ => setBus s .idle
    | _ => s
  else s

/-! ## Input levels (log 3) -/

/-- The pin levels a command's step samples (R174, R187). -/
def takePins (p : Pins) (s : State) : State := { s with inputs := { s.inputs with pins := p } }

end Sys2Proof.Machine
end

