-- ==== Sys2Proof/Machine/BusCommands.lean ====
section
/-! DEFINITION. Meanings of the commands of the own transmitter and the bus (R4 to R12). -/

namespace Sys2Proof.Machine

/-- CONTENTION (R4). -/
def execContention (s : State) : Host.Outcome State Fault Refusal := .next (contend s)

/-- ARBITRATION_END (R5, R16, R18, R19). -/
def execArbitrationEnd (won : Bool) (s : State) : Host.Outcome State Fault Refusal := .next (settle (endArbitration won s))

/-- FRAME_SENT with the receipt map the transmitter has read (R8, R9). -/
def execFrameSent (receipt : NodeMap) (pins : Pins) (s : State) : Host.Outcome State Fault Refusal :=
  .next (settle (frameCompleted receipt (takePins pins s)))

/-- ABORT (R6). -/
def execAbort (s : State) : Host.Outcome State Fault Refusal := .next (abortFrame s)

/-- RECEIVE_ERROR (R10). -/
def execReceiveError (s : State) : Host.Outcome State Fault Refusal := .next (settle (receiveError s))

/-- MISPLACED_FRAME: a frame given by its bits (R12). -/
def execMisplacedFrame (raw : RawFrame) (s : State) : Host.Outcome State Fault Refusal := .next (settle (receiveRaw raw s))

end Sys2Proof.Machine
end

