-- ==== Sys2Proof/Machine/CatchUpCommands.lean ====
section
/-! DEFINITION. Meanings of the catch-up frames and timers, of the queries, and of REPORT at a station (chapters 6 and 11). -/

namespace Sys2Proof.Machine

/-- PULL (R113). -/
def execPull (h : Header) (area start : Byte) (s : State) : Host.Outcome State Fault Refusal :=
  .next (receive h (.pull area start) (onPull h area start) s)

/-- IMAGE (R114 to R116). -/
def execImage (h : Header) (area item : Byte) (seq : Word) (contents : List Byte) (s : State) :
    Host.Outcome State Fault Refusal :=
  .next (receive h (.image area item seq contents) (onImage h area item seq contents) s)

/-- QUERY_IDENTITY (R188). -/
def execQueryIdentity (h : Header) (tag : Half) (s : State) : Host.Outcome State Fault Refusal :=
  .next (receive h (.query tag 1#8 []) (onQuery h tag .identity) s)

/-- QUERY_STATUS (R188). -/
def execQueryStatus (h : Header) (tag : Half) (s : State) : Host.Outcome State Fault Refusal :=
  .next (receive h (.query tag 2#8 []) (onQuery h tag .status) s)

/-- A SLOT query's argument bytes (R193). -/
def selectorBytes : SlotSelector → List Byte
  | .byNumber slot => [0#8, slot]
  | .byLabel label => 1#8 :: labelBytes label

/-- QUERY_SLOT (R188). -/
def execQuerySlot (h : Header) (tag : Half) (sel : SlotSelector) (s : State) : Host.Outcome State Fault Refusal :=
  .next (receive h (.query tag 3#8 (selectorBytes sel)) (onQuery h tag (.slot sel)) s)

/-- QUERY_LINE (R188). -/
def execQueryLine (h : Header) (tag : Half) (gateway line : Byte) (s : State) : Host.Outcome State Fault Refusal :=
  .next (receive h (.query tag 4#8 [gateway, line]) (onQuery h tag (.line gateway line)) s)

/-- QUERY_SENSORS (R188). -/
def execQuerySensors (h : Header) (tag : Half) (s : State) : Host.Outcome State Fault Refusal :=
  .next (receive h (.query tag 5#8 []) (onQuery h tag .sensors) s)

/-- REPORT: received and passed over by every station (R11). -/
def execReport (h : Header) (body : List Byte) (s : State) : Host.Outcome State Fault Refusal :=
  .next (receive h (.report body) passedOver s)

/-- PULL_TIMER_EXPIRY (R112). -/
def execPullTimerExpiry (s : State) : Host.Outcome State Fault Refusal := .next (settle (pullTimedOut s))

/-- VERIFICATION_TIMER_EXPIRY (R110, R117). -/
def execVerificationTimerExpiry (s : State) : Host.Outcome State Fault Refusal := .next (settle (verificationTimedOut s))

end Sys2Proof.Machine
end

