-- ==== Sys2Proof/Machine/CustodyCommands.lean ====
section
/-! DEFINITION. Meanings of the custody frames and of the assembly timeout (chapter 5). -/

namespace Sys2Proof.Machine

/-- ORDER_ACTIVATE (R90 to R93). -/
def execOrderActivate (h : Header) (b : OrderBody) (s : State) : Host.Outcome State Fault Refusal :=
  .next (receive h (.order codeActivate b) (onOrderActivate h b) s)

/-- ORDER_SUSPEND (R90 to R93). -/
def execOrderSuspend (h : Header) (b : OrderBody) (s : State) : Host.Outcome State Fault Refusal :=
  .next (receive h (.order codeSuspend b) (onOrderSuspend h b) s)

/-- ORDER_RESUME (R90 to R94). -/
def execOrderResume (h : Header) (b : OrderBody) (s : State) : Host.Outcome State Fault Refusal :=
  .next (receive h (.order codeResume b) (onOrderResume h b) s)

/-- ORDER_RETIRE (R90 to R94). -/
def execOrderRetire (h : Header) (b : OrderBody) (s : State) : Host.Outcome State Fault Refusal :=
  .next (receive h (.order codeRetire b) (onOrderRetire h b) s)

/-- ORDER_DESTROY (R90 to R94). -/
def execOrderDestroy (h : Header) (b : OrderBody) (s : State) : Host.Outcome State Fault Refusal :=
  .next (receive h (.order codeDestroy b) (onOrderDestroy h b) s)

/-- ORDER_EDIT (R90 to R94). -/
def execOrderEdit (h : Header) (b : OrderBody) (s : State) : Host.Outcome State Fault Refusal :=
  .next (receive h (.order codeEdit b) (onOrderEdit h b) s)

/-- ORDER_WINDOW_OPEN (R90 to R107). -/
def execOrderWindowOpen (h : Header) (b : OrderBody) (s : State) : Host.Outcome State Fault Refusal :=
  .next (receive h (.order codeWindowOpen b) (onOrderWindowOpen h b) s)

/-- ORDER_WINDOW_CLOSE (R90 to R107). -/
def execOrderWindowClose (h : Header) (b : OrderBody) (s : State) : Host.Outcome State Fault Refusal :=
  .next (receive h (.order codeWindowClose b) (onOrderWindowClose h b) s)

/-- ORDER_ERASE (R90 to R98). -/
def execOrderErase (h : Header) (b : OrderBody) (s : State) : Host.Outcome State Fault Refusal :=
  .next (receive h (.order codeErase b) (onOrderErase h b) s)

/-- ORDER_RESTART (R96, R99); the warm start samples the pins (R187). -/
def execOrderRestart (h : Header) (b : OrderBody) (pins : Pins) (s : State) : Host.Outcome State Fault Refusal :=
  .next (receive h (.order codeRestart b) (onOrderRestart h b) (takePins pins s))

/-- ORDER_YIELD (R97, R99); the warm start samples the pins (R187). -/
def execOrderYield (h : Header) (b : OrderBody) (pins : Pins) (s : State) : Host.Outcome State Fault Refusal :=
  .next (receive h (.order codeYield b) (onOrderYield h b) (takePins pins s))

/-- ORDER_UNKNOWN_KIND: a kind code outside 2 to 12 (R90). -/
def execOrderUnknownKind (h : Header) (kind : Byte) (b : OrderBody) (s : State) : Host.Outcome State Fault Refusal :=
  .next (receive h (.order kind b) (onOrderUnknown h kind b) s)

/-- COMPONENT_SLOT (R101 to R103). -/
def execComponentSlot (h : Header) (b : ComponentBody) (s : State) : Host.Outcome State Fault Refusal :=
  .next (receive h (.component b) (onComponentSlot h b) s)

/-- COMPONENT_CABINET (R106). -/
def execComponentCabinet (h : Header) (b : ComponentBody) (s : State) : Host.Outcome State Fault Refusal :=
  .next (receive h (.component b) (onComponentCabinet h b) s)

/-- ASSEMBLY_TIMEOUT (R104). -/
def execAssemblyTimeout (a : AreaId) (s : State) : Host.Outcome State Fault Refusal := .next (settle (areaTimeout a s))

end Sys2Proof.Machine
end

