-- ==== Sys2Proof/Machine/InputCommands.lean ====
section
/-! DEFINITION. Meanings of the commands at the inputs and the supply (R24, R174 to R180, R184, R185). -/

namespace Sys2Proof.Machine

/-- A cold start at the return of the supply: the mark is clear, or the assertion came in STRAP_FAULT (R23, R185). -/
def supplyToRetained (s : State) : State :=
  if !s.tamper.storeValid then coldStart s
  else if s.memb.retainedZeroised then returnZeroised s
  else warmStart false s

/-- SUPPLY_RETURN (R185): in RETENTION, and in STRAP_FAULT after an assertion taken there (R23); elsewhere no effect. -/
def execSupplyReturn (pins : Pins) (s : State) : Host.Outcome State Fault Refusal :=
  let s := takePins pins s
  .next (settle
    (match s.memb.state with
     | .retention => supplyToRetained s
     | .strapFault => if s.inputs.powerFail then coldStart s else s
     | _ => s))

/-- POWER_FAIL (R184): RETENTION is entered, except from STRAP_FAULT, where the store is not kept (R23, R184; log 26), and in RETENTION,
where a further assertion has no effect (R185). -/
def execPowerFail (pins : Pins) (s : State) : Host.Outcome State Fault Refusal :=
  let s := takePins pins s
  .next (settle
    (match s.memb.state with
     | .retention => s
     | .strapFault => { s with
         inputs := { s.inputs with powerFail := true }, tamper := { s.tamper with storeValid := false } }
     | _ => enterRetention { s with inputs := { s.inputs with powerFail := true } }))

/-- CLEAR_ASSERTED: a change from released to asserted takes a ZEROISED station to BLANK (R24). -/
def execClearAsserted (s : State) : Host.Outcome State Fault Refusal :=
  if s.inputs.clear then .next s
  else
    let s := { s with inputs := { s.inputs with clear := true } }
    .next (settle (if s.memb.state = .zeroised then clearToBlank s else s))

/-- CLEAR_RELEASED: the next assertion is taken (R24). -/
def execClearReleased (s : State) : Host.Outcome State Fault Refusal :=
  .next { s with inputs := { s.inputs with clear := false } }

/-- RETAINED_STORE_POWER_LOSS: while the main supply is away the store loses power and its validity mark clears (R185; log 25). -/
def execRetainedStorePowerLoss (s : State) : Host.Outcome State Fault Refusal :=
  .next (if s.memb.state = .retention then { s with tamper := { s.tamper with storeValid := false } } else s)

/-- The door switch as a sample of D reads it (log 3). -/
def noteDoor (ch : Channel) (reading : BitVec 10) (s : State) : State :=
  match ch with
  | .D => { s with inputs := { s.inputs with pins := { s.inputs.pins with doorOpen := reading != 0#10 } } }
  | _ => s

/-- A channel's sample and the TAMPER it may declare (R174 to R180). -/
def sampleChannel (ch : Channel) (reading : BitVec 10) (s : State) : State :=
  let r := takeSample ch (sampleValue ch reading) (channelOf s.tamper ch)
  let s := { s with tamper := setChannel s.tamper ch r.1 }
  if r.2 then declareTamper ch s else s

/-- CHANNEL_SAMPLE (R174 to R177, R180). -/
def execChannelSample (ch : Channel) (reading : BitVec 10) (s : State) : Host.Outcome State Fault Refusal :=
  let s := noteDoor ch reading s
  .next (settle (if monitorPowered s then sampleChannel ch reading s else s))

/-- WINDOW_EXPIRY: the remaining time of an OPEN window has reached 0 (R178, R179). -/
def execWindowExpiry (s : State) : Host.Outcome State Fault Refusal := .next (settle (closeWindow s))

end Sys2Proof.Machine
end

