-- ==== Sys2Proof/Machine/LineCommands.lean ====
section
/-! DEFINITION. Meanings of the settlement and line frames, of the line table's and the pool's expiries and of the engine's completion
(chapters 7 to 9). -/

namespace Sys2Proof.Machine

/-- CLAIM (R132, R133). -/
def execClaim (h : Header) (b : ClaimBody) (s : State) : Host.Outcome State Fault Refusal :=
  .next (receive h (.claim b) (onClaim h b) s)

/-- DECLINE (R132). -/
def execDecline (h : Header) (pos : PosRef) (reason : Byte) (s : State) : Host.Outcome State Fault Refusal :=
  .next (receive h (.decline pos reason) (onDecline pos reason) s)

/-- UNCLAIMED (R132). -/
def execUnclaimed (h : Header) (pos : PosRef) (s : State) : Host.Outcome State Fault Refusal :=
  .next (receive h (.unclaimed pos) (onUnclaimed pos) s)

/-- CANCEL (R134, R149). -/
def execCancel (h : Header) (line position : Byte) (s : State) : Host.Outcome State Fault Refusal :=
  .next (receive h (.cancel line position) (onCancel h line position) s)

/-- OPEN (R125). -/
def execOpen (h : Header) (line : Byte) (s : State) : Host.Outcome State Fault Refusal :=
  .next (receive h (.openLine line) (onOpen h line) s)

/-- CLOSE, from a gateway or a station (R136). -/
def execClose (h : Header) (b : CloseBody) (s : State) : Host.Outcome State Fault Refusal :=
  .next (receive h (.close b) (onClose h b) s)

/-- CLEARED (R138). -/
def execCleared (h : Header) (b : ClearedBody) (s : State) : Host.Outcome State Fault Refusal :=
  .next (receive h (.cleared b) (onCleared h b) s)

/-- JOB (R126). -/
def execJob (h : Header) (b : JobBody) (s : State) : Host.Outcome State Fault Refusal :=
  .next (receive h (.job b) (onJob h b) s)

/-- BATCH (R126). -/
def execBatch (h : Header) (b : BatchBody) (s : State) : Host.Outcome State Fault Refusal :=
  .next (receive h (.batch b) (onBatch h b) s)

/-- CARDS (R147). -/
def execCards (h : Header) (b : CardsBody) (s : State) : Host.Outcome State Fault Refusal :=
  .next (receive h (.cards b) (onCards h b) s)

/-- ANSWER: received and passed over by every station (R11). -/
def execAnswer (h : Header) (body : List Byte) (s : State) : Host.Outcome State Fault Refusal :=
  .next (receive h (.answer body) passedOver s)

/-- FINAL (R135). -/
def execFinal (h : Header) (b : FinalBody) (s : State) : Host.Outcome State Fault Refusal :=
  .next (receive h (.final b) (onFinal h b) s)

/-- DEFERRAL_TIMER_EXPIRY (R129). -/
def execDeferralTimerExpiry (l : LineId) (p : PosId) (s : State) : Host.Outcome State Fault Refusal :=
  .next (settle (deferralExpired l p s))

/-- UNCLAIMED_DEADLINE_EXPIRY (R131). -/
def execUnclaimedDeadlineExpiry (l : LineId) (p : PosId) (s : State) : Host.Outcome State Fault Refusal :=
  .next (settle (unclaimedExpired l p s))

/-- GATEWAY_WATCH_EXPIRY (R137). -/
def execGatewayWatchExpiry (g : Node) (s : State) : Host.Outcome State Fault Refusal := .next (settle (gatewayExpired g s))

/-- CARD_GAP_DEADLINE_EXPIRY: of a job still in LOADING (R148). -/
def execCardGapDeadlineExpiry (d : DescId) (s : State) : Host.Outcome State Fault Refusal :=
  .next (settle
    (if (descOf s d).gapRunning && s.pool.loading.contains d then endLoading .cardsTimeout s d else s))

/-- CARD_COMPLETION (R162, R163). -/
def execCardCompletion (s : State) : Host.Outcome State Fault Refusal := .next (settle (completeCard s))

end Sys2Proof.Machine
end

