-- ==== Sys2Proof/Machine/MembershipCommands.lean ====
section
/-! DEFINITION. Meanings of the membership frames and of the membership unit's own events (chapter 2, R181). -/

namespace Sys2Proof.Machine

/-- ZERO (R181). -/
def execZero (h : Header) (cause : Byte) (s : State) : Host.Outcome State Fault Refusal :=
  .next (receive h (.zero cause) (onZero h cause) s)

/-- PRESENCE (R28). -/
def execPresence (h : Header) (b : PresenceBody) (s : State) : Host.Outcome State Fault Refusal :=
  .next (receive h (.presence b) (onPresence h b) s)

/-- JOIN with the founding flag clear (R29). -/
def execJoin (h : Header) (b : JoinBody) (s : State) : Host.Outcome State Fault Refusal :=
  .next (receive h (.join false b) (onJoin h b) s)

/-- JOIN with the founding flag set (R40). -/
def execJoinFounding (h : Header) (b : JoinBody) (s : State) : Host.Outcome State Fault Refusal :=
  .next (receive h (.join true b) (onJoinFounding h b) s)

/-- EXPEL (R30, R31); a warm start it causes samples the pins (R187). -/
def execExpel (h : Header) (node reason : Byte) (pins : Pins) (s : State) : Host.Outcome State Fault Refusal :=
  .next (receive h (.expel node reason) (onExpel node reason) (takePins pins s))

/-- PRESENCE_LOAD: the 50 ms period (R16, R27). -/
def execPresenceLoad (s : State) : Host.Outcome State Fault Refusal :=
  .next (if s.memb.presenceLoading then { s with link := loadPresence s.link } else s)

/-- SILENCE_WATCH_EXPIRY (R33). -/
def execSilenceWatchExpiry (k : StationId) (s : State) : Host.Outcome State Fault Refusal := .next (settle (silenceExpired k s))

/-- LISTENING_WINDOW_EXPIRY (R39). -/
def execListeningWindowExpiry (s : State) : Host.Outcome State Fault Refusal := .next (settle (listeningExpired s))

end Sys2Proof.Machine
end

