-- ==== Sys2Proof/Machine/RoundCommands.lean ====
section
/-! DEFINITION. Meanings of the round frames and of the proposer's deadline (chapter 4). -/

namespace Sys2Proof.Machine

/-- PROPOSE (R66, R67). -/
def execPropose (h : Header) (b : ProposeBody) (s : State) : Host.Outcome State Fault Refusal :=
  .next (receive h (.propose b) (onPropose h b) s)

/-- BODY (R68). -/
def execBody (h : Header) (number : Byte) (material : Key) (check : Check) (s : State) : Host.Outcome State Fault Refusal :=
  .next (receive h (.roundBody number material check) (onBody h number material check) s)

/-- ACCEPT (R74). -/
def execAccept (h : Header) (proposer number : Byte) (s : State) : Host.Outcome State Fault Refusal :=
  .next (receive h (.accept proposer number) (onAccept h proposer number) s)

/-- REFUSE (R74). -/
def execRefuse (h : Header) (proposer number reason : Byte) (s : State) : Host.Outcome State Fault Refusal :=
  .next (receive h (.refuse proposer number reason) (onRefuse h proposer number reason) s)

/-- COMMIT (R78 to R83); a close reading it causes reads the pins (R179). -/
def execCommit (h : Header) (number : Byte) (seq : Word) (version : Half) (pins : Pins) (s : State) :
    Host.Outcome State Fault Refusal :=
  .next (receive h (.commit number seq version) (onCommit h number seq version) (takePins pins s))

/-- ABANDON (R84). -/
def execAbandon (h : Header) (number reason : Byte) (s : State) : Host.Outcome State Fault Refusal :=
  .next (receive h (.abandon number reason) (onAbandon h number reason) s)

/-- ROUND_DEADLINE_EXPIRY (R76). -/
def execRoundDeadlineExpiry (s : State) : Host.Outcome State Fault Refusal := .next (settle (roundDeadline s))

end Sys2Proof.Machine
end

