-- ==== Sys2Proof/Machine/Dispatch.lean ====
section
/-! DEFINITION. The meaning of every command: one arm for each constructor of Instr. -/

namespace Sys2Proof.Machine

def exec (i : Instr) (s : State) : Host.Outcome State Fault Refusal :=
  match i with
  | .supplyReturn pins => Sys2Proof.Machine.execSupplyReturn pins s
  | .powerFail pins => Sys2Proof.Machine.execPowerFail pins s
  | .clearAsserted => Sys2Proof.Machine.execClearAsserted s
  | .contention => Sys2Proof.Machine.execContention s
  | .arbitrationEnd won => Sys2Proof.Machine.execArbitrationEnd won s
  | .frameSent receipt pins => Sys2Proof.Machine.execFrameSent receipt pins s
  | .abort => Sys2Proof.Machine.execAbort s
  | .receiveError => Sys2Proof.Machine.execReceiveError s
  | .misplacedFrame raw => Sys2Proof.Machine.execMisplacedFrame raw s
  | .zero h cause => Sys2Proof.Machine.execZero h cause s
  | .presence h b => Sys2Proof.Machine.execPresence h b s
  | .join h b => Sys2Proof.Machine.execJoin h b s
  | .joinFounding h b => Sys2Proof.Machine.execJoinFounding h b s
  | .expel h node reason pins => Sys2Proof.Machine.execExpel h node reason pins s
  | .claim h b => Sys2Proof.Machine.execClaim h b s
  | .decline h pos reason => Sys2Proof.Machine.execDecline h pos reason s
  | .unclaimed h pos => Sys2Proof.Machine.execUnclaimed h pos s
  | .cancel h line position => Sys2Proof.Machine.execCancel h line position s
  | .propose h b => Sys2Proof.Machine.execPropose h b s
  | .roundBody h number material check => Sys2Proof.Machine.execBody h number material check s
  | .accept h proposer number => Sys2Proof.Machine.execAccept h proposer number s
  | .refuse h proposer number reason => Sys2Proof.Machine.execRefuse h proposer number reason s
  | .commit h number seq version pins => Sys2Proof.Machine.execCommit h number seq version pins s
  | .abandon h number reason => Sys2Proof.Machine.execAbandon h number reason s
  | .orderActivate h b => Sys2Proof.Machine.execOrderActivate h b s
  | .orderSuspend h b => Sys2Proof.Machine.execOrderSuspend h b s
  | .orderResume h b => Sys2Proof.Machine.execOrderResume h b s
  | .orderRetire h b => Sys2Proof.Machine.execOrderRetire h b s
  | .orderDestroy h b => Sys2Proof.Machine.execOrderDestroy h b s
  | .orderEdit h b => Sys2Proof.Machine.execOrderEdit h b s
  | .orderWindowOpen h b => Sys2Proof.Machine.execOrderWindowOpen h b s
  | .orderWindowClose h b => Sys2Proof.Machine.execOrderWindowClose h b s
  | .orderRestart h b pins => Sys2Proof.Machine.execOrderRestart h b pins s
  | .orderYield h b pins => Sys2Proof.Machine.execOrderYield h b pins s
  | .orderErase h b => Sys2Proof.Machine.execOrderErase h b s
  | .orderUnknownKind h kind b => Sys2Proof.Machine.execOrderUnknownKind h kind b s
  | .componentSlot h b => Sys2Proof.Machine.execComponentSlot h b s
  | .componentCabinet h b => Sys2Proof.Machine.execComponentCabinet h b s
  | .openLine h line => Sys2Proof.Machine.execOpen h line s
  | .close h b => Sys2Proof.Machine.execClose h b s
  | .cleared h b => Sys2Proof.Machine.execCleared h b s
  | .job h b => Sys2Proof.Machine.execJob h b s
  | .batch h b => Sys2Proof.Machine.execBatch h b s
  | .cards h b => Sys2Proof.Machine.execCards h b s
  | .answer h body => Sys2Proof.Machine.execAnswer h body s
  | .final h b => Sys2Proof.Machine.execFinal h b s
  | .pull h area start => Sys2Proof.Machine.execPull h area start s
  | .image h area item seq contents => Sys2Proof.Machine.execImage h area item seq contents s
  | .queryIdentity h tag => Sys2Proof.Machine.execQueryIdentity h tag s
  | .queryStatus h tag => Sys2Proof.Machine.execQueryStatus h tag s
  | .querySlot h tag sel => Sys2Proof.Machine.execQuerySlot h tag sel s
  | .queryLine h tag gateway line => Sys2Proof.Machine.execQueryLine h tag gateway line s
  | .querySensors h tag => Sys2Proof.Machine.execQuerySensors h tag s
  | .report h body => Sys2Proof.Machine.execReport h body s
  | .presenceLoad => Sys2Proof.Machine.execPresenceLoad s
  | .silenceWatchExpiry k => Sys2Proof.Machine.execSilenceWatchExpiry k s
  | .listeningWindowExpiry => Sys2Proof.Machine.execListeningWindowExpiry s
  | .roundDeadlineExpiry => Sys2Proof.Machine.execRoundDeadlineExpiry s
  | .assemblyTimeout a => Sys2Proof.Machine.execAssemblyTimeout a s
  | .pullTimerExpiry => Sys2Proof.Machine.execPullTimerExpiry s
  | .verificationTimerExpiry => Sys2Proof.Machine.execVerificationTimerExpiry s
  | .deferralTimerExpiry l p => Sys2Proof.Machine.execDeferralTimerExpiry l p s
  | .unclaimedDeadlineExpiry l p => Sys2Proof.Machine.execUnclaimedDeadlineExpiry l p s
  | .gatewayWatchExpiry g => Sys2Proof.Machine.execGatewayWatchExpiry g s
  | .cardGapDeadlineExpiry d => Sys2Proof.Machine.execCardGapDeadlineExpiry d s
  | .channelSample ch reading => Sys2Proof.Machine.execChannelSample ch reading s
  | .windowExpiry => Sys2Proof.Machine.execWindowExpiry s
  | .cardCompletion => Sys2Proof.Machine.execCardCompletion s
  | .retainedStorePowerLoss => Sys2Proof.Machine.execRetainedStorePowerLoss s
  | .clearReleased => Sys2Proof.Machine.execClearReleased s

end Sys2Proof.Machine
end

