-- ==== Sys2Proof/Safety.lean ====
section
/-! DEFINITION. What statements about the station are written in: the parts of its state, the frame of a command, the conditions
under which a frame reaches the block that acts on it, and the properties that every step keeps. -/

namespace Sys2Proof.Machine

/-! ## The parts of the state -/

/-- The parts a frame condition speaks of: together they are all of State. -/
inductive Part where
  | inputs | straps
  | txQueue | presence | alarm | bus | slotDriven | receiveErrors | misplaced | nonMember
  | station | live | peers | heard | windowOpen | watches | leaving | yieldMark | retainedZeroised | presenceLoading
  | slots | usage | seq | cabinetKey
  | custodyQueue | ownRound | roundCounter | roundList
  | areas | record
  | pulling | attempts | serve
  | entries | locals | gatewayWatches | notice
  | pool
  | inFlight | ctx | segments | undelivered | preempted
  | channels | maintenance | causeRecord | retentionTrip | storeValid
  | queries | dropped
  | wirePlace | freeIndex | pending
  deriving DecidableEq, Repr

/-- A part is the same in two states. -/
def Part.same (p : Part) (s t : State) : Prop :=
  match p with
  | .inputs => t.inputs = s.inputs
  | .straps => t.straps = s.straps
  | .txQueue => t.link.queue = s.link.queue ∧ t.link.admissions = s.link.admissions ∧ t.link.nextAge = s.link.nextAge
  | .presence => t.link.presence = s.link.presence
  | .alarm => t.link.alarm = s.link.alarm
  | .bus => t.link.bus = s.link.bus
  | .slotDriven => t.link.slotDriven = s.link.slotDriven
  | .receiveErrors => t.link.receiveErrors = s.link.receiveErrors
  | .misplaced => t.link.misplaced = s.link.misplaced
  | .nonMember => t.link.nonMember = s.link.nonMember
  | .station => t.memb.state = s.memb.state ∧ t.memb.cause = s.memb.cause
  | .live => t.memb.live = s.memb.live
  | .peers => t.memb.peers = s.memb.peers
  | .heard => t.memb.heard = s.memb.heard
  | .windowOpen => t.memb.windowOpen = s.memb.windowOpen
  | .watches => t.memb.watches = s.memb.watches
  | .leaving => t.memb.leaving = s.memb.leaving ∧ t.memb.restartOutstanding = s.memb.restartOutstanding
  | .yieldMark => t.memb.yieldMark = s.memb.yieldMark
  | .retainedZeroised => t.memb.retainedZeroised = s.memb.retainedZeroised
  | .presenceLoading => t.memb.presenceLoading = s.memb.presenceLoading
  | .slots => t.dir.slots = s.dir.slots
  | .usage => t.dir.usage = s.dir.usage
  | .seq => t.dir.seq = s.dir.seq
  | .cabinetKey => t.dir.key = s.dir.key
  | .custodyQueue => t.rounds.queue = s.rounds.queue
  | .ownRound => t.rounds.own = s.rounds.own
  | .roundCounter => t.rounds.counter = s.rounds.counter
  | .roundList => t.rounds.list = s.rounds.list
  | .areas => t.cust.areas = s.cust.areas
  | .record => t.cust.record = s.cust.record
  | .pulling => { t.catchUp with attempts := 0#16, serve := [] } = { s.catchUp with attempts := 0#16, serve := [] }
  | .attempts => t.catchUp.attempts = s.catchUp.attempts
  | .serve => t.catchUp.serve = s.catchUp.serve
  | .entries => t.lines.entries = s.lines.entries
  | .locals => t.lines.locals = s.lines.locals
  | .gatewayWatches => t.lines.watches = s.lines.watches
  | .notice => t.lines.notice = s.lines.notice
  | .pool => t.pool = s.pool
  | .inFlight => t.engine.inFlight = s.engine.inFlight
  | .ctx => t.engine.ctx = s.engine.ctx
  | .segments => t.engine.segs = s.engine.segs
  | .undelivered => t.engine.undelivered = s.engine.undelivered
  | .preempted => t.engine.preempted = s.engine.preempted
  | .channels => t.tamper.channels = s.tamper.channels
  | .maintenance => t.tamper.window = s.tamper.window
  | .causeRecord => t.tamper.cause = s.tamper.cause
  | .retentionTrip => t.tamper.retentionTrip = s.tamper.retentionTrip
  | .storeValid => t.tamper.storeValid = s.tamper.storeValid
  | .queries => t.rep.queries = s.rep.queries
  | .dropped => t.rep.dropped = s.rep.dropped
  | .wirePlace => t.wirePlace = s.wirePlace
  | .freeIndex => t.freeIndex = s.freeIndex
  | .pending => t.pending = s.pending

/-- Every part outside a list is the same in two states: the frame of a command that may change the parts in the list. -/
def SameBut (changed : List Part) (s t : State) : Prop := ∀ p : Part, p ∉ changed → p.same s t

/-- What the end of a step may change on its own account (`settle`): a claim asked for or withdrawn with its resources (R129,
R130, R144, R145), a head item proposed or ended (R64, R86), an area that takes room (R103), a query served (R188), and the
transmit queue that all of them use. -/
def reacting : List Part :=
  [.txQueue, .segments, .custodyQueue, .ownRound, .roundCounter, .areas, .notice, .pool, .queries]

/-- What a station's frame changes besides its own effect: the receipt slot and the place in wire order (R7, R124). -/
def stationFrame : List Part := [.slotDriven, .wirePlace] ++ reacting

/-- A gateway's frame may also restart that gateway's watch (R124, R137). -/
def gatewayFrame : List Part := .gatewayWatches :: stationFrame

/-! ## Outcomes -/

/-- The command answers a next state, of which a property holds. -/
def Yields (c : Instr) (s : State) (P : State → Prop) : Prop := ∃ t, exec c s = .next t ∧ P t

/-! ## When a frame reaches its block -/

/-- The frame passes the receive filter's tests at the station, and the station state acts on its kind (R1, R11 to R13, R22). -/
def Reaches (s : State) (h : Header) (f : Frame) : Prop :=
  onLink s = true ∧ frameMisplaced f (stationCount s) h = false ∧ passesOver s h = false ∧ failsMembership s h f = false
    ∧ actsOn s.memb.state f = true

/-- The command that a custody order of a round kind is (R89). -/
def roundOrder (k : ChangeKind) (h : Header) (b : OrderBody) : Option Instr :=
  match k with
  | .importKey => none
  | .activate => some (.orderActivate h b)
  | .suspend => some (.orderSuspend h b)
  | .resume => some (.orderResume h b)
  | .retire => some (.orderRetire h b)
  | .destroy => some (.orderDestroy h b)
  | .edit => some (.orderEdit h b)
  | .windowOpen => some (.orderWindowOpen h b)
  | .windowClose => some (.orderWindowClose h b)

/-- The command that a custody order of any kind code is (R89, R90). -/
def orderCommand (kind : Byte) (h : Header) (b : OrderBody) (pins : Pins) : Instr :=
  match kind.toNat with
  | 2 => .orderActivate h b
  | 3 => .orderSuspend h b
  | 4 => .orderResume h b
  | 5 => .orderRetire h b
  | 6 => .orderDestroy h b
  | 7 => .orderEdit h b
  | 8 => .orderWindowOpen h b
  | 9 => .orderWindowClose h b
  | 10 => .orderRestart h b pins
  | 11 => .orderYield h b pins
  | 12 => .orderErase h b
  | _ => .orderUnknownKind h kind b

/-- The command that a query is (R188). -/
def queryCommand (h : Header) (tag : Half) (arg : QueryArg) : Instr :=
  match arg with
  | .identity => .queryIdentity h tag
  | .status => .queryStatus h tag
  | .slot sel => .querySlot h tag sel
  | .line gateway line => .queryLine h tag gateway line
  | .sensors => .querySensors h tag

/-- The QUERY frame of an argument (R193). -/
def queryFrame (tag : Half) (arg : QueryArg) : Frame :=
  match arg with
  | .identity => .query tag 1#8 []
  | .status => .query tag 2#8 []
  | .slot sel => .query tag 3#8 (selectorBytes sel)
  | .line gateway line => .query tag 4#8 [gateway, line]
  | .sensors => .query tag 5#8 []

/-- The command that is a station frame which R13 takes from members only. -/
def memberCommand (h : Header) (f : Frame) (pins : Pins) : Option Instr :=
  match f with
  | .expel node reason => some (.expel h node reason pins)
  | .claim b => some (.claim h b)
  | .decline pos reason => some (.decline h pos reason)
  | .unclaimed pos => some (.unclaimed h pos)
  | .propose b => some (.propose h b)
  | .roundBody number material check => some (.roundBody h number material check)
  | .accept proposer number => some (.accept h proposer number)
  | .refuse proposer number reason => some (.refuse h proposer number reason)
  | .commit number seq version => some (.commit h number seq version pins)
  | .abandon number reason => some (.abandon h number reason)
  | .close b => some (.close h b)
  | .cleared b => some (.cleared h b)
  | .final b => some (.final h b)
  | _ => none

/-- What the failure of a catch-up attempt leaves (R119): the failure counted, then DETACHED(FAILED) at the third, LISTENING with an
empty live set or without a source, or the next attempt at its first PULL. -/
def AttemptFailed (s t : State) : Prop :=
  t.catchUp.failures = s.catchUp.failures + 1
  ∧ (if 3 ≤ s.catchUp.failures + 1 then t.memb.state = .detached ∧ t.memb.cause = some .failed ∧ t.catchUp.phase = .idle
     else if s.memb.live = 0#8 then t.memb.state = .listening ∧ t.memb.windowOpen = true ∧ t.catchUp.phase = .idle
     else match chooseSource s s.catchUp.source with
       | none => t.memb.state = .listening ∧ t.memb.windowOpen = true ∧ t.catchUp.phase = .idle
       | some k => t.memb.state = .catchup ∧ t.catchUp.phase = .pulling ∧ t.catchUp.source = some k ∧ t.catchUp.pullIndex = 1
           ∧ t.catchUp.attempts.toNat = min 65535 (s.catchUp.attempts.toNat + 1))

/-- What a cause of failure that is found in JOINING leaves (R118): where the JOIN still waits it is gone and the attempt has failed
(R119); where it is on the bus the failure is kept, a receive error over any other cause (log 37), and decided at its delivery. -/
def JoiningFailed (cause : FailCause) (s t : State) : Prop :=
  ((∀ e ∈ s.link.queue, isJoin e.frame = true → isWaiting s.link e = true) → AttemptFailed s t ∧ hasFrame t isJoin = false)
  ∧ ((∃ e ∈ s.link.queue, isJoin e.frame = true ∧ isWaiting s.link e = false) →
      t.catchUp = { s.catchUp with joinFailure := some (keptFailure s.catchUp.joinFailure cause) } ∧ t.memb.state = s.memb.state)

/-- A station leaves LISTENING for the source that R39 names (R39, R110), `r` its peer record: DETACHED(AHEAD) where its own commit
sequence is the higher, but for a yield mark, which clears; else the attempt begins; without a record it waits for the source. -/
def EntersCatchUp (k : StationId) (r : Option PeerRecord) (s t : State) : Prop :=
  t.memb.windowOpen = false ∧ t.memb.yieldMark = false
  ∧ (∀ x, s.memb.yieldMark = false → r = some x → x.seq.toNat < s.dir.seq.toNat →
      t.memb.state = .detached ∧ t.memb.cause = some .ahead ∧ t.memb.live = 0#8)
  ∧ (s.memb.yieldMark = true ∨ (∃ x, r = some x ∧ s.dir.seq.toNat ≤ x.seq.toNat) →
      t.memb.state = .catchup ∧ t.catchUp.phase = .pulling ∧ t.catchUp.source = some k ∧ t.catchUp.pullIndex = 1
      ∧ hasFrame t isPull = true)
  ∧ (s.memb.yieldMark = false → r = none →
      t.memb.state = .catchup ∧ t.catchUp.phase = .waitSource ∧ t.catchUp.source = some k ∧ t.catchUp.verifyTimer = true)

/-- What zeroisation leaves (R25, R182): of the membership unit the state ZEROISED alone, no watch and no RESTART outstanding (R41);
nothing of the cabinet state, of the queue, of the jobs, of the rounds and orders; the pulling side IDLE, no timer running (R121);
the window CLOSED, which arms D and settles L, the channels otherwise as they stood (R179, R182); what stands queued then answers
queries that wait (R188). -/
def Zeroised (s t : State) : Prop :=
  t.memb = { State.reset.memb with state := .zeroised, presenceLoading := s.memb.presenceLoading }
  ∧ t.dir = Directory.erased ∧ t.rounds = RoundControl.empty ∧ t.cust = Custody.empty ∧ t.lines = LineTable.empty
  ∧ t.pool = Pool.empty ∧ t.engine.inFlight = none ∧ t.engine.ctx = JobContext.zero ∧ t.engine.segs = noSegments
  ∧ t.catchUp = { State.reset.catchUp with attempts := s.catchUp.attempts }
  ∧ t.tamper.window = none ∧ (s.tamper.window = none → t.tamper.channels = s.tamper.channels)
  ∧ (s.tamper.window ≠ none → ∀ ch, channelOf t.tamper ch =
      match ch with
      | .D => { channelOf s.tamper .D with state := .armed }
      | .L => enterSettling (channelOf s.tamper .L)
      | c => channelOf s.tamper c)
  ∧ (∀ e ∈ t.link.queue, isQueryReport e.frame = true) ∧ (∀ f ∈ t.link.admissions, isQueryReport f = true)
  ∧ SameBut [.txQueue, .alarm, .bus, .slotDriven, .station, .live, .peers, .heard, .windowOpen, .watches, .leaving, .yieldMark,
      .retainedZeroised, .slots, .usage, .seq, .cabinetKey, .custodyQueue, .ownRound, .roundCounter, .roundList, .areas, .record,
      .pulling, .serve, .entries, .locals, .gatewayWatches, .notice, .pool, .inFlight, .ctx, .segments, .channels, .maintenance,
      .causeRecord, .queries, .wirePlace] s t

/-- A line entry with one position's record changed. -/
def withPosition (e : LineEntry) (p : PosId) (x : Position) : LineEntry := { e with positions := tset e.positions p x }

/-- A position has been settled from POSTED (R123, R132): DONE as what settled it says, D advanced, its note and timers gone, every
other line and every other position's local state as before. -/
def SettledAt (by_ : SettledBy) (reason : DoneReason) (l : LineId) (p : PosId) (s t : State) : Prop :=
  entryAt t l = dAdvance (withPosition (entryAt s l) p (donePosition (positionOf s l p) by_ reason))
  ∧ (∀ l', l' ≠ l → entryAt t l' = entryAt s l') ∧ localAt t l p = LocalPos.empty
  ∧ ∀ l' p', l' ≠ l ∨ p' ≠ p → localAt t l' p' = localAt s l' p'

/-- A ring number as a position. -/
def placeOf (b : BitVec 4) : PosId := ⟨b.toNat, b.isLt⟩

/-- A job has been posted into a line (R124, R126): position P holds its record, P has moved on, the note stands and both timers run;
every other position of the ring, every other line and every other position's local state as before. -/
def PostedAt (l : LineId) (x : Position) (note : PostingNote) (s t : State) : Prop :=
  entryAt t l = { withPosition (entryAt s l) (placeOf (entryAt s l).p) x with p := (entryAt s l).p + 1#4 }
  ∧ (∀ l', l' ≠ l → entryAt t l' = entryAt s l')
  ∧ localAt t l (placeOf (entryAt s l).p) = ⟨some note, .running, .running⟩
  ∧ ∀ l' p', l' ≠ l ∨ p' ≠ placeOf (entryAt s l).p → localAt t l' p' = localAt s l' p'

/-- What the EXPEL of a node makes of a line entry (R139, R30): its claimed positions DONE with reason LOST, the node awaited no more,
D advanced; an entry that awaited the node alone is freed. -/
def lostEntry (k : StationId) (e : LineEntry) : LineEntry :=
  if e.state = .free then e
  else if e.state = .closing ∧ setHas e.pendingClear k.val = true ∧ setDel e.pendingClear k.val = 0#8 then LineEntry.zero
  else dAdvance { e with
    positions := tmap (fun x => if x.state = .claimed ∧ x.owner.toNat = k.val then donePosition x x.settledBy .lost else x)
      e.positions
    pendingClear := setDel e.pendingClear k.val }

/-- The cards of a node's claimed positions under a master slot, in all the lines that are not free (R139). -/
def claimedCards (s : State) (k : StationId) (m : SlotId) : Nat :=
  ((s.lines.entries.toList.filter (fun e => e.state != .free)).map (fun e =>
    ((e.positions.toList.filter (fun x =>
      x.state == .claimed && x.owner.toNat == k.val && slotOf? x.master == some m)).map (·.count.toNat)).sum)).sum

/-- What a CLEARED makes of a line entry that awaits others too (R138): the sender's claimed positions DONE with reason CLEARED, the
sender awaited no more. -/
def clearedEntry (src : Node) (e : LineEntry) : LineEntry :=
  { e with
    positions := tmap (fun x => if claimedBy x src then donePosition x x.settledBy .cleared else x) e.positions
    pendingClear := setDel e.pendingClear src.val }

/-- The consumed count that a CLEARED gives for a position: of the first entry that names it, 0 with none (R138). -/
def listedConsumed (entries : List ClearedEntry) (p : PosId) : Nat :=
  match entries.find? (fun c => c.position == byteOf p) with
  | some c => c.consumed.toNat
  | none => 0

/-- The usage after a CLEARED (R54, R138): one settle for each position that the sender had claimed, those the list names first, in its
order, then the others by number. -/
def clearedUsage (src : Node) (e : LineEntry) (entries : List ClearedEntry) (d : Directory) : Directory :=
  (((entries.filterMap (fun c => (indexOf? 16 c.position : Option PosId)) ++ List.finRange 16).eraseDups).filter
      (fun p => claimedBy (tget e.positions p) src)).foldl
    (fun d p =>
      match slotOf? (tget e.positions p).master with
      | none => d
      | some m => d.settle m (tget e.positions p).count.toNat (listedConsumed entries p)) d

/-- The line that a CLOSE names: the sender's own, or the one a station gives with reason SILENCE (R136). -/
def closeNames (h : Header) (b : CloseBody) : Option (Byte × Byte) :=
  match b with
  | .gateway line => some (byteOf h.src, line)
  | .station gateway line reason => if reason = 1#8 then some (gateway, line) else none

/-- A job has ended with a status: its descriptor is in DRAINING and its FINAL is queued or pending (R148, R149, R169, R170). -/
def EndedAs (status : JobStatus) (d : DescId) (t : State) : Prop :=
  (descOf t d).status = status ∧ d ∈ t.pool.draining ∧ hasFrame t (isFinalOf d) = true

/-- A vote has been counted into the own round and the decision tested (R74, R75): `o` is the own round with the vote in it. -/
def Counted (o : OwnRound) (s t : State) : Prop :=
  let rest := setCount (o.eligible &&& ~~~ o.voted)
  t.rounds.own.accepts = o.accepts ∧ t.rounds.own.voted = o.voted ∧ t.rounds.own.firstRefusal = o.firstRefusal
  ∧ t.rounds.own.number = o.number
  ∧ (quorum s ≤ setCount o.accepts → s.memb.leaving = false →
      t.rounds.own.phase = .decided ∧ t.rounds.own.outcome = some (.done, 0#8)
      ∧ hasFrame t (fun f => match f with | .commit n q _ => n == o.number && q == nextSeq s.dir.seq | _ => false) = true)
  ∧ (setCount o.accepts + rest < quorum s →
      t.rounds.own.phase = .decided ∧ t.rounds.own.outcome = some (.refused, o.firstRefusal)
      ∧ hasFrame t (fun f => f == .abandon o.number .refused) = true)
  ∧ (setCount o.accepts < quorum s → quorum s ≤ setCount o.accepts + rest → t.rounds.own.phase = .counting)

/-- The refusal of an order is queued or pending for its gateway (R95). -/
def RefusedOrder (h : Header) (kind : Byte) (b : OrderBody) (o : OrderOutcome) (detail : Byte) (t : State) : Prop :=
  hasFrame t (fun f => f == .custodyReport h.src (orderResultBody b.tag false b.slot kind none o detail 0#16 0#32)) = true

/-- A direct order has brought a warm start about (R23, R99): the state and directory that it leaves, nothing recorded any more, and
DONE on its way to the gateway where a state that sends was entered. -/
def WarmStarted (straps : Straps) (kind : Byte) (h : Header) (b : OrderBody) (s t : State) : Prop :=
  t.memb.state = warmState straps s.dir ∧ t.straps = straps ∧ t.memb.live = 0#8 ∧ t.cust.record = none
  ∧ t.dir = (if straps.valid then s.dir.dropReserved else Directory.erased)
  ∧ t.rounds = RoundControl.empty ∧ t.lines = LineTable.empty ∧ t.pool = Pool.empty ∧ t.tamper.window = none
  ∧ (straps.valid = true → hasFrame t (fun f => f == .custodyReport h.src
      (orderResultBody b.tag false 255#8 kind none .done (warmState straps s.dir).code 0#16 0#32)) = true)

/-- A slot component is taken into an area: the tests of R101 and R102 pass, and it opens or joins that area (`x` as it stands before
the component). -/
def TakesComponent (h : Header) (b : ComponentBody) (a : AreaId) (x : Area) (s : State) : Prop :=
  Reaches s h (.component b) ∧ b.target ≠ 255#8 ∧ serving s = true ∧ componentFormFails b = false
  ∧ componentCheckFails b = false ∧ placeComponent false h b s = .ok (a, x) ∧ componentApprovalFails s b x.custodians = false

/-- The first test that a slot component fails (R101, R102). -/
def slotRefusal (s : State) (h : Header) (b : ComponentBody) : Option AssemblyDetail :=
  if !serving s then some .notServing
  else if componentFormFails b then some .form
  else if componentCheckFails b then some .badComponent
  else
    match placeComponent false h b s with
    | .error d => some d
    | .ok (_, x) => if componentApprovalFails s b x.custodians then some .badApproval else none

/-- The report of a refused component (R105): the counts are those of the area that holds the id, else none taken and the frame's m
(log 24). -/
def refusalReport (s : State) (h : Header) (b : ComponentBody) (d : AssemblyDetail) : TxFrame :=
  match areaOfId s b.id with
  | some (_, x) => assemblyReport h b .refused (some d) (takenCount x) x.m 0#24
  | none => assemblyReport h b .refused (some d) 0 b.m 0#24

/-- The checks of the claim conditions in R127's order, each with whether it fails and the decline reason it gives. -/
def claimChecks (s : State) (x : Position) (note : Option PostingNote) : List (Bool × DeclineReason) :=
  let master := slotOf? x.master
  let transport := slotOf? x.transport
  let derives := x.function != .check
  [(formFails x note, .form),
   (master.isNone, .masterUnknown),
   (!master.any (fun m => s.dir.activeWith m .master), .masterUnusable),
   (!master.any (fun m => x.function.allowedIn (s.dir.slot m).functions), .function),
   (derives && transport.isNone, .transportUnknown),
   (derives && !transport.any (fun t => s.dir.activeWith t .transport), .transportUnusable),
   (namedSlotFrozen s x.master || namedSlotFrozen s x.transport, .keyChanging),
   (master.any (fun m => (s.dir.usageOf m).exhausted), .exhausted),
   (master.any (fun m => decide (s.dir.room m < x.count.toNat)), .noRoom),
   (!liveSetQuorate s, .notQuorate)]

/-- The slot states from which a kind may start (R69). -/
def fromStates : ChangeKind → List SlotState
  | .importKey => [.empty]
  | .activate => [.staged]
  | .suspend => [.active]
  | .resume => [.suspended]
  | .retire => [.active, .suspended]
  | .destroy => [.staged, .retired]
  | .edit => [.staged, .active, .suspended, .retired]
  | .windowOpen | .windowClose => []

/-- The checks of a round's validation in R70's order, each with whether it fails and the reason it gives. A code outside its list
fails the form check (log 11), a functions bit of no function the class check (log 63). -/
def roundChecks (s : State) (r : Round) : List (Bool × RefuseReason) :=
  let kind := ChangeKind.ofCode? r.kind
  let is := fun k => kind == some k
  let slot := slotOf? r.slot
  let cls := KeyClass.ofCode? r.cls
  let window := is .windowOpen || is .windowClose
  [(s.dir.seq == 0xFFFFFFFF#32, .sequenceEnd),
   (kind.isNone || is .importKey != r.body.isSome || (if window then r.slot != 255#8 else slot.isNone)
      || (is .importKey && cls.isNone) || (is .edit && !maskListed r.mask), .form),
   (slot.any (fun i => !kind.any (fun k => (fromStates k).contains (s.dir.slot i).state)), .transition),
   ((match slot with
     | some i => r.expected != (s.dir.slot i).version || (s.dir.slot i).version == 65535#16
     | none => r.expected != 0#16), .version),
   (is .importKey && (r.label.issuer == 0#24
      || (List.finRange 64).any (fun i => (s.dir.slot i).state != .empty && (s.dir.slot i).label == r.label)), .label),
   ((is .importKey && !cls.any (fun c => classConsistent c r.functions r.limit))
      || (is .edit && slot.any (fun i => !classConsistent (s.dir.slot i).cls
          (if r.mask.getLsbD 0 then r.functions else (s.dir.slot i).functions)
          (if r.mask.getLsbD 1 then r.limit else (s.dir.slot i).limit))), .cls),
   (is .windowOpen && (r.window.toNat < 1 || 600 < r.window.toNat), .value),
   (is .importKey && !s.dir.key.any (fun k => r.body.any (fun b => checkOf (recovered k.key b.material) == b.check)), .body),
   (is .edit && r.mask.getLsbD 1 && slot.any (fun i =>
      decide (effective r.limit < (if r.mask.getLsbD 2 then 0 else (s.dir.usageOf i).used.toNat)
        + (s.dir.usageOf i).reserved.toNat)), .limit),
   (is .destroy && slot.any (fun i => (s.dir.usageOf i).reserved != 0#32), .inUse),
   ((is .retire || is .destroy) && slot.any (fun i => (s.dir.slot i).cls == .custodian
      && decide (((List.finRange 64).filter (fun j => (s.dir.slot j).state == .active && (s.dir.slot j).cls == .custodian
          && j != i && !(openEntries s).any (fun e => [3#8, 5#8, 6#8].contains e.round.kind && e.round.slot == byteOf j))).length
        < 2)), .custodianFloor),
   (decide (r.approvals.length < approvalsRequired s.dir r.kind r.slot r.mask) || !approvalsDistinct r.approvals
      || r.approvals.any (fun a => !s.dir.approvalValid a (roundMessage s.dir r)), .approval)]

/-- The descriptor of a claim that will not settle its position has returned, its reserve with it (R145). -/
def ClaimReturned (d : DescId) (s t : State) : Prop :=
  t.pool.free = s.pool.free.filter (· != d) ++ [d] ∧ t.pool.claiming = s.pool.claiming.filter (· != d)
  ∧ descOf t d = Descriptor.zero

/-- A cell of a STREAM job's block waits: a result from the sent index on, or a card of a job that goes on (R151). -/
def CellStillWaits (sent : Nat) (status : JobStatus) : Cell → Prop
  | .empty => False
  | .card _ => status = .none
  | .result r => sent ≤ r.index.toNat

/-- The frame is the CLEARED of a line. -/
def isClearedOf (gateway line : Byte) : TxFrame → Bool
  | .cleared b => b.gateway == gateway && b.line == line
  | _ => false

/-- A job's segment records carry different numbers, all below the next segment number, and at most one of them is OPEN (R166). -/
def OneSegmentEach (s : State) (d : DescId) : Prop :=
  ((tget s.engine.segs d).map (·.number)).Nodup
  ∧ (∀ g ∈ tget s.engine.segs d, g.number < (jobContext s d).segment)
  ∧ ((tget s.engine.segs d).filter (fun g => g.phase == .opened)).length ≤ 1

/-- The segment that the current job's next result joins, with that result counted: the OPEN one, else a new one (R166). -/
def joinedSegment (s : State) (d : DescId) : Segment :=
  match openSegment s d with
  | some g => { g with count := g.count + 1 }
  | none => ⟨s.engine.ctx.segment, s.engine.ctx.next, 1, s.engine.ctx.version, .opened⟩

/-- A segment has been produced (R167): its ANSWER is queued or pending for the job's gateway, and its record is QUEUED or PENDING. -/
def SegmentProduced (t : State) (d : DescId) (pos : PosRef) (g : Segment) : Prop :=
  hasFrame t (fun f =>
    match f with
    | .answer (some x) gateway number _ => x == d && gateway == nodeOf pos.gateway && number == g.number
    | _ => false) = true
  ∧ ({ g with phase := .queued } ∈ tget t.engine.segs d ∨ { g with phase := .pending } ∈ tget t.engine.segs d)

/-! ## Properties that every step keeps -/

/-- The transmit queue holds at most 16 entries, at most 12 of them of class 3 (R14, R15). -/
def QueueBounded (s : State) : Prop :=
  s.link.queue.length ≤ 16 ∧ (s.link.queue.filter (fun e => txClass e.frame == 3)).length ≤ 12

/-- The queue stands in order of admission: ages rise along it, and the next age is above them all (R14). -/
def QueueOrdered (s : State) : Prop :=
  (s.link.queue.map (·.age)).Pairwise (· < ·) ∧ ∀ e ∈ s.link.queue, e.age < s.link.nextAge

/-- The pool's seven queues, one after another. -/
def poolQueues (p : Pool) : List DescId :=
  p.free ++ p.claiming ++ p.loading ++ p.urgent ++ p.bulk ++ p.engine.toList ++ p.draining

/-- Each descriptor is in exactly one queue (R143). -/
def OneQueueEach (s : State) : Prop := ∀ d : DescId, (poolQueues s.pool).count d = 1

/-- Custody queue, open round list, pull queue and query queue hold at most 4 (R62, R65, R113, R188), and no more REPORTs of queries are
pending than queries wait. -/
def WithinCapacity (s : State) : Prop :=
  s.rounds.queue.length ≤ 4 ∧ s.rounds.list.length ≤ 4 ∧ s.catchUp.serve.length ≤ 4 ∧ s.rep.queries.length ≤ 4
    ∧ (s.link.admissions.filter isQueryReport).length ≤ s.rep.queries.length

/-- Every member of the live set is below the strapped number of stations (R1, R27). -/
def LiveSetWithinStations (s : State) : Prop := ∀ k : Nat, setHas s.memb.live k = true → k < stationCount s

/-- A free line entry holds all its fields at zero and every position FREE (R122). -/
def FreeLinesZero (s : State) : Prop := ∀ l : LineId, (entryAt s l).state = .free → entryAt s l = LineEntry.zero

/-- The candidate on the bus is an entry of the queue, or a register (R4, R14). -/
def CandidateQueued (s : State) : Prop :=
  ∀ age, s.link.bus = .contending (.entry age) ∨ (∃ d f, s.link.bus = .sending (.entry age) d f) → entryOf s.link age ≠ none

/-- No posting note stands at a place in wire order that is still to come (R124). -/
def NotesPlaced (s : State) : Prop :=
  ∀ (l : LineId) (p : PosId) (note : PostingNote), (localAt s l p).note = some note → note.place ≤ s.wirePlace

/-- Outside STRAP_FAULT the sampled straps are valid (R23); outside CATCHUP the pulling side is IDLE and its timers stand (R109); between
steps no posted position waits to be considered (log 10); in RETENTION the maintenance window is CLOSED and no direct order stands
recorded (R99, R179). -/
def Sound (s : State) : Prop :=
  (s.memb.state ≠ .strapFault → s.straps.valid = true)
    ∧ (s.memb.state ≠ .catchup →
        s.catchUp.phase = .idle ∧ s.catchUp.pullTimer = false ∧ s.catchUp.verifyTimer = false)
    ∧ s.lines.notice = false
    ∧ (s.memb.state = .retention → s.tamper.window = none ∧ s.cust.record = none)

end Sys2Proof.Machine
end

