-- ==== Sys2Proof/Certificates/Slice0/Obligations.lean ====
section
/-! DEFINITION. The statements for the provers, command by command in the order of the table, then the properties every step keeps. -/

open Sys2Proof Sys2Proof.Machine

/-! ## The step, reset, supply and input levels -/

/-- A step takes the command at the front of the queue and runs exec on it with the queue's rest; on an empty queue the station idles
(both the model's choice, log 2). -/
def Obligations.StepRunsFrontCommand : Prop :=
  (∀ (c : Instr) (rest : List Instr) (s : State), s.pending = c :: rest → step s = exec c { s with pending := rest })
  ∧ ∀ s : State, s.pending = [] → step s = .next s

/-- Every command answers a next state, in every state, and leaves the commands that wait. -/
def Obligations.EveryCommandAnswersNext : Prop :=
  ∀ (c : Instr) (s : State), Yields c s (fun t => t.pending = s.pending)

/-- The reset state is what a cold start makes of it: BLANK, erased, its presence loaded (R23); and it has every property that the
invariants say steps keep. The strap pins at reset are the model's choice (log 1). -/
def Obligations.ResetIsAColdStart : Prop :=
  coldStart State.reset = State.reset ∧ State.reset.memb.state = .blank ∧ State.reset.dir = Directory.erased
  ∧ State.reset.link.presence.held = true ∧ State.reset.link.queue = [] ∧ State.reset.pending = []
  ∧ QueueBounded State.reset ∧ QueueOrdered State.reset ∧ OneQueueEach State.reset ∧ WithinCapacity State.reset
  ∧ LiveSetWithinStations State.reset ∧ FreeLinesZero State.reset ∧ Sound State.reset
  ∧ CandidateQueued State.reset ∧ NotesPlaced State.reset

/-- SUPPLY_RETURN as a cold start: from RETENTION with the store's validity mark clear, and from STRAP_FAULT after an assertion of
power-fail (R23, R185). The whole next state: straps sampled, BLANK or STRAP_FAULT, everything else as at reset; the receipt slot,
the counts the model keeps and the CLEAR level stay. -/
def Obligations.SupplyReturnColdStart : Prop :=
  ∀ (pins : Pins) (s : State),
    (s.memb.state = .retention ∧ s.tamper.storeValid = false) ∨ (s.memb.state = .strapFault ∧ s.inputs.powerFail = true) →
    let ok := (strapsOf pins).valid
    exec (.supplyReturn pins) s = .next { State.reset with
      inputs := { s.inputs with pins := pins, powerFail := false }
      straps := strapsOf pins
      memb := { State.reset.memb with state := if ok then .blank else .strapFault, presenceLoading := ok }
      link := { s.link with
        queue := [], admissions := [], presence := ⟨ok, false⟩, alarm := none, bus := .idle, receiveErrors := 0#16,
        misplaced := 0#16, nonMember := 0#16 }
      wirePlace := s.wirePlace
      freeIndex := s.freeIndex
      pending := s.pending }

/-- SUPPLY_RETURN as a warm start: from RETENTION with the mark set and the station not ZEROISED in it (R23, R185). The directory
and the cabinet key stay with every reserved count at 0, unless the straps are invalid; the seven counters are 0 (R190); the rest is
as at reset but for the receipt slot and the counts the model keeps (log 31; the order of the free blocks: log 16). A window that
stood OPEN would be closed with a reading; the statement is for a door that is closed then, or no window. -/
def Obligations.SupplyReturnWarmStart : Prop :=
  ∀ (pins : Pins) (s : State),
    s.memb.state = .retention → s.tamper.storeValid = true → s.memb.retainedZeroised = false →
    (s.tamper.window = none ∨ pins.doorOpen = false) →
    let ok := (strapsOf pins).valid
    let st := warmState (strapsOf pins) s.dir
    Yields (.supplyReturn pins) s fun t =>
      t.inputs = { s.inputs with pins := pins, powerFail := false } ∧ t.straps = strapsOf pins
      ∧ t.memb = { State.reset.memb with state := st, windowOpen := st == .listening, presenceLoading := ok }
      ∧ t.dir = (if ok then s.dir.dropReserved else Directory.erased)
      ∧ t.link.presence = ⟨ok, false⟩ ∧ t.link.alarm = none ∧ t.link.bus = .idle
      ∧ t.link.receiveErrors = 0#16 ∧ t.link.misplaced = 0#16 ∧ t.link.nonMember = 0#16
      ∧ t.link.slotDriven = s.link.slotDriven ∧ t.wirePlace = s.wirePlace ∧ t.freeIndex = s.freeIndex
      ∧ (s.cust.record = none → t.link.queue = [] ∧ t.link.admissions = [])
      ∧ t.rounds = RoundControl.empty ∧ t.cust = Custody.empty ∧ t.catchUp = State.reset.catchUp ∧ t.lines = LineTable.empty
      ∧ t.pool = Pool.empty ∧ t.engine = State.reset.engine ∧ t.rep = State.reset.rep
      ∧ t.tamper.window = none ∧ t.tamper.cause = s.tamper.cause ∧ t.tamper.storeValid = true
      ∧ (s.tamper.window = none → t.tamper = s.tamper) ∧ t.pending = s.pending

/-- SUPPLY_RETURN of a station that was ZEROISED before or in RETENTION: it enters ZEROISED, and a breach while retained loads the
ZERO of its channel and clears the mark (R185); that the station counters stay is the model's reading (log 67). Where the command is no return of the supply it only brings the pin levels. -/
def Obligations.SupplyReturnElsewhere : Prop :=
  (∀ (pins : Pins) (s : State),
    s.memb.state = .retention → s.tamper.storeValid = true → s.memb.retainedZeroised = true →
    Yields (.supplyReturn pins) s fun t =>
      t.memb.state = .zeroised ∧ t.memb.retainedZeroised = false ∧ t.memb.presenceLoading = true
      ∧ t.inputs = { s.inputs with pins := pins, powerFail := false } ∧ t.tamper.retentionTrip = false
      ∧ t.link.presence = (loadPresence s.link).presence
      ∧ (∀ ch, s.tamper.retentionTrip = true → s.tamper.cause = .channel ch → s.link.alarm = none →
          t.link.alarm = some (.channel ch))
      ∧ (s.tamper.retentionTrip = false → t.link.alarm = s.link.alarm)
      ∧ SameBut (.inputs :: .station :: .retainedZeroised :: .presenceLoading :: .presence :: .alarm :: .retentionTrip ::
        reacting) s t)
  ∧ ∀ (pins : Pins) (s : State),
    s.memb.state ≠ .retention → ¬(s.memb.state = .strapFault ∧ s.inputs.powerFail = true) →
    Yields (.supplyReturn pins) s fun t =>
      t.inputs = { s.inputs with pins := pins } ∧ SameBut (.inputs :: reacting) s t

/-- POWER_FAIL from a state that holds cabinet state: RETENTION (R25, R184). The window closes with a reading of the door (R179):
closed, the station keeps its directory and key; open, it has tripped, and everything is erased (R180). In STRAP_FAULT the
assertion is noted and the store is not kept (the model's reading, log 26); in RETENTION a further one has no effect. -/
def Obligations.PowerFailEntersRetention : Prop :=
  (∀ (pins : Pins) (s : State),
    s.memb.state ≠ .retention → s.memb.state ≠ .strapFault →
    Yields (.powerFail pins) s fun t =>
      t.memb.state = .retention ∧ t.inputs = { s.inputs with pins := pins, powerFail := true } ∧ t.straps = s.straps
      ∧ t.memb.live = 0#8 ∧ t.memb.presenceLoading = false ∧ t.memb.leaving = false ∧ t.tamper.window = none
      ∧ t.link.queue = [] ∧ t.link.admissions = [] ∧ t.link.presence = ⟨false, false⟩ ∧ t.link.alarm = none ∧ t.link.bus = .idle
      ∧ t.link.slotDriven = false
      ∧ t.rounds = RoundControl.empty ∧ t.cust = Custody.empty ∧ t.lines = LineTable.empty ∧ t.pool = Pool.empty
      ∧ t.engine.inFlight = none ∧ t.engine.segs = noSegments ∧ t.rep.queries = [] ∧ t.catchUp.phase = .idle
      ∧ t.tamper.storeValid = s.tamper.storeValid
      ∧ ((s.tamper.window = none ∨ pins.doorOpen = false) →
          t.dir = s.dir.dropReserved ∧ t.tamper.cause = s.tamper.cause ∧ t.tamper.retentionTrip = s.tamper.retentionTrip
          ∧ t.memb.retainedZeroised = (s.memb.state == .zeroised))
      ∧ (s.tamper.window ≠ none → pins.doorOpen = true →
          t.dir = Directory.erased ∧ t.tamper.cause = .channel .D ∧ t.tamper.retentionTrip = true
          ∧ t.memb.retainedZeroised = true)
      ∧ t.pending = s.pending)
  ∧ (∀ (pins : Pins) (s : State), s.memb.state = .strapFault →
      Yields (.powerFail pins) s fun t =>
        t.inputs = { s.inputs with pins := pins, powerFail := true } ∧ t.tamper.storeValid = false
        ∧ SameBut (.inputs :: .storeValid :: reacting) s t)
  ∧ ∀ (pins : Pins) (s : State), s.memb.state = .retention →
      Yields (.powerFail pins) s fun t => t.inputs = { s.inputs with pins := pins } ∧ SameBut (.inputs :: reacting) s t

/-- CLEAR asserted takes a ZEROISED station to BLANK, once for each change from released to asserted (R24); its release takes
nothing. The retained store's mark clears when its supply is lost in RETENTION (R185). The presence period loads the presence
register (R16, R27). -/
def Obligations.InputLevels : Prop :=
  (∀ s : State, s.inputs.clear = true → exec .clearAsserted s = .next s)
  ∧ (∀ s : State, s.inputs.clear = false → s.memb.state = .zeroised →
      Yields .clearAsserted s fun t =>
        t.memb.state = .blank ∧ t.memb.live = 0#8 ∧ t.inputs = { s.inputs with clear := true }
        ∧ SameBut (.inputs :: .station :: .live :: .heard :: .windowOpen :: .watches :: .leaving :: .yieldMark ::
          .retainedZeroised :: reacting) s t)
  ∧ (∀ s : State, s.inputs.clear = false → s.memb.state ≠ .zeroised →
      Yields .clearAsserted s fun t => t.inputs = { s.inputs with clear := true } ∧ SameBut (.inputs :: reacting) s t)
  ∧ (∀ s : State, exec .clearReleased s = .next { s with inputs := { s.inputs with clear := false } })
  ∧ (∀ s : State, s.memb.state = .retention →
      exec .retainedStorePowerLoss s = .next { s with tamper := { s.tamper with storeValid := false } })
  ∧ (∀ s : State, s.memb.state ≠ .retention → exec .retainedStorePowerLoss s = .next s)
  ∧ (∀ s : State, s.memb.presenceLoading = true → (∀ d f, s.link.bus ≠ .sending .presence d f) →
      exec .presenceLoad s =
        .next { s with link := { s.link with presence := { s.link.presence with held := true } } })
  ∧ (∀ (s : State) (d : Dest) (f : Frame), s.memb.presenceLoading = true → s.link.bus = .sending .presence d f →
      exec .presenceLoad s =
        .next { s with link := { s.link with presence := { s.link.presence with reload := true } } })
  ∧ ∀ s : State, s.memb.presenceLoading = false → exec .presenceLoad s = .next s

/-! ## The link interface -/

/-- CONTENTION (R4): at bus idle the station offers a ZERO before a PRESENCE before the queue's head: the oldest entry of the lowest
class among those it may choose (R34). With nothing to offer, off the link, or with the bus not idle, nothing changes. -/
def Obligations.ContentionChoosesCandidate : Prop :=
  (∀ s : State, s.link.bus = .idle → onLink s = true → s.link.alarm ≠ none →
    exec .contention s = .next (setBus s (.contending .alarm)))
  ∧ (∀ s : State, s.link.bus = .idle → onLink s = true → s.link.alarm = none → s.link.presence.held = true →
    exec .contention s = .next (setBus s (.contending .presence)))
  ∧ (∀ (s : State) (l1 l2 : List TxEntry) (e : TxEntry),
    s.link.bus = .idle → onLink s = true → s.link.alarm = none → s.link.presence.held = false →
    s.link.queue = l1 ++ e :: l2 → mayChoose s e.frame = true →
    (∀ x ∈ l1, mayChoose s x.frame = true → txClass e.frame < txClass x.frame) →
    (∀ x ∈ l2, mayChoose s x.frame = true → txClass e.frame ≤ txClass x.frame) →
    exec .contention s = .next (setBus s (.contending (.entry e.age))))
  ∧ (∀ s : State, s.link.alarm = none → s.link.presence.held = false →
    (∀ e ∈ s.link.queue, mayChoose s e.frame = false) → exec .contention s = .next s)
  ∧ ∀ s : State, s.link.bus ≠ .idle ∨ onLink s = false → exec .contention s = .next s

/-- ARBITRATION_END (R5, R16): the winner is in transmission with its fields fetched, a request held for it refused (R18, R19); the
loser's frame stays where it was with its age, unless a held withdrawal or purge now frees its entry (R18, R19): the queue holds it
no more. A SENSORS report takes the window's remaining time, a free value (log 6). -/
def Obligations.ArbitrationEnds : Prop :=
  (∀ (s : State) (age : Nat) (e : TxEntry), s.link.bus = .contending (.entry age) → entryOf s.link age = some e →
    Yields (.arbitrationEnd true) s fun t =>
      t.link.bus = .sending (.entry age) (txDest e.frame) (fetchFrame (beforeFetch e.frame s) e.frame)
      ∧ entryOf t.link age = some { e with hold := .none }
      ∧ SameBut (.bus :: .maintenance :: .freeIndex :: reacting) s t)
  ∧ (∀ s : State, s.link.bus = .contending .presence →
    Yields (.arbitrationEnd true) s fun t =>
      t.link.bus = .sending .presence ⟨true, 0⟩ (.presence (presenceBody s)) ∧ SameBut (.bus :: reacting) s t)
  ∧ (∀ (s : State) (c : ZeroCause), s.link.bus = .contending .alarm → s.link.alarm = some c →
    Yields (.arbitrationEnd true) s fun t =>
      t.link.bus = .sending .alarm ⟨true, 0⟩ (.zero c.code) ∧ SameBut (.bus :: reacting) s t)
  ∧ (∀ (s : State) (age : Nat) (e : TxEntry),
    s.link.bus = .contending (.entry age) → entryOf s.link age = some e → e.hold = .none →
    exec (.arbitrationEnd false) s = .next (settle (setBus s .idle))
    ∧ Yields (.arbitrationEnd false) s fun t =>
      t.link.bus = .idle ∧ (isLive s = false → e ∈ t.link.queue) ∧ SameBut (.bus :: reacting) s t)
  ∧ (∀ (s : State) (age : Nat) (e : TxEntry), QueueOrdered s →
    s.link.bus = .contending (.entry age) → entryOf s.link age = some e → e.hold = .purge →
    Yields (.arbitrationEnd false) s fun t =>
      t.link.bus = .idle ∧ entryOf t.link age = none ∧ SameBut (.bus :: reacting) s t)
  ∧ (∀ (s : State) (age : Nat) (e : TxEntry), QueueOrdered s →
    s.link.bus = .contending (.entry age) → entryOf s.link age = some e → e.hold = .withdraw →
    Yields (.arbitrationEnd false) s fun t =>
      t.link.bus = .idle ∧ entryOf t.link age = none ∧ (isJoin e.frame = false → SameBut (.bus :: reacting) s t))
  ∧ (∀ s : State, s.link.bus = .contending .alarm ∨ s.link.bus = .contending .presence →
    Yields (.arbitrationEnd false) s fun t => t.link.bus = .idle ∧ SameBut (.bus :: reacting) s t)
  ∧ ∀ (won : Bool) (s : State), (∀ c, s.link.bus ≠ .contending c) →
    Yields (.arbitrationEnd won) s fun t => SameBut reacting s t

/-- FRAME_SENT (R8, R9, R16, R17, R171): the register is emptied or the entry freed, whatever frame it held and whoever received it,
and the bus is idle. The frame is then delivered to its sender through the receive filter, as any frame under its header (R9), and
its producer is told (R8); that order is the model's (log 9). A PRESENCE that is due again stays loaded; an ANSWER or FINAL whose
gateway's slot is not marked is counted undelivered. A sent PULL makes its burst awaited and starts the pull timer (R111); a sent
IMAGE leaves its pull queue entry, and with the last the next entry is served (R113); a sent FINAL returns the descriptor and the
blocks (R150); a sent ANSWER returns the blocks of a STREAM job in which no cell waits, and none of a HOLD job (R151). The room goes
to the pending frames (R15): among those that fit the lowest class first, within a class the first that became pending, until none
fits. -/
def Obligations.FrameSentReleases : Prop :=
  (∀ (receipt : NodeMap) (pins : Pins) (s : State) (age : Nat) (d : Dest) (f : Frame) (e : TxEntry), QueueOrdered s →
    s.link.bus = .sending (.entry age) d f → entryOf s.link age = some e →
    Yields (.frameSent receipt pins) s fun t => t.link.bus = .idle ∧ entryOf t.link age = none)
  ∧ (∀ (receipt : NodeMap) (pins : Pins) (s : State) (age : Nat) (d : Dest) (f : Frame) (e : TxEntry),
    s.link.bus = .sending (.entry age) d f → entryOf s.link age = some e →
    let h : Header := ⟨ownNode s, d⟩
    let freed := fillQueue { takePins pins s with link := freeEntry { s.link with bus := .idle } age }
    exec (.frameSent receipt pins) s = .next (settle (completed e.frame receipt (filterFrame h f (deliver h f) freed))))
  ∧ (∀ (receipt : NodeMap) (pins : Pins) (s : State) (c : Candidate) (d : Dest) (f : Frame),
    s.link.bus = .sending c d f → c = .alarm ∨ c = .presence →
    let h : Header := ⟨ownNode s, d⟩
    let freed := fillQueue { takePins pins s with link := releaseSent c { s.link with bus := .idle } }
    exec (.frameSent receipt pins) s = .next (settle (filterFrame h f (deliver h f) freed)))
  ∧ (∀ (receipt : NodeMap) (pins : Pins) (s : State) (age : Nat) (d : Dest) (k : StationId) (area start : Byte) (stale : Bool)
      (hold : Hold),
    s.memb.state = .catchup → s.catchUp.phase = .pulling → s.link.bus = .sending (.entry age) d (.pull area start) →
    entryOf s.link age = some ⟨age, .pull k area start stale, hold⟩ →
    let burst := pullOf s.catchUp.pullIndex
    Yields (.frameSent receipt pins) s fun t =>
      (stale = false → t.catchUp = { s.catchUp with awaited := burstItems burst.1 burst.2, pullTimer := true })
      ∧ (stale = true → t.catchUp = s.catchUp)
      ∧ SameBut (.inputs :: .bus :: .misplaced :: .pulling :: stationFrame) s t)
  ∧ (∀ (receipt : NodeMap) (pins : Pins) (s : State) (age : Nat) (d : Dest) (puller : Node) (area item : Byte) (seq : Word)
      (contents : List Byte) (hold : Hold) (x : PullEntry) (rest : List PullEntry),
    s.memb.state = .live → s.link.bus = .sending (.entry age) d (.image area item seq contents) →
    entryOf s.link age = some ⟨age, .image puller area item, hold⟩ →
    s.catchUp.serve = x :: rest → x.puller = puller → x.area = area → item ∈ x.items →
    Yields (.frameSent receipt pins) s fun t =>
      (x.items.erase item ≠ [] → t.catchUp.serve = { x with items := x.items.erase item } :: rest)
      ∧ (x.items.erase item = [] → t.catchUp.serve = rest
          ∧ ∀ y ys, rest = y :: ys → ∀ i ∈ y.items, hasFrame t (fun g => g == .image y.puller y.area i) = true)
      ∧ SameBut (.inputs :: .bus :: .misplaced :: .serve :: stationFrame) s t)
  ∧ (∀ (receipt : NodeMap) (pins : Pins) (s : State) (age : Nat) (dst : Dest) (d : DescId) (b b' : FinalBody) (hold : Hold),
    s.link.bus = .sending (.entry age) dst (.final b) → entryOf s.link age = some ⟨age, .final (some d) b', hold⟩ →
    d ∈ s.pool.draining → (descOf s d).teardownMark = false → OneQueueEach s →
    Yields (.frameSent receipt pins) s fun t =>
      d ∉ t.pool.draining ∧ (d ∈ t.pool.free ∨ d ∈ t.pool.claiming) ∧ (d ∈ t.pool.free → descOf t d = Descriptor.zero)
      ∧ (∀ blk ∈ chainBlocks (descOf s d), blk ∈ t.pool.freeBlocks) ∧ tget t.engine.segs d = []
      ∧ t.engine.undelivered = (if receipt.getLsbD (nodeOf b'.pos.gateway).val then s.engine.undelivered
          else raise16 s.engine.undelivered)
      ∧ SameBut (.inputs :: .bus :: .misplaced :: .nonMember :: .undelivered :: .entries :: .usage :: stationFrame) s t)
  ∧ (∀ (receipt : NodeMap) (pins : Pins) (s : State) (age number : Nat) (dst : Dest) (d : DescId) (g : Node)
      (body body' : List Byte) (hold : Hold) (x : Segment),
    s.link.bus = .sending (.entry age) dst (.answer body) →
    entryOf s.link age = some ⟨age, .answer (some d) g number body', hold⟩ →
    s.pool.engine = some d ∨ d ∈ s.pool.bulk ∨ d ∈ s.pool.draining → OneQueueEach s →
    (tget s.engine.segs d).find? (fun y => y.number == number) = some x →
    Yields (.frameSent receipt pins) s fun t =>
      (jobContext t d).sent = x.first + x.count ∧ (∀ y ∈ tget t.engine.segs d, y.number ≠ number)
      ∧ (isStream (descOf s d) = true → ∀ blk ∈ chainBlocks (descOf s d),
          (some blk ∈ (descOf t d).chain ↔
            ∃ cell ∈ (tget s.pool.blocks blk).toList, CellStillWaits (x.first + x.count) (descOf s d).status cell)
          ∧ (some blk ∉ (descOf t d).chain → blk ∈ t.pool.freeBlocks))
      ∧ (isHold (descOf s d) = true → (descOf t d).chain = (descOf s d).chain)
      ∧ SameBut (.inputs :: .bus :: .misplaced :: .undelivered :: .ctx :: stationFrame) s t)
  ∧ (∀ (l : Link) (i : Nat) (f : TxFrame), nextAdmission l = some i → l.admissions[i]? = some f →
    classFits l.queue (txClass f) = true
    ∧ ∀ (j : Nat) (g : TxFrame), l.admissions[j]? = some g → classFits l.queue (txClass g) = true →
        txClass f < txClass g ∨ (txClass f = txClass g ∧ i ≤ j))
  ∧ (∀ s : State, ∀ g ∈ (fillQueue s).link.admissions, classFits (fillQueue s).link.queue (txClass g) = false)
  ∧ (∀ (receipt : NodeMap) (pins : Pins) (s : State) (d : Dest) (b : PresenceBody),
    s.link.bus = .sending .presence d (.presence b) →
    Yields (.frameSent receipt pins) s fun t =>
      t.link.bus = .idle ∧ t.link.presence = ⟨s.link.presence.reload, false⟩ ∧ t.link.alarm = s.link.alarm
      ∧ t.dir.slots = s.dir.slots ∧ t.dir.seq = s.dir.seq ∧ t.dir.key = s.dir.key
      ∧ t.engine.undelivered = s.engine.undelivered ∧ t.tamper = s.tamper ∧ t.pending = s.pending)
  ∧ (∀ (receipt : NodeMap) (pins : Pins) (s : State) (c : ZeroCause), onLink s = true → s.straps.valid = true →
    s.link.bus = .sending .alarm ⟨true, 0⟩ (.zero c.code) →
    Yields (.frameSent receipt pins) s fun t =>
      t.link.bus = .idle ∧ t.link.alarm = none
      ∧ SameBut (.inputs :: .bus :: .alarm :: stationFrame) s t)
  ∧ (∀ (receipt : NodeMap) (pins : Pins) (s : State) (age number : Nat) (job : Option DescId) (g : Node) (body : List Byte)
      (hold : Hold),
    onLink s = true → s.straps.valid = true → answerLengthOk body.length = true →
    s.link.bus = .sending (.entry age) ⟨false, g⟩ (.answer body) →
    entryOf s.link age = some ⟨age, .answer job g number body, hold⟩ →
    Yields (.frameSent receipt pins) s fun t =>
      t.link.bus = .idle ∧ (QueueOrdered s → entryOf t.link age = none)
      ∧ t.engine.undelivered = (if receipt.getLsbD g.val then s.engine.undelivered else raise16 s.engine.undelivered)
      ∧ SameBut (.inputs :: .bus :: .undelivered :: .ctx :: stationFrame) s t)
  ∧ ∀ (receipt : NodeMap) (pins : Pins) (s : State), (∀ c d f, s.link.bus ≠ .sending c d f) →
    Yields (.frameSent receipt pins) s fun t => t.inputs = { s.inputs with pins := pins } ∧ SameBut (.inputs :: reacting) s t

/-- ABORT and RECEIVE_ERROR (R6, R7, R10): frames that end without being received. At an abort an own frame in transmission stops and
stays in place as though it had lost arbitration, registers, queue and ages unchanged; a frame of another is discarded without a
count. A receive error is counted, the counter held at 65,535 (R190): a LIVE station that is not leaving finds the cause
RECEIVE_ERROR and queues its own EXPEL (R35); an attempt of a CATCHUP station fails (R119), in JOINING once its JOIN's withdrawal is
decided (R118); other states only count. The receipt slot
is not driven in either case, on the link or off it (R1, R7). -/
def Obligations.FramesNotReceived : Prop :=
  (∀ (s : State) (c : Candidate) (d : Dest) (f : Frame), onLink s = true → s.link.bus = .sending c d f →
    exec .abort s = .next { s with link := { s.link with slotDriven := false, bus := .idle } })
  ∧ (∀ s : State, onLink s = true → (∀ c d f, s.link.bus ≠ .sending c d f) →
    exec .abort s = .next { s with link := { s.link with slotDriven := false } })
  ∧ (∀ s : State, onLink s = false → exec .abort s = .next { s with link := { s.link with slotDriven := false } })
  ∧ (∀ s : State, onLink s = true →
    Yields .receiveError s fun t =>
      t.link.receiveErrors.toNat = min 65535 (s.link.receiveErrors.toNat + 1) ∧ t.link.slotDriven = false)
  ∧ (∀ s : State, s.memb.state = .live → s.memb.leaving = false →
    Yields .receiveError s fun t =>
      t.memb.leaving = true ∧ hasFrame t (fun f => f == .expel (self s) .receiveError) = true ∧ t.catchUp.serve = []
      ∧ SameBut (.receiveErrors :: .slotDriven :: .leaving :: .serve :: reacting) s t)
  ∧ (∀ s : State, s.memb.state = .catchup → s.catchUp.phase = .waitSource ∨ s.catchUp.phase = .pulling
      ∨ s.catchUp.phase = .verifying →
    Yields .receiveError s fun t => AttemptFailed s t)
  ∧ (∀ s : State, s.memb.state = .catchup → s.catchUp.phase = .joining →
    Yields .receiveError s fun t => JoiningFailed .receiveError s t)
  ∧ (∀ s : State, onLink s = true → s.memb.state ≠ .live → s.memb.state ≠ .catchup →
    Yields .receiveError s fun t => SameBut (.receiveErrors :: .slotDriven :: reacting) s t)
  ∧ ∀ s : State, onLink s = false →
    Yields .receiveError s fun t => t.link.slotDriven = false ∧ SameBut (.slotDriven :: reacting) s t

/-- MISPLACED_FRAME and frames of non-members (R12, R13): a frame whose bits spell no frame of the table, or whose role, addressing or
length does not fit, is counted as misplaced and otherwise ignored; its receipt slot is driven, since it arrived intact (R3, R7). That
one addressed to another node is counted too is the model's reading (log 64). A body above 96 bytes is a receive error (R10). A
station frame that acts on the cabinet state and comes from outside the live set is counted and ignored by a CATCHUP or LIVE
station. -/
def Obligations.FilteredFramesAreCounted : Prop :=
  (∀ (raw : RawFrame) (s : State), onLink s = true → raw.body.length ≤ 96 →
    (∀ f, rawFrame? raw = some f → frameMisplaced f (stationCount s) (rawHeader raw) = true) →
    Yields (.misplacedFrame raw) s fun t =>
      t.link.misplaced.toNat = min 65535 (s.link.misplaced.toNat + 1) ∧ t.link.slotDriven = true
      ∧ SameBut (.misplaced :: stationFrame) s t)
  ∧ (∀ (raw : RawFrame) (s : State), onLink s = true → 96 < raw.body.length →
    Yields (.misplacedFrame raw) s fun t =>
      t.link.receiveErrors.toNat = min 65535 (s.link.receiveErrors.toNat + 1) ∧ t.link.slotDriven = false)
  ∧ (∀ (raw : RawFrame) (s : State), onLink s = false →
    Yields (.misplacedFrame raw) s fun t => t.link.slotDriven = false ∧ SameBut (.slotDriven :: reacting) s t)
  ∧ ∀ (h : Header) (f : Frame) (c : Instr) (pins : Pins) (s : State),
    memberCommand h f pins = some c → frameMisplaced f (stationCount s) h = false → applies s = true →
    setHas s.memb.live h.src.val = false → roleOf (stationCount s) h.src = .station →
    Yields c s fun t =>
      t.link.nonMember.toNat = min 65535 (s.link.nonMember.toNat + 1)
      ∧ SameBut (.nonMember :: .inputs :: stationFrame) s t

/-! ## Membership and zeroisation -/

/-- Zeroisation by a ZERO of another station and by an accepted ERASE (R25, R98, R181, R182): everything R182 lists is erased, the
cause is recorded (R183), a station's own cause loads its ZERO. A station's own ZERO and one in ZEROISED change nothing. -/
def Obligations.ZeroisationErases : Prop :=
  (∀ (h : Header) (cause : Byte) (k : StationId) (s : State),
    Reaches s h (.zero cause) → stationOf? s h.src = some k → k ≠ self s → zeroCauseListed cause = true →
    s.memb.state ≠ .zeroised →
    Yields (.zero h cause) s fun t => Zeroised s t ∧ t.tamper.cause = .peer k ∧ t.link.alarm = s.link.alarm)
  ∧ (∀ (h : Header) (cause : Byte) (k : StationId) (s : State),
    Reaches s h (.zero cause) → stationOf? s h.src = some k → k = self s ∨ s.memb.state = .zeroised →
    Yields (.zero h cause) s fun t => SameBut stationFrame s t)
  ∧ ∀ (h : Header) (b : OrderBody) (s : State),
    Reaches s h (.order codeErase b) → orderFormFails codeErase b = false → orderServed s codeErase = true →
    orderApprovalsFail s codeErase b = false →
    Yields (.orderErase h b) s fun t =>
      Zeroised s t ∧ t.tamper.cause = .order ∧ (s.link.alarm = none → t.link.alarm = some .order)

/-- PRESENCE (R28, R33, R36 to R38, R40, R110, R117 to R119): the sender's record takes what it announces, with its standing, and no
other record changes; at a LIVE station a member's watch restarts, a member that announces another state is put out by the duty
station, and the causes SEQUENCE and MISMATCH are found. In LISTENING the listening record takes it while the window is open, and
the live set of a LIVE sender with an equal cabinet check value is adopted; a founder withdraws its JOIN then and enters CATCHUP. In
CATCHUP the source's PRESENCE ends WAIT_SOURCE in an attempt or in DETACHED(AHEAD), and in VERIFYING queues the JOIN where all five
comparisons hold; where one fails, or the source announces another state than LIVE, the attempt fails. -/
def Obligations.PresenceFillsRecord : Prop :=
  (∀ (h : Header) (b : PresenceBody) (k : StationId) (st : StationState) (s : State),
    Reaches s h (.presence b) → stationOf? s h.src = some k → StationState.ofCode? b.state = some st →
    Yields (.presence h b) s fun t =>
      tget t.memb.peers k = some ⟨st, b.seq, b.dirDigest, b.workDigest,
        if k = self s then .agree else standingOf s b.seq b.dirDigest b.workDigest⟩
      ∧ (∀ j, j ≠ k → tget t.memb.peers j = tget s.memb.peers j)
      ∧ (s.memb.state = .blank ∨ s.memb.state = .zeroised ∨ s.memb.state = .detached →
          SameBut (.peers :: stationFrame) s t))
  ∧ (∀ (h : Header) (b : PresenceBody) (k : StationId) (st : StationState) (s : State),
    Reaches s h (.presence b) → stationOf? s h.src = some k → StationState.ofCode? b.state = some st →
    s.memb.state = .live → isMember s k = true → k ≠ self s →
    Yields (.presence h b) s fun t =>
      tget t.memb.watches k = .running
      ∧ (st ≠ .live → duty s = true → hasFrame t (isSilentExpelOf k) = true)
      ∧ (st = .live → s.dir.seq.toNat < b.seq.toNat → s.memb.leaving = false →
          t.memb.leaving = true ∧ hasFrame t (fun f => f == .expel (self s) .sequence) = true)
      ∧ (st = .live → b.seq = s.dir.seq → standingOf s b.seq b.dirDigest b.workDigest = .differ →
          mismatched (recordPresence k st b s) = true → s.memb.leaving = false →
          t.memb.leaving = true ∧ hasFrame t (fun f => f == .expel (self s) .mismatch) = true)
      ∧ SameBut (.peers :: .watches :: .leaving :: .serve :: stationFrame) s t)
  ∧ (∀ (h : Header) (b : PresenceBody) (k : StationId) (st : StationState) (s : State),
    Reaches s h (.presence b) → stationOf? s h.src = some k → StationState.ofCode? b.state = some st →
    s.memb.state = .listening → st ≠ .live ∨ b.check ≠ s.dir.cabinetCheck →
    Yields (.presence h b) s fun t => SameBut (.peers :: .heard :: stationFrame) s t)
  ∧ (∀ (h : Header) (b : PresenceBody) (k : StationId) (st : StationState) (s : State),
    Reaches s h (.presence b) → stationOf? s h.src = some k → StationState.ofCode? b.state = some st →
    s.memb.state = .listening → hasFrame s isFoundingJoin = false →
    Yields (.presence h b) s fun t =>
      (∀ j, tget t.memb.heard j = if j = k ∧ k ≠ self s ∧ s.memb.windowOpen = true then some ⟨st, b.seq, b.yield, b.check⟩
        else tget s.memb.heard j)
      ∧ (st = .live → b.check = s.dir.cabinetCheck → t.memb.live = setOfMap (stationCount s) b.live)
      ∧ SameBut (.peers :: .heard :: .live :: stationFrame) s t)
  ∧ (∀ (h : Header) (b : PresenceBody) (k j : StationId) (s : State),
    Reaches s h (.presence b) → stationOf? s h.src = some k → b.state = StationState.live.code → s.memb.state = .listening →
    s.memb.windowOpen = false → heardLive s = none → hasFrame s isFoundingJoin = true → b.check = s.dir.cabinetCheck →
    setHas (setOfMap (stationCount s) b.live) j.val = true →
    (∀ i : StationId, i < j → setHas (setOfMap (stationCount s) b.live) i.val = false) →
    Yields (.presence h b) s fun t =>
      ((∀ e ∈ s.link.queue, isFoundingJoin e.frame = true → isWaiting s.link e = true) →
        hasFrame t isFoundingJoin = false ∧ EntersCatchUp j (tget (recordPresence k .live b s).memb.peers j) s t)
      ∧ ((∃ e ∈ s.link.queue, isFoundingJoin e.frame = true ∧ isWaiting s.link e = false) →
        t.memb.state = .listening ∧ t.memb.live = setOfMap (stationCount s) b.live))
  ∧ (∀ (h : Header) (b : PresenceBody) (k : StationId) (s : State),
    Reaches s h (.presence b) → stationOf? s h.src = some k → b.state = StationState.live.code →
    s.memb.state = .catchup → s.catchUp.source = some k →
    Yields (.presence h b) s fun t =>
      (s.catchUp.phase = .waitSource → b.seq.toNat < s.dir.seq.toNat →
        t.memb.state = .detached ∧ t.memb.cause = some .ahead ∧ t.memb.live = 0#8 ∧ t.catchUp.phase = .idle)
      ∧ (s.catchUp.phase = .waitSource → s.dir.seq.toNat ≤ b.seq.toNat →
        t.memb.state = .catchup ∧ t.catchUp.phase = .pulling ∧ t.catchUp.source = some k ∧ t.catchUp.pullIndex = 1
        ∧ t.catchUp.verifyTimer = false ∧ hasFrame t isPull = true
        ∧ t.catchUp.attempts.toNat = min 65535 (s.catchUp.attempts.toNat + 1))
      ∧ (s.catchUp.phase = .pulling ∨ s.catchUp.phase = .joining → SameBut (.peers :: stationFrame) s t)
      ∧ (s.catchUp.phase = .verifying → b.seq = s.dir.seq → b.dirDigest = ownDirDigest s → b.workDigest = ownWorkDigest s →
        b.check = s.dir.cabinetCheck →
        t.catchUp = { s.catchUp with phase := .joining, verifyTimer := false } ∧ hasFrame t (fun f => f == .join false) = true
        ∧ SameBut (.peers :: .pulling :: stationFrame) s t)
      ∧ (s.catchUp.phase = .verifying → b.seq ≠ s.dir.seq ∨ b.dirDigest ≠ ownDirDigest s ∨ b.workDigest ≠ ownWorkDigest s
          ∨ b.check ≠ s.dir.cabinetCheck → AttemptFailed (recordPresence k .live b s) t))
  ∧ ∀ (h : Header) (b : PresenceBody) (k : StationId) (st : StationState) (s : State),
    Reaches s h (.presence b) → stationOf? s h.src = some k → StationState.ofCode? b.state = some st → st ≠ .live →
    s.memb.state = .catchup → s.catchUp.source = some k →
    Yields (.presence h b) s fun t =>
      (s.catchUp.phase = .waitSource ∨ s.catchUp.phase = .pulling ∨ s.catchUp.phase = .verifying →
        AttemptFailed (recordPresence k st b s) t)
      ∧ (s.catchUp.phase = .joining → JoiningFailed .sourceLost (recordPresence k st b s) t)

/-- JOIN and founding JOIN (R29, R40, R118). A JOIN is taken from a station outside the live set whose cabinet check value is the
receiver's: it joins the live set and its record becomes LIVE; a LIVE receiver starts its watch. The sender itself enters LIVE at
its own JOIN. A JOIN of a member, or with another check value, changes nothing. With the founding flag it is taken where the live
set is empty and the check values are equal: the sender becomes the one member, and at its own delivery enters LIVE; with members in
the set it is ignored. The own JOIN that is not taken fails the attempt (R119); one that is taken after a receive error found in
JOINING finds the cause RECEIVE_ERROR. A founder whose live set another's founding JOIN has filled withdraws its own and enters
CATCHUP from that station; so does one whose founding JOIN is ignored, from the source of R39. That the record's standing is taken
before the sender joins the live set is the model's choice (log 22). -/
def Obligations.JoinAddsMember : Prop :=
  (∀ (h : Header) (b : JoinBody) (k : StationId) (s : State),
    Reaches s h (.join false b) → stationOf? s h.src = some k → k ≠ self s → isMember s k = false →
    b.check = s.dir.cabinetCheck → hasFrame s isFoundingJoin = false →
    Yields (.join h b) s fun t =>
      t.memb.live = setAdd s.memb.live k.val
      ∧ tget t.memb.peers k = some ⟨.live, b.seq, b.dirDigest, b.workDigest, standingOf s b.seq b.dirDigest b.workDigest⟩
      ∧ (s.memb.state = .live → tget t.memb.watches k = .running)
      ∧ SameBut (.live :: .peers :: .watches :: stationFrame) s t)
  ∧ (∀ (h : Header) (b : JoinBody) (s : State),
    Reaches s h (.join false b) → stationOf? s h.src = some (self s) → isMember s (self s) = false →
    b.check = s.dir.cabinetCheck → s.memb.state = .catchup →
    Yields (.join h b) s fun t =>
      t.memb.state = .live ∧ t.memb.live = setAdd s.memb.live (self s).val ∧ t.catchUp.phase = .idle ∧ t.catchUp.failures = 0
      ∧ (∀ j, setHas s.memb.live j.val = true → j ≠ self s → tget t.memb.watches j = .running)
      ∧ (s.catchUp.joinFailure ≠ some .receiveError →
          SameBut (.station :: .live :: .peers :: .watches :: .windowOpen :: .pulling :: stationFrame) s t)
      ∧ (s.catchUp.joinFailure = some .receiveError → s.memb.leaving = false →
          t.memb.leaving = true ∧ hasFrame t (fun f => f == .expel (self s) .receiveError) = true))
  ∧ (∀ (h : Header) (b : JoinBody) (s : State),
    Reaches s h (.join false b) → stationOf? s h.src = some (self s) → s.memb.state = .catchup → s.catchUp.phase = .joining →
    isMember s (self s) = true ∨ b.check ≠ s.dir.cabinetCheck →
    Yields (.join h b) s fun t => AttemptFailed s t)
  ∧ (∀ (h : Header) (b : JoinBody) (k : StationId) (s : State),
    Reaches s h (.join false b) → stationOf? s h.src = some k → k ≠ self s →
    isMember s k = true ∨ b.check ≠ s.dir.cabinetCheck →
    Yields (.join h b) s fun t => SameBut stationFrame s t)
  ∧ (∀ (h : Header) (b : JoinBody) (k : StationId) (s : State),
    Reaches s h (.join true b) → stationOf? s h.src = some k → k ≠ self s → s.memb.live = 0#8 →
    b.check = s.dir.cabinetCheck → s.memb.state = .listening ∨ s.memb.state = .catchup →
    hasFrame s isFoundingJoin = false →
    Yields (.joinFounding h b) s fun t =>
      t.memb.live = setAdd 0#8 k.val
      ∧ tget t.memb.peers k = some ⟨.live, b.seq, b.dirDigest, b.workDigest, standingOf s b.seq b.dirDigest b.workDigest⟩
      ∧ SameBut (.live :: .peers :: stationFrame) s t)
  ∧ (∀ (h : Header) (b : JoinBody) (s : State),
    Reaches s h (.join true b) → stationOf? s h.src = some (self s) → s.memb.live = 0#8 →
    b.check = s.dir.cabinetCheck → s.memb.state = .listening → s.catchUp.joinFailure = none →
    Yields (.joinFounding h b) s fun t =>
      t.memb.state = .live ∧ t.memb.live = setAdd 0#8 (self s).val ∧ t.memb.windowOpen = false
      ∧ SameBut (.station :: .live :: .peers :: .watches :: .windowOpen :: .pulling :: stationFrame) s t)
  ∧ (∀ (h : Header) (b : JoinBody) (k : StationId) (s : State),
    Reaches s h (.join true b) → stationOf? s h.src = some k → k ≠ self s → s.memb.live = 0#8 →
    b.check = s.dir.cabinetCheck → s.memb.state = .listening → hasFrame s isFoundingJoin = true → heardLive s = none →
    Yields (.joinFounding h b) s fun t =>
      ((∀ e ∈ s.link.queue, isFoundingJoin e.frame = true → isWaiting s.link e = true) →
        hasFrame t isFoundingJoin = false
        ∧ EntersCatchUp k (some ⟨.live, b.seq, b.dirDigest, b.workDigest, standingOf s b.seq b.dirDigest b.workDigest⟩) s t)
      ∧ ((∃ e ∈ s.link.queue, isFoundingJoin e.frame = true ∧ isWaiting s.link e = false) →
        t.memb.state = .listening ∧ t.memb.live = setAdd 0#8 k.val))
  ∧ (∀ (h : Header) (b : JoinBody) (k : StationId) (s : State),
    Reaches s h (.join true b) → stationOf? s h.src = some (self s) → s.memb.live ≠ 0#8 → s.memb.state = .listening →
    listeningSource s = some k →
    Yields (.joinFounding h b) s fun t => EntersCatchUp k (tget s.memb.peers k) s t)
  ∧ ∀ (h : Header) (b : JoinBody) (k : StationId) (s : State),
    Reaches s h (.join true b) → stationOf? s h.src = some k → k ≠ self s → s.memb.live ≠ 0#8 →
    Yields (.joinFounding h b) s fun t => SameBut stationFrame s t

/-- EXPEL of another node (R30, R55, R77, R139): out of the live set with its rounds and its pending clears, its watch stopped; its
claimed positions are DONE with reason LOST, D advanced, and their cards no longer reserved, nothing charged; in LISTENING only the
live set changes; one naming no member is ignored. One that removes the source of a CATCHUP station also fails its attempt (R119),
for want of any member into LISTENING (R120), and in JOINING once the JOIN's withdrawal is decided (R118). -/
def Obligations.ExpelRemovesMember : Prop :=
  (∀ (h : Header) (node reason : Byte) (pins : Pins) (k : StationId) (r : ExpelReason) (s : State),
    Reaches s h (.expel node reason) → (indexOf? 8 node : Option StationId) = some k → ExpelReason.ofCode? reason = some r →
    isMember s k = true →
    (s.memb.state = .live ∧ k ≠ self s) ∨ (s.memb.state = .catchup ∧ s.catchUp.source ≠ some k) →
    Yields (.expel h node reason pins) s fun t =>
      t.memb.live = setDel s.memb.live k.val ∧ tget t.memb.watches k = .stopped
      ∧ openEntries t = (openEntries s).filter (fun e => e.round.proposer != k)
      ∧ (∀ l p, (entryAt t l).state ≠ .free →
          ¬((positionOf t l p).state = .claimed ∧ (positionOf t l p).owner.toNat = k.val))
      ∧ (∀ l, (entryAt t l).state ≠ .free → setHas (entryAt t l).pendingClear k.val = false)
      ∧ (∀ l, entryAt t l = lostEntry k (entryAt s l))
      ∧ (∀ m, (t.dir.usageOf m).reserved.toNat = (s.dir.usageOf m).reserved.toNat - claimedCards s k m
          ∧ (t.dir.usageOf m).used = (s.dir.usageOf m).used ∧ (t.dir.usageOf m).exhausted = (s.dir.usageOf m).exhausted)
      ∧ SameBut (.inputs :: .live :: .watches :: .usage :: .roundList :: .entries :: .locals :: stationFrame) s t)
  ∧ (∀ (h : Header) (node reason : Byte) (pins : Pins) (k : StationId) (r : ExpelReason) (s : State),
    Reaches s h (.expel node reason) → (indexOf? 8 node : Option StationId) = some k → ExpelReason.ofCode? reason = some r →
    isMember s k = true → s.memb.state = .listening →
    Yields (.expel h node reason pins) s fun t =>
      t.memb.live = setDel s.memb.live k.val ∧ SameBut (.inputs :: .live :: stationFrame) s t)
  ∧ (∀ (h : Header) (node reason : Byte) (pins : Pins) (k : StationId) (r : ExpelReason) (s : State),
    Reaches s h (.expel node reason) → (indexOf? 8 node : Option StationId) = some k → ExpelReason.ofCode? reason = some r →
    isMember s k = true → s.memb.state = .catchup → s.catchUp.source = some k → s.catchUp.phase ≠ .idle →
    let s' := { s with memb := { s.memb with live := setDel s.memb.live k.val } }
    Yields (.expel h node reason pins) s fun t =>
      (s.catchUp.phase ≠ .joining → AttemptFailed s' t)
      ∧ (s.catchUp.phase = .joining → JoiningFailed .sourceLost s' t)
      ∧ (t.memb.state = .catchup →
          t.memb.live = setDel s.memb.live k.val ∧ tget t.memb.watches k = .stopped
          ∧ (openEntries t).map (·.round) = ((openEntries s).filter (fun e => e.round.proposer != k)).map (·.round)
          ∧ (∀ l, entryAt t l = lostEntry k (entryAt s l))
          ∧ ∀ m, (t.dir.usageOf m).reserved.toNat = (s.dir.usageOf m).reserved.toNat - claimedCards s k m
              ∧ (t.dir.usageOf m).used = (s.dir.usageOf m).used ∧ (t.dir.usageOf m).exhausted = (s.dir.usageOf m).exhausted))
  ∧ ∀ (h : Header) (node reason : Byte) (pins : Pins) (s : State),
    Reaches s h (.expel node reason) → (∀ k, (indexOf? 8 node : Option StationId) = some k → isMember s k = false) →
    Yields (.expel h node reason pins) s fun t => SameBut (.inputs :: stationFrame) s t

/-- EXPEL of the station itself while LIVE (R30, R31, R87, R104, R154, R172): its own claimed positions are LOST with their cards
released, its rounds leave the list, and no line awaits it; every job, round order, assembly and pull of its own is dropped, the
free descriptors and blocks then in number order (log 16); it enters CATCHUP from a LIVE member of the live set without itself, or
LISTENING when there is none (R110); for RESTART it takes a warm start (R23), here with no reading of an open door at the window's
close (R179). The transmit queue is purged (R19): every waiting entry and pending frame is gone, and a contending entry is held for
it. -/
def Obligations.OwnExpelLeavesLive : Prop :=
  (∀ (h : Header) (node reason : Byte) (pins : Pins) (r : ExpelReason) (s : State),
    Reaches s h (.expel node reason) → (indexOf? 8 node : Option StationId) = some (self s) →
    ExpelReason.ofCode? reason = some r → isMember s (self s) = true → s.memb.state = .live →
    r ≠ .restart → s.memb.restartOutstanding = false →
    Yields (.expel h node reason pins) s fun t =>
      t.pool = Pool.empty ∧ t.engine.inFlight = none ∧ t.engine.segs = noSegments ∧ t.rounds.queue = []
      ∧ t.rounds.own = OwnRound.empty ∧ t.cust.areas = Vector.replicate 2 none ∧ t.catchUp.serve = []
      ∧ t.memb.leaving = false ∧ t.memb.watches = Vector.replicate 8 .stopped
      ∧ (QueueOrdered s → ∀ e ∈ s.link.queue,
          (isWaiting s.link e = true → entryOf t.link e.age = none)
          ∧ (contendingAge s.link = some e.age → (entryOf t.link e.age).map (·.hold) = some .purge))
      ∧ (WithinCapacity s → QueueOrdered s → t.link.admissions = [])
      ∧ (t.memb.state = .catchup →
          (∀ l, entryAt t l = lostEntry (self s) (entryAt s l))
          ∧ openEntries t = ((openEntries s).filter (fun e => e.round.proposer != self s)).map (fun e => { e with mark := .none })
          ∧ ∀ m, (t.dir.usageOf m).reserved.toNat = (s.dir.usageOf m).reserved.toNat - claimedCards s (self s) m
              ∧ (t.dir.usageOf m).used = (s.dir.usageOf m).used ∧ (t.dir.usageOf m).exhausted = (s.dir.usageOf m).exhausted)
      ∧ (t.memb.state = .listening → t.lines = LineTable.empty ∧ t.dir = s.dir.dropReserved ∧ openEntries t = [])
      ∧ ((∃ j, isMember s j = true ∧ j ≠ self s ∧ qualifies s j = true) →
          t.memb.state = .catchup ∧ t.memb.live = setDel s.memb.live (self s).val ∧ t.catchUp.phase = .pulling)
      ∧ ((∀ j, isMember s j = true → j ≠ self s → qualifies s j = false) →
          t.memb.state = .listening ∧ t.memb.live = 0#8 ∧ t.memb.windowOpen = true))
  ∧ ∀ (h : Header) (node reason : Byte) (pins : Pins) (r : ExpelReason) (s : State),
    Reaches s h (.expel node reason) → (indexOf? 8 node : Option StationId) = some (self s) →
    ExpelReason.ofCode? reason = some r → isMember s (self s) = true → s.memb.state = .live →
    r = .restart ∨ s.memb.restartOutstanding = true → s.tamper.window = none ∨ pins.doorOpen = false →
    Yields (.expel h node reason pins) s fun t =>
      t.memb.state = warmState (strapsOf pins) s.dir ∧ t.straps = strapsOf pins ∧ t.memb.live = 0#8
      ∧ t.memb.leaving = false ∧ t.memb.restartOutstanding = false ∧ t.cust.record = none
      ∧ t.dir = (if (strapsOf pins).valid then s.dir.dropReserved else Directory.erased)
      ∧ t.pool = Pool.empty ∧ t.lines = LineTable.empty ∧ t.rounds = RoundControl.empty ∧ t.tamper.window = none
      ∧ (QueueOrdered s → ∀ e ∈ s.link.queue, entryOf t.link e.age = none)

/-- SILENCE_WATCH_EXPIRY (R33): the duty station puts the silent member out; another station puts out the lowest member once every
member below it has failed. A watch that is not running has no effect. -/
def Obligations.SilenceWatchExpires : Prop :=
  (∀ (k : StationId) (s : State), tget s.memb.watches k = .running →
    Yields (.silenceWatchExpiry k) s fun t =>
      tget t.memb.watches k = .expired ∧ (∀ j, j ≠ k → tget t.memb.watches j = tget s.memb.watches j)
      ∧ (duty s = true → hasFrame t (isSilentExpelOf k) = true)
      ∧ (∀ (m : StationId) (rest : List StationId), isLive s = true → duty s = false →
          (members s).filter (fun j => j.val < (self s).val) = m :: rest →
          (∀ j ∈ m :: rest, hasFailed (setSilence s k .expired) j = true) → hasFrame t (isSilentExpelOf m) = true)
      ∧ SameBut (.watches :: reacting) s t)
  ∧ ∀ (k : StationId) (s : State), tget s.memb.watches k ≠ .running →
    Yields (.silenceWatchExpiry k) s fun t => SameBut reacting s t

/-- LISTENING_WINDOW_EXPIRY (R39, R110): with a LIVE node heard or a member known the station turns to it as its source, DETACHED(AHEAD)
where its own commit sequence is the higher (but for a yield mark); else it founds if it may; else the window opens anew. -/
def Obligations.ListeningWindowDecides : Prop :=
  (∀ s : State, s.memb.state = .listening → s.memb.windowOpen = true → heardLive s = none → s.memb.live = 0#8 →
    mayFound s = true →
    Yields .listeningWindowExpiry s fun t =>
      t.memb.windowOpen = false ∧ hasFrame t isFoundingJoin = true ∧ SameBut (.windowOpen :: reacting) s t)
  ∧ (∀ s : State, s.memb.state = .listening → s.memb.windowOpen = true → heardLive s = none → s.memb.live = 0#8 →
    mayFound s = false →
    Yields .listeningWindowExpiry s fun t =>
      t.memb.heard = Vector.replicate 8 none ∧ SameBut (.heard :: reacting) s t)
  ∧ (∀ (s : State) (k : StationId), s.memb.state = .listening → s.memb.windowOpen = true →
    heardLive s ≠ none ∨ s.memb.live ≠ 0#8 → listeningSource s = some k →
    Yields .listeningWindowExpiry s fun t =>
      t.memb.windowOpen = false ∧ t.memb.yieldMark = false
      ∧ (∀ r, s.memb.yieldMark = false → tget s.memb.peers k = some r → r.seq.toNat < s.dir.seq.toNat →
          t.memb.state = .detached ∧ t.memb.cause = some .ahead ∧ t.memb.live = 0#8)
      ∧ (∀ r, tget s.memb.peers k = some r → s.dir.seq.toNat ≤ r.seq.toNat →
          t.memb.state = .catchup ∧ t.catchUp.phase = .pulling ∧ t.catchUp.source = some k ∧ t.catchUp.pullIndex = 1
          ∧ t.memb.live = s.memb.live ∧ hasFrame t isPull = true)
      ∧ (s.memb.yieldMark = true → t.memb.state = .catchup ∧ t.catchUp.phase = .pulling ∧ t.catchUp.source = some k)
      ∧ (s.memb.yieldMark = false → tget s.memb.peers k = none →
          t.memb.state = .catchup ∧ t.catchUp.phase = .waitSource ∧ t.catchUp.verifyTimer = true)
      ∧ t.dir.slots = s.dir.slots ∧ t.dir.key = s.dir.key ∧ t.dir.seq = s.dir.seq)
  ∧ ∀ s : State, ¬(s.memb.state = .listening ∧ s.memb.windowOpen = true) →
    Yields .listeningWindowExpiry s fun t => SameBut reacting s t

/-! ## Lines and job settlement -/

/-- The claim conditions and what a LIVE station does about a POSTED position (R127 to R130, R144). The conditions give the reason of
the first check of R127's table that fails. Where one fails, the preferred station queues a DECLINE with that reason and every CLAIM
for the position that is not on the bus goes; where they hold, a station that meets R129's list and whose pool grants the resources
queues its CLAIM, and one that does not meet it queues none. The preferred station acts at the posting, any other at the expiry of
the deferral timer. That a station which is not preferred keeps no DECLINE is the model's choice (log 53), and so is that positions
are considered once at the end of a step (log 10). -/
def Obligations.PostedPositionsAreConsidered : Prop :=
  (∀ (s : State) (x : Position) (note : Option PostingNote),
    claimConditions s x note = ((claimChecks s x note).find? (fun c => c.1)).map (fun c => c.2))
  ∧ (∀ (s : State) (e : LineEntry) (p : PosId), s.memb.live ≠ 0#8 →
    ∃ k, preferred s e p = some k ∧ isMember s k = true
      ∧ ((members s).filter (fun j => j < k)).length = (8 * e.line.toNat + p.val + e.gateway.toNat) % (members s).length)
  ∧ (∀ (s : State) (e : LineEntry) (p : PosId) (x : Position) (loc : LocalPos), mayClaim s e p x loc = true ↔
    serving s = true ∧ hasFrame s (isClaimFor (posRefOf e p)) = false
      ∧ (preferred s e p = some (self s) ∨ loc.deferral = .expired)
      ∧ ∃ m, slotOf? x.master = some m ∧ x.count.toNat + ownClaimCards s x.master (posRefOf e p) ≤ s.dir.room m)
  ∧ (∀ (s : State) (l : LineId) (p : PosId) (reason : DeclineReason), (positionOf s l p).state = .posted →
    claimConditions s (positionOf s l p) (localAt s l p).note = some reason →
    let pos := posRefOf (entryAt s l) p
    let t := considerPosition s l p
    (preferred s (entryAt s l) p = some (self s) → hasFrame t (isDeclineFor pos) = true
      ∧ (hasFrame s (isDeclineFor pos) = false → hasFrame t (fun f => f == .decline pos reason) = true))
    ∧ (∀ e ∈ t.link.queue, isClaimFor pos e.frame = true → isWaiting t.link e = false)
    ∧ (∀ f ∈ t.link.admissions, isClaimFor pos f = false))
  ∧ (∀ (s : State) (l : LineId) (p : PosId) (note : PostingNote) (d : DescId) (rest : List DescId),
    (positionOf s l p).state = .posted → (localAt s l p).note = some note →
    claimConditions s (positionOf s l p) (some note) = none →
    mayClaim (retract (isDeclineFor (posRefOf (entryAt s l) p)) s) (entryAt s l) p (positionOf s l p) (localAt s l p) = true →
    s.pool.free = d :: rest →
    let x := positionOf s l p
    let pos := posRefOf (entryAt s l) p
    let t := considerPosition s l p
    (reservedBlocks s.pool + blocksNeeded x.kind x.count.toNat ≤ freeBlockCount s.pool →
      hasFrame t (fun f => f == .claim ⟨pos, x.count, x.master, x.transport⟩) = true ∧ t.pool.free = rest.filter (· != d)
      ∧ t.pool.claiming = s.pool.claiming.filter (· != d) ++ [d] ∧ descOf t d = grantedDescriptor pos x note)
    ∧ (freeBlockCount s.pool < reservedBlocks s.pool + blocksNeeded x.kind x.count.toNat →
      hasFrame t (isClaimFor pos) = false ∧ t.pool = { s.pool with refused := true }))
  ∧ (∀ (s : State) (l : LineId) (p : PosId), (positionOf s l p).state = .posted →
    claimConditions s (positionOf s l p) (localAt s l p).note = none →
    (localAt s l p).note = none
      ∨ mayClaim (retract (isDeclineFor (posRefOf (entryAt s l) p)) s) (entryAt s l) p (positionOf s l p) (localAt s l p)
          = false →
    considerPosition s l p = retract (isDeclineFor (posRefOf (entryAt s l) p)) s)
  ∧ (∀ (h : Header) (b : JobBody) (l : LineId) (reason : DeclineReason) (s : State),
    Reaches s h (.job b) → s.memb.state = .live → postingTest s (byteOf h.src) b.line b.position = .ok l →
    let f := JobFunction.ofCode b.function
    let p := placeOf (entryAt s l).p
    let x := postedPosition .single f (slotAtPosting s b.master) (transportAtPosting s f b.transport)
      (if f = .check then 0#8 else 1#8)
    claimConditions s x none = some reason → preferred s (entryAt s l) p = some (self s) → NotesPlaced s →
    hasFrame s (isDeclineFor (posRefOf (entryAt s l) p)) = false →
    Yields (.job h b) s fun t => hasFrame t (fun f => f == .decline (posRefOf (entryAt s l) p) reason) = true)
  ∧ (∀ (h : Header) (b : JobBody) (l : LineId) (m : SlotId) (s : State),
    Reaches s h (.job b) → s.memb.state = .live → postingTest s (byteOf h.src) b.line b.position = .ok l →
    postedPositions s = [] →
    let f := JobFunction.ofCode b.function
    let p := placeOf (entryAt s l).p
    let x := postedPosition .single f (slotAtPosting s b.master) (transportAtPosting s f b.transport)
      (if f = .check then 0#8 else 1#8)
    let pos := posRefOf (entryAt s l) p
    claimConditions s x none = none → preferred s (entryAt s l) p = some (self s) → serving s = true →
    hasFrame s isClaim = false → slotOf? x.master = some m → s.pool.free ≠ [] →
    reservedBlocks s.pool ≤ freeBlockCount s.pool →
    Yields (.job h b) s fun t =>
      hasFrame t (fun f => f == .claim ⟨pos, x.count, x.master, x.transport⟩) = true ∧ findClaiming t pos ≠ none)
  ∧ ∀ (l : LineId) (p : PosId) (note : PostingNote) (place : Nat) (s : State),
    s.memb.state = .live → (localAt s l p).deferral = .running → postedPositions s = [(place, l, p)] →
    (localAt s l p).note = some note →
    let x := positionOf s l p
    let pos := posRefOf (entryAt s l) p
    claimConditions s x (some note) = none → serving s = true → hasFrame s isClaim = false → s.pool.free ≠ [] →
    reservedBlocks s.pool + blocksNeeded x.kind x.count.toNat ≤ freeBlockCount s.pool →
    Yields (.deferralTimerExpiry l p) s fun t =>
      hasFrame t (fun f => f == .claim ⟨pos, x.count, x.master, x.transport⟩) = true ∧ findClaiming t pos ≠ none

/-- CLAIM (R132, R133, R53): a member's CLAIM that fits its POSTED record takes the reservation and the position is CLAIMED by its
sender; a reservation refused makes it DONE with reason OVERRUN, and a LIVE station finds CLAIM_OVERRUN; a CLAIM that fits nothing
changes no line and no usage. At the claim's owner (R145, R146) the job of a CLAIM that is taken records the master slot's version
and enters URGENT, or LOADING with its deadline running, and an idle engine starts its card; the descriptor and reserve of one that is
late, refused or not taken, of one that another's CLAIM has overtaken, and of one whose withdrawal is taken at the end of an
arbitration, return. -/
def Obligations.ClaimSettlesPosition : Prop :=
  (∀ (h : Header) (b : ClaimBody) (l : LineId) (p : PosId) (m : SlotId) (s : State),
    Reaches s h (.claim b) → findPosition s b.pos = some (l, p) → (positionOf s l p).state = .posted →
    b.count = (positionOf s l p).count → b.master = (positionOf s l p).master → b.transport = (positionOf s l p).transport →
    liveSetQuorate s = true → slotOf? b.master = some m → s.dir.reserveTaken m b.count.toNat = true →
    Yields (.claim h b) s fun t =>
      entryAt t l = withPosition (entryAt s l) p
        { positionOf s l p with state := .claimed, settledBy := .claim, owner := BitVec.ofNat 4 h.src.val }
      ∧ (∀ l', l' ≠ l → entryAt t l' = entryAt s l') ∧ localAt t l p = LocalPos.empty
      ∧ t.dir = s.dir.reserve m b.count.toNat
      ∧ SameBut (.entries :: .locals :: .usage :: .inFlight :: .ctx :: stationFrame) s t)
  ∧ (∀ (h : Header) (b : ClaimBody) (l : LineId) (p : PosId) (m : SlotId) (s : State),
    Reaches s h (.claim b) → findPosition s b.pos = some (l, p) → (positionOf s l p).state = .posted →
    b.count = (positionOf s l p).count → b.master = (positionOf s l p).master → b.transport = (positionOf s l p).transport →
    liveSetQuorate s = true → slotOf? b.master = some m → s.dir.reserveTaken m b.count.toNat = false →
    Yields (.claim h b) s fun t =>
      entryAt t l = dAdvance (withPosition (entryAt s l) p (donePosition (positionOf s l p) .claim .overrun))
      ∧ (∀ l', l' ≠ l → entryAt t l' = entryAt s l')
      ∧ (s.memb.state = .live → s.memb.leaving = false →
          t.memb.leaving = true ∧ hasFrame t (fun f => f == .expel (self s) .claimOverrun) = true)
      ∧ SameBut (.entries :: .locals :: .leaving :: .serve :: stationFrame) s t)
  ∧ (∀ (h : Header) (b : ClaimBody) (s : State), Reaches s h (.claim b) →
    (∀ l p, findPosition s b.pos = some (l, p) → (positionOf s l p).state ≠ .posted ∨ b.count ≠ (positionOf s l p).count
      ∨ b.master ≠ (positionOf s l p).master ∨ b.transport ≠ (positionOf s l p).transport ∨ liveSetQuorate s = false
      ∨ slotOf? b.master = none) →
    Yields (.claim h b) s fun t => SameBut stationFrame s t)
  ∧ (∀ (h : Header) (b : ClaimBody) (l : LineId) (p : PosId) (m : SlotId) (d : DescId) (s : State),
    Reaches s h (.claim b) → h.src = ownNode s → findPosition s b.pos = some (l, p) → (positionOf s l p).state = .posted →
    b.count = (positionOf s l p).count → b.master = (positionOf s l p).master → b.transport = (positionOf s l p).transport →
    liveSetQuorate s = true → slotOf? b.master = some m → s.dir.reserveTaken m b.count.toNat = true →
    findClaiming s b.pos = some d → (descOf s d).master = b.master → OneQueueEach s →
    Yields (.claim h b) s fun t =>
      ((descOf s d).kind = .batch → t.pool.loading = s.pool.loading ++ [d]
        ∧ descOf t d = { descOf s d with
            gapRunning := true, ctx := { (descOf s d).ctx with version := (s.dir.slot m).version } })
      ∧ (∀ c, (descOf s d).kind = .single → s.pool.engine = some c → t.pool.urgent = s.pool.urgent ++ [d]
        ∧ descOf t d = { descOf s d with ctx := { (descOf s d).ctx with version := (s.dir.slot m).version } })
      ∧ (∀ m', (descOf s d).kind = .single → s.pool.engine = none → s.pool.urgent = [] →
          keysUsable s (descOf s d) = some m' → t.pool.engine = some d ∧ t.engine.inFlight ≠ none))
  ∧ (∀ (h : Header) (b : ClaimBody) (d : DescId) (s : State), Reaches s h (.claim b) → h.src = ownNode s →
    (∀ l p, findPosition s b.pos = some (l, p) → (positionOf s l p).state ≠ .posted ∨ b.count ≠ (positionOf s l p).count
      ∨ b.master ≠ (positionOf s l p).master ∨ b.transport ≠ (positionOf s l p).transport ∨ liveSetQuorate s = false
      ∨ slotOf? b.master = none) →
    findClaiming s b.pos = some d → OneQueueEach s →
    postedPositions s = [] ∨ (serving s = false ∧ s.pool.claiming = [d]) →
    Yields (.claim h b) s fun t => ClaimReturned d s t)
  ∧ (∀ (h : Header) (b : ClaimBody) (l : LineId) (p : PosId) (m : SlotId) (d : DescId) (s : State),
    Reaches s h (.claim b) → h.src = ownNode s → findPosition s b.pos = some (l, p) → (positionOf s l p).state = .posted →
    b.count = (positionOf s l p).count → b.master = (positionOf s l p).master → b.transport = (positionOf s l p).transport →
    liveSetQuorate s = true → slotOf? b.master = some m → s.dir.reserveTaken m b.count.toNat = false →
    findClaiming s b.pos = some d → s.pool.claiming = [d] → OneQueueEach s →
    Yields (.claim h b) s fun t => ClaimReturned d s t)
  ∧ (∀ (h : Header) (b : ClaimBody) (l : LineId) (p : PosId) (m : SlotId) (d : DescId) (s : State),
    Reaches s h (.claim b) → h.src ≠ ownNode s → findPosition s b.pos = some (l, p) → (positionOf s l p).state = .posted →
    b.count = (positionOf s l p).count → b.master = (positionOf s l p).master → b.transport = (positionOf s l p).transport →
    liveSetQuorate s = true → slotOf? b.master = some m → s.dir.reserveTaken m b.count.toNat = true →
    findClaiming s b.pos = some d → hasFrame s (isClaimFor b.pos) = true →
    (∀ e ∈ s.link.queue, isClaimFor b.pos e.frame = true → isWaiting s.link e = true) → OneQueueEach s →
    s.pool.claiming = [d] → (∀ x ∈ postedPositions s, x.2 = (l, p)) →
    Yields (.claim h b) s fun t => hasFrame t (isClaimFor b.pos) = false ∧ ClaimReturned d s t)
  ∧ ∀ (age : Nat) (b : ClaimBody) (d : DescId) (s : State),
    s.link.bus = .contending (.entry age) → entryOf s.link age = some ⟨age, .claim b, .withdraw⟩ →
    findClaiming s b.pos = some d → OneQueueEach s →
    postedPositions s = [] ∨ (serving s = false ∧ s.pool.claiming = [d]) →
    Yields (.arbitrationEnd false) s fun t => ClaimReturned d s t

/-- DECLINE, UNCLAIMED and CANCEL of a POSTED position (R132, R134): DONE with what settled it and why, its note and timers gone, D
advanced; a settlement that comes late changes nothing. -/
def Obligations.SettlementEndsPosition : Prop :=
  (∀ (h : Header) (pos : PosRef) (reason : Byte) (l : LineId) (p : PosId) (s : State),
    Reaches s h (.decline pos reason) → declineReasonListed reason = true → findPosition s pos = some (l, p) →
    (positionOf s l p).state = .posted →
    Yields (.decline h pos reason) s fun t => SettledAt .decline .declined l p s t ∧
      SameBut (.entries :: .locals :: stationFrame) s t)
  ∧ (∀ (h : Header) (pos : PosRef) (l : LineId) (p : PosId) (s : State),
    Reaches s h (.unclaimed pos) → findPosition s pos = some (l, p) → (positionOf s l p).state = .posted →
    Yields (.unclaimed h pos) s fun t => SettledAt .unclaimed .unclaimed l p s t ∧
      SameBut (.entries :: .locals :: stationFrame) s t)
  ∧ (∀ (h : Header) (line position : Byte) (l : LineId) (p : PosId) (s : State),
    Reaches s h (.cancel line position) → findPosition s ⟨byteOf h.src, line, position⟩ = some (l, p) →
    (positionOf s l p).state = .posted →
    Yields (.cancel h line position) s fun t => SettledAt .cancel .cancelled l p s t ∧
      SameBut (.entries :: .locals :: gatewayFrame) s t)
  ∧ (∀ (h : Header) (pos : PosRef) (reason : Byte) (s : State), Reaches s h (.decline pos reason) →
    (∀ l p, findPosition s pos = some (l, p) → (positionOf s l p).state ≠ .posted) →
    Yields (.decline h pos reason) s fun t => SameBut stationFrame s t)
  ∧ (∀ (h : Header) (pos : PosRef) (s : State), Reaches s h (.unclaimed pos) →
    (∀ l p, findPosition s pos = some (l, p) → (positionOf s l p).state ≠ .posted) →
    Yields (.unclaimed h pos) s fun t => SameBut stationFrame s t)
  ∧ ∀ (h : Header) (line position : Byte) (s : State), Reaches s h (.cancel line position) →
    (∀ l p, findPosition s ⟨byteOf h.src, line, position⟩ = some (l, p) →
      (positionOf s l p).state ≠ .posted ∧ claimedBy (positionOf s l p) (ownNode s) = false) →
    Yields (.cancel h line position) s fun t => SameBut gatewayFrame s t

/-- The D advance (R123): D moves over the DONE positions before P, each of which returns to FREE with its fields zeroed; no other
position changes, and D then stands at P or at a position that is not DONE. -/
def Obligations.DAdvanceFreesDonePositions : Prop :=
  ∀ e : LineEntry, ∃ k : Nat, k < 16
    ∧ (dAdvance e).d = e.d + BitVec.ofNat 4 k
    ∧ (∀ i < k, e.d + BitVec.ofNat 4 i ≠ e.p ∧ (tget e.positions (placeOf (e.d + BitVec.ofNat 4 i))).state = .done
        ∧ tget (dAdvance e).positions (placeOf (e.d + BitVec.ofNat 4 i)) = Position.zero)
    ∧ (∀ q : BitVec 4, (∀ i < k, q ≠ e.d + BitVec.ofNat 4 i) →
        tget (dAdvance e).positions (placeOf q) = tget e.positions (placeOf q))
    ∧ ((dAdvance e).d = e.p ∨ (tget (dAdvance e).positions (placeOf (dAdvance e).d)).state ≠ .done)
    ∧ (dAdvance e).p = e.p ∧ (dAdvance e).state = e.state ∧ (dAdvance e).pendingClear = e.pendingClear
    ∧ (dAdvance e).gateway = e.gateway ∧ (dAdvance e).line = e.line

/-- OPEN (R125): a new line takes the lowest-numbered free entry, with P and D 0; a line that an entry holds, a full table or a line
number above 7 changes none. The duty station reports the result. -/
def Obligations.OpenTakesFreeEntry : Prop :=
  (∀ (h : Header) (line : Byte) (l : LineId) (s : State),
    Reaches s h (.openLine line) → line.toNat ≤ 7 → findLine s.lines (byteOf h.src) line = none →
    (entryAt s l).state = .free → (∀ l', l' < l → (entryAt s l').state ≠ .free) →
    Yields (.openLine h line) s fun t =>
      entryAt t l = { LineEntry.zero with state := .opened, gateway := byteOf h.src, line := line }
      ∧ (∀ l', l' ≠ l → entryAt t l' = entryAt s l')
      ∧ (duty s = true → hasFrame t (fun f => f == .report h.src (openResultBody line .opened)) = true)
      ∧ SameBut (.entries :: .locals :: gatewayFrame) s t)
  ∧ (∀ (h : Header) (line : Byte) (l : LineId) (s : State),
    Reaches s h (.openLine line) → line.toNat ≤ 7 → findLine s.lines (byteOf h.src) line = some l →
    Yields (.openLine h line) s fun t =>
      (duty s = true → hasFrame t (fun f => f == .report h.src (openResultBody line
        (if (entryAt s l).state = .opened then .alreadyOpen else .closing))) = true)
      ∧ SameBut gatewayFrame s t)
  ∧ (∀ (h : Header) (line : Byte) (s : State),
    Reaches s h (.openLine line) → line.toNat ≤ 7 → findLine s.lines (byteOf h.src) line = none →
    (∀ l, (entryAt s l).state ≠ .free) →
    Yields (.openLine h line) s fun t =>
      (duty s = true → hasFrame t (fun f => f == .report h.src (openResultBody line .tableFull)) = true)
      ∧ SameBut gatewayFrame s t)
  ∧ ∀ (h : Header) (line : Byte) (s : State), Reaches s h (.openLine line) → 7 < line.toNat →
    Yields (.openLine h line) s fun t => SameBut gatewayFrame s t

/-- JOB and BATCH (R124, R126): a job frame that passes the posting tests posts position P with its record, P moves on, the note and
both timers are set; one that fails changes no line, and the duty station reports REJECT. That a function code outside its list is
posted with function NONE (log 11), and in a JOB with card count 1 (log 60), is the model's choice. -/
def Obligations.JobFramePostsPosition : Prop :=
  (∀ (h : Header) (b : JobBody) (f : JobFunction) (l : LineId) (s : State),
    Reaches s h (.job b) → JobFunction.ofCode b.function = f →
    postingTest s (byteOf h.src) b.line b.position = .ok l →
    Yields (.job h b) s fun t =>
      PostedAt l (postedPosition .single f (slotAtPosting s b.master) (transportAtPosting s f b.transport)
        (if f = .check then 0#8 else 1#8)) ⟨0#8, 0#8, some b.card, s.wirePlace + 1⟩ s t
      ∧ SameBut (.entries :: .locals :: gatewayFrame) s t)
  ∧ (∀ (h : Header) (b : BatchBody) (f : JobFunction) (l : LineId) (s : State),
    Reaches s h (.batch b) → JobFunction.ofCode b.function = f →
    postingTest s (byteOf h.src) b.line b.position = .ok l →
    Yields (.batch h b) s fun t =>
      PostedAt l (postedPosition .batch f (slotAtPosting s b.master) (transportAtPosting s f (some b.transport)) b.count)
        ⟨b.segSize, b.policy, none, s.wirePlace + 1⟩ s t
      ∧ SameBut (.entries :: .locals :: gatewayFrame) s t)
  ∧ (∀ (h : Header) (b : JobBody) (f : JobFunction) (r : RejectReason) (p d : BitVec 4) (s : State),
    Reaches s h (.job b) → JobFunction.ofCode b.function = f →
    postingTest s (byteOf h.src) b.line b.position = .error (r, p, d) →
    Yields (.job h b) s fun t =>
      (duty s = true → hasFrame t (fun f => f == .report h.src (rejectBody b.line b.position r p d)) = true)
      ∧ SameBut gatewayFrame s t)
  ∧ ∀ (h : Header) (b : BatchBody) (f : JobFunction) (r : RejectReason) (p d : BitVec 4) (s : State),
    Reaches s h (.batch b) → JobFunction.ofCode b.function = f →
    postingTest s (byteOf h.src) b.line b.position = .error (r, p, d) →
    Yields (.batch h b) s fun t =>
      (duty s = true → hasFrame t (fun f => f == .report h.src (rejectBody b.line b.position r p d)) = true)
      ∧ SameBut gatewayFrame s t

/-- FINAL (R54, R135): from the position's owner it settles the usage with the consumed count and ends the position FINISHED, D
advanced; from another it changes nothing. -/
def Obligations.FinalFinishesPosition : Prop :=
  (∀ (h : Header) (b : FinalBody) (l : LineId) (p : PosId) (s : State),
    Reaches s h (.final b) → jobStatusListed b.status = true → findPosition s b.pos = some (l, p) →
    claimedBy (positionOf s l p) h.src = true →
    Yields (.final h b) s fun t =>
      entryAt t l = dAdvance
        (withPosition (entryAt s l) p (donePosition (positionOf s l p) (positionOf s l p).settledBy .finished))
      ∧ (∀ l', l' ≠ l → entryAt t l' = entryAt s l')
      ∧ (∀ m, slotOf? (positionOf s l p).master = some m →
          t.dir = s.dir.settle m (positionOf s l p).count.toNat b.consumed.toNat)
      ∧ (slotOf? (positionOf s l p).master = none → t.dir = s.dir)
      ∧ SameBut (.entries :: .usage :: stationFrame) s t)
  ∧ ∀ (h : Header) (b : FinalBody) (s : State), Reaches s h (.final b) →
    (∀ l p, findPosition s b.pos = some (l, p) → claimedBy (positionOf s l p) h.src = false) →
    Yields (.final h b) s fun t => SameBut stationFrame s t

/-- CLOSE, from its gateway or for SILENCE from a station (R136): the OPEN entry's POSTED positions are DONE, the owners of its CLAIMED
ones are awaited, and with none the entry is freed; an entry that is not OPEN stays. -/
def Obligations.CloseClosesLine : Prop :=
  (∀ (h : Header) (b : CloseBody) (g line : Byte) (l : LineId) (s : State),
    Reaches s h (.close b) → closeNames h b = some (g, line) → findLine s.lines g line = some l →
    (entryAt s l).state = .opened →
    Yields (.close h b) s fun t =>
      entryAt t l = (if ownersOf (entryAt s l) = 0#8 then LineEntry.zero
        else dAdvance { entryAt s l with
          state := .closing, pendingClear := ownersOf (entryAt s l), positions := closePositions (entryAt s l) })
      ∧ (∀ l', l' ≠ l → entryAt t l' = entryAt s l')
      ∧ (∀ p, (positionOf s l p).state = .posted → localAt t l p = LocalPos.empty)
      ∧ SameBut (.entries :: .locals :: gatewayFrame) s t)
  ∧ ∀ (h : Header) (b : CloseBody) (g line : Byte) (s : State),
    Reaches s h (.close b) → closeNames h b = some (g, line) →
    (∀ l, findLine s.lines g line = some l → (entryAt s l).state ≠ .opened) →
    Yields (.close h b) s fun t => SameBut gatewayFrame s t

/-- CLEARED from a node that a CLOSING entry awaits (R54, R138): each of the node's CLAIMED positions there is DONE with reason
CLEARED, its cards settled with the consumed count that the list gives for it, 0 where it gives none; the node is awaited no more, D
advances, and with none left the entry is freed; other positions, P, gateway and line stay. From another node it changes nothing. A
count byte above 15 is passed over (log 50). -/
def Obligations.ClearedReleasesOwner : Prop :=
  (∀ (h : Header) (b : ClearedBody) (l : LineId) (s : State),
    Reaches s h (.cleared b) → findLine s.lines b.gateway b.line = some l → (entryAt s l).state = .closing →
    setHas (entryAt s l).pendingClear h.src.val = true →
    Yields (.cleared h b) s fun t =>
      entryAt t l = (if setDel (entryAt s l).pendingClear h.src.val = 0#8 then LineEntry.zero
        else dAdvance (clearedEntry h.src (entryAt s l)))
      ∧ t.dir = clearedUsage h.src (entryAt s l) b.entries s.dir
      ∧ (∀ p, claimedBy (positionOf t l p) h.src = false)
      ∧ (∀ l', l' ≠ l → entryAt t l' = entryAt s l' ∧ ∀ p, localAt t l' p = localAt s l' p)
      ∧ SameBut (.entries :: .locals :: .usage :: stationFrame) s t)
  ∧ ∀ (h : Header) (b : ClearedBody) (s : State), Reaches s h (.cleared b) →
    (∀ l, findLine s.lines b.gateway b.line = some l →
      (entryAt s l).state ≠ .closing ∨ setHas (entryAt s l).pendingClear h.src.val = false) →
    Yields (.cleared h b) s fun t => SameBut stationFrame s t

/-- The line table's timers (R124, R129, R131, R137): an expired deferral is noted; an unclaimed deadline has the duty station queue
UNCLAIMED and another station mark it; a gateway's silence has the duty station close the gateway's busy lines and another mark
the watch. That the duty station's own deadline or watch is then stopped and keeps no mark is the model's reading (log 14), and so
is that a timer which is not running has no effect (log 2). -/
def Obligations.LineTimersExpire : Prop :=
  (∀ (l : LineId) (p : PosId) (s : State), (localAt s l p).deferral = .running →
    Yields (.deferralTimerExpiry l p) s fun t =>
      localAt t l p = { localAt s l p with deferral := .expired } ∧ SameBut (.locals :: reacting) s t)
  ∧ (∀ (l : LineId) (p : PosId) (s : State), (localAt s l p).deadline = .running → (positionOf s l p).state = .posted →
    Yields (.unclaimedDeadlineExpiry l p) s fun t =>
      (duty s = true → localAt t l p = { localAt s l p with deadline := .stopped }
        ∧ hasFrame t (isUnclaimedFor (posRefOf (entryAt s l) p)) = true)
      ∧ (duty s = false → localAt t l p = { localAt s l p with deadline := .expired })
      ∧ SameBut (.locals :: reacting) s t)
  ∧ (∀ (g : Node) (s : State), tget s.lines.watches g = .running →
    Yields (.gatewayWatchExpiry g) s fun t =>
      (duty s = true → tget t.lines.watches g = .stopped
        ∧ ∀ l, busyOpen (entryAt s l) = true → (entryAt s l).gateway = byteOf g →
            hasFrame t (isCloseSilenceFor (entryAt s l).gateway (entryAt s l).line) = true)
      ∧ (duty s = false → tget t.lines.watches g = .expired)
      ∧ SameBut (.gatewayWatches :: reacting) s t)
  ∧ (∀ (l : LineId) (p : PosId) (s : State), (localAt s l p).deferral ≠ .running →
    Yields (.deferralTimerExpiry l p) s fun t => SameBut reacting s t)
  ∧ (∀ (l : LineId) (p : PosId) (s : State), (localAt s l p).deadline ≠ .running ∨ (positionOf s l p).state ≠ .posted →
    Yields (.unclaimedDeadlineExpiry l p) s fun t => SameBut reacting s t)
  ∧ ∀ (g : Node) (s : State), tget s.lines.watches g ≠ .running →
    Yields (.gatewayWatchExpiry g) s fun t => SameBut reacting s t

/-! ## The job pool and the derivation engine -/

/-- CARDS (R147, R148): the correct next group takes the oldest free block into the job's chain, out of its reserve; the last group
moves the job to BULK, and an idle engine starts its first card (R157), or ends the job KEY_STOPPED with its blocks returned, whatever
its policy, where its keys are not usable (R151, R158); a wrong group ends the job BAD_SEQUENCE. -/
def Obligations.CardsTakeGroup : Prop :=
  (∀ (h : Header) (b : CardsBody) (d : DescId) (blk : BlockId) (rest : List BlockId) (s : State),
    Reaches s h (.cards b) → s.memb.state = .live → Sound s →
    s.pool.loading.find? (jobAt s ⟨byteOf h.src, b.line, b.position⟩) = some d →
    groupCorrect (descOf s d) b.group.toNat b.records.length = true → s.pool.freeBlocks = blk :: rest →
    (descOf s d).groupsReceived + 1 ≠ (descOf s d).groupsExpected →
    Yields (.cards h b) s fun t =>
      descOf t d = { descOf s d with
        chain := (descOf s d).chain ++ [some blk]
        reserve := (descOf s d).reserve - 1
        groupsReceived := (descOf s d).groupsReceived + 1
        gapRunning := true }
      ∧ tget t.pool.blocks blk = groupCells b.records ∧ t.pool.freeBlocks = rest ∧ t.pool.loading = s.pool.loading
      ∧ (∀ d', d' ≠ d → descOf t d' = descOf s d') ∧ (∀ k, k ≠ blk → tget t.pool.blocks k = tget s.pool.blocks k)
      ∧ SameBut gatewayFrame s t)
  ∧ (∀ (h : Header) (b : CardsBody) (d : DescId) (blk : BlockId) (rest : List BlockId) (s : State),
    Reaches s h (.cards b) → s.memb.state = .live → Sound s →
    s.pool.loading.find? (jobAt s ⟨byteOf h.src, b.line, b.position⟩) = some d →
    groupCorrect (descOf s d) b.group.toNat b.records.length = true → s.pool.freeBlocks = blk :: rest →
    (descOf s d).groupsReceived + 1 = (descOf s d).groupsExpected →
    Yields (.cards h b) s fun t =>
      d ∉ t.pool.loading
      ∧ (∀ c, s.pool.engine = some c → c ≠ d → t.pool.bulk = s.pool.bulk.filter (· != d) ++ [d])
      ∧ (∀ m, s.pool.engine = none → s.pool.urgent = [] → s.pool.bulk = [] → keysUsable s (descOf s d) = some m →
          t.pool.engine = some d ∧ t.engine.inFlight ≠ none)
      ∧ SameBut (.inFlight :: .ctx :: gatewayFrame) s t)
  ∧ (∀ (h : Header) (b : CardsBody) (d : DescId) (s : State),
    Reaches s h (.cards b) → s.memb.state = .live →
    s.pool.loading.find? (jobAt s ⟨byteOf h.src, b.line, b.position⟩) = some d →
    groupCorrect (descOf s d) b.group.toNat b.records.length = false →
    Yields (.cards h b) s fun t => EndedAs .badSequence d t ∧ (descOf t d).chain = [] ∧ SameBut gatewayFrame s t)
  ∧ (∀ (h : Header) (b : CardsBody) (d : DescId) (blk : BlockId) (rest : List BlockId) (s : State),
    Reaches s h (.cards b) → s.memb.state = .live → Sound s → OneQueueEach s →
    s.pool.loading.find? (jobAt s ⟨byteOf h.src, b.line, b.position⟩) = some d →
    groupCorrect (descOf s d) b.group.toNat b.records.length = true → s.pool.freeBlocks = blk :: rest →
    (descOf s d).groupsReceived + 1 = (descOf s d).groupsExpected →
    s.pool.engine = none → s.pool.urgent = [] → s.pool.bulk = [] → keysUsable s (descOf s d) = none →
    (descOf s d).kind = .batch → (descOf s d).ctx.next = 0 →
    Yields (.cards h b) s fun t =>
      EndedAs .keyStopped d t ∧ (descOf t d).chain = [] ∧ (descOf t d).reserve = 0
      ∧ (∀ x ∈ chainBlocks (descOf s d), x ∈ t.pool.freeBlocks) ∧ blk ∈ t.pool.freeBlocks
      ∧ SameBut (.inFlight :: .ctx :: gatewayFrame) s t)
  ∧ ∀ (h : Header) (b : CardsBody) (s : State), Reaches s h (.cards b) →
    s.memb.state ≠ .live ∨ s.pool.loading.find? (jobAt s ⟨byteOf h.src, b.line, b.position⟩) = none →
    Yields (.cards h b) s fun t => SameBut gatewayFrame s t

/-- The other ends of a job (R148, R149): the card-gap deadline ends one still in LOADING; a CANCEL of a position that the station has
claimed ends a job in LOADING, URGENT or BULK, and marks the current one. -/
def Obligations.JobsEndByGapOrCancel : Prop :=
  (∀ (d : DescId) (s : State), (descOf s d).gapRunning = true → d ∈ s.pool.loading →
    Yields (.cardGapDeadlineExpiry d) s fun t =>
      EndedAs .cardsTimeout d t ∧ (descOf t d).chain = [] ∧ (descOf t d).reserve = 0 ∧ (descOf t d).gapRunning = false
      ∧ SameBut reacting s t)
  ∧ (∀ (d : DescId) (s : State), (descOf s d).gapRunning = false ∨ d ∉ s.pool.loading →
    Yields (.cardGapDeadlineExpiry d) s fun t => SameBut reacting s t)
  ∧ (∀ (h : Header) (line position : Byte) (l : LineId) (p : PosId) (d : DescId) (s : State),
    Reaches s h (.cancel line position) → findPosition s ⟨byteOf h.src, line, position⟩ = some (l, p) →
    claimedBy (positionOf s l p) (ownNode s) = true → findJob s ⟨byteOf h.src, line, position⟩ = some d →
    d ∈ s.pool.loading ∨ d ∈ s.pool.urgent ∨ d ∈ s.pool.bulk →
    Yields (.cancel h line position) s fun t => EndedAs .cancelled d t ∧ SameBut gatewayFrame s t)
  ∧ ∀ (h : Header) (line position : Byte) (l : LineId) (p : PosId) (d : DescId) (s : State),
    Reaches s h (.cancel line position) → findPosition s ⟨byteOf h.src, line, position⟩ = some (l, p) →
    claimedBy (positionOf s l p) (ownNode s) = true → findJob s ⟨byteOf h.src, line, position⟩ = some d →
    OneQueueEach s → s.pool.engine = some d →
    Yields (.cancel h line position) s fun t =>
      (descOf t d).cancelMark = true ∧ t.pool.engine = some d ∧ SameBut gatewayFrame s t

/-- CARD_COMPLETION (R162 to R165): the result is counted and stored; the boundary then ends the job, sets it aside for an URGENT one,
or starts its next card, in that order. An idle engine completes nothing. -/
def Obligations.CardCompletionCounts : Prop :=
  (∀ (d : DescId) (r : CardResult) (m : SlotId) (s : State),
    s.pool.engine = some d → s.engine.inFlight = some r → Sound s → (descOf s d).teardownMark = false →
    s.engine.ctx.next + 1 ≠ jobCards (descOf s d) → (descOf s d).cancelMark = false →
    (descOf s d).kind = .single ∨ s.pool.urgent = [] → keysUsable s (descOf s d) = some m →
    Yields .cardCompletion s fun t =>
      t.pool.engine = some d ∧ t.engine.inFlight ≠ none ∧ t.engine.ctx.next = s.engine.ctx.next + 1
      ∧ t.engine.ctx.consumed = s.engine.ctx.consumed
          + (if r.status = .ok ∧ (descOf s d).function ≠ .check then 1 else 0)
      ∧ t.engine.ctx.bad = s.engine.ctx.bad + (if r.status = .badCard then 1 else 0)
      ∧ (∀ blk, (descOf s d).kind = .batch → (descOf s d).chain.getD (s.engine.ctx.next / 6) none = some blk →
          cellOf t d s.engine.ctx.next = .result r)
      ∧ SameBut (.inFlight :: .ctx :: reacting) s t)
  ∧ (∀ (d : DescId) (r : CardResult) (s : State),
    s.pool.engine = some d → s.engine.inFlight = some r → (descOf s d).teardownMark = false →
    s.engine.ctx.next + 1 = jobCards (descOf s d) →
    Yields .cardCompletion s fun t =>
      EndedAs .complete d t ∧ (descOf t d).ctx.next = jobCards (descOf s d)
      ∧ SameBut (.inFlight :: .ctx :: reacting) s t)
  ∧ (∀ (d : DescId) (r : CardResult) (s : State),
    s.pool.engine = some d → s.engine.inFlight = some r → (descOf s d).teardownMark = false →
    s.engine.ctx.next + 1 ≠ jobCards (descOf s d) → (descOf s d).cancelMark = true →
    Yields .cardCompletion s fun t => EndedAs .cancelled d t ∧ SameBut (.inFlight :: .ctx :: reacting) s t)
  ∧ (∀ (d u : DescId) (us : List DescId) (r : CardResult) (m : SlotId) (s : State),
    s.pool.engine = some d → s.engine.inFlight = some r → Sound s → (descOf s d).teardownMark = false →
    s.engine.ctx.next + 1 ≠ jobCards (descOf s d) → (descOf s d).cancelMark = false → (descOf s d).kind = .batch →
    s.pool.urgent = u :: us → u ≠ d → keysUsable s (descOf s u) = some m →
    Yields .cardCompletion s fun t =>
      t.pool.engine = some u ∧ t.engine.inFlight ≠ none ∧ t.pool.bulk.head? = some d
      ∧ (descOf t d).ctx.next = s.engine.ctx.next + 1
      ∧ (descOf t d).ctx.preemptions = min 255 (s.engine.ctx.preemptions + 1)
      ∧ t.engine.preempted.toNat = min 65535 (s.engine.preempted.toNat + 1)
      ∧ SameBut (.inFlight :: .ctx :: .preempted :: reacting) s t)
  ∧ ∀ s : State, s.pool.engine = none ∨ s.engine.inFlight = none →
    Yields .cardCompletion s fun t => SameBut reacting s t

/-- The card test and what a card start fixes (R158 to R161). A card is valid with 12 to 19 digits 0 to 9, then pads to 20, and a
decimal sequence byte. For CARD and APP a valid card's key is wrapped under the transport key with its check value; a bad card gives
a zero result; CHECK gives the master slot's own check value. -/
def Obligations.CardResultIsDerived : Prop :=
  (∀ c : CardRecord, cardValid c = true ↔
    (∃ n : Nat, 12 ≤ n ∧ n ≤ 19
      ∧ (∀ i < n, (c.number.extractLsb' (4 * (19 - i)) 4).toNat ≤ 9)
      ∧ ∀ i, n ≤ i → i < 20 → c.number.extractLsb' (4 * (19 - i)) 4 = 0xF#4)
    ∧ (c.seq.extractLsb' 4 4).toNat ≤ 9 ∧ (c.seq.extractLsb' 0 4).toNat ≤ 9)
  ∧ (∀ (s : State) (x : Descriptor) (m t : SlotId) (index : Nat) (c : CardRecord) (mk tk : Key),
    x.function = .card → cardValid c = true → slotOf? x.transport = some t → s.dir.keyUse m .master = some mk →
    s.dir.keyUse t .transport = some tk →
    let k := Config.cipher mk (c.number ++ c.seq ++ 0#40)
    cardResult s x m index (.card c) =
      ⟨BitVec.ofNat 8 index, .ok, Config.cipher tk k, (Config.cipher (k ++ k) 0#128).extractLsb' 104 24⟩)
  ∧ (∀ (s : State) (x : Descriptor) (m t : SlotId) (index : Nat) (c : CardRecord) (mk tk : Key),
    x.function = .app → cardValid c = true → slotOf? x.transport = some t → s.dir.keyUse m .master = some mk →
    s.dir.keyUse t .transport = some tk →
    let kc := Config.cipher mk (c.number ++ c.seq ++ 0#40)
    let k := Config.cipher (kc ++ kc) (c.tag ++ 0xA5A5A5A5A5A5A5A5A5A5A5A5A5A5#112)
    cardResult s x m index (.card c) =
      ⟨BitVec.ofNat 8 index, .ok, Config.cipher tk k, (Config.cipher (k ++ k) 0#128).extractLsb' 104 24⟩)
  ∧ (∀ (s : State) (x : Descriptor) (m : SlotId) (index : Nat) (c : CardRecord),
    x.function = .card ∨ x.function = .app → cardValid c = false →
    cardResult s x m index (.card c) = ⟨BitVec.ofNat 8 index, .badCard, 0#128, 0#24⟩)
  ∧ ∀ (s : State) (x : Descriptor) (m : SlotId) (index : Nat) (cell : Cell), x.function = .check →
    cardResult s x m index cell = ⟨0#8, .ok, 0#128, (s.dir.slot m).check⟩

/-- Teardown, clearing records and CLEARED (R152, R153, R165). A CLOSE of a line in which the station holds a CLAIMED position takes
each of its won jobs there out of LOADING, URGENT and BULK, and out of DRAINING with its FINAL; their blocks and descriptors return,
their segments go, and the CLEARED lists them in position order with their consumed counts. A job in ENGINE, or whose FINAL is on the
bus, is outstanding: the CLEARED waits for it, and lists it when it is handed back at its card boundary, without a FINAL; a FINAL that
is sent after all leaves no entry. -/
def Obligations.TeardownSendsCleared : Prop :=
  (∀ (h : Header) (b : CloseBody) (g line : Byte) (l : LineId) (s : State),
    Reaches s h (.close b) → closeNames h b = some (g, line) → findLine s.lines g line = some l →
    (entryAt s l).state = .opened → setHas (ownersOf (entryAt s l)) (ownNode s).val = true → OneQueueEach s →
    QueueOrdered s → CandidateQueued s →
    let jobs := (List.finRange 48).filter (jobOfLine s g line)
    s.pool.engine.all (fun d => !jobs.contains d) = true →
    (∀ d ∈ jobs, ∀ e ∈ s.link.queue, isFinalOf d e.frame = true → isWaiting s.link e = true) →
    Yields (.close h b) s fun t =>
      hasFrame t (fun f => f == .cleared ⟨g, line, BitVec.ofNat 8 jobs.length,
        sortEntries (jobs.map (fun d => ⟨(descOf s d).pos.position, BitVec.ofNat 8 (descOf s d).ctx.consumed⟩))⟩) = true
      ∧ ∀ d ∈ jobs, (d ∈ t.pool.free ∨ d ∈ t.pool.claiming) ∧ (∀ blk ∈ chainBlocks (descOf s d), blk ∈ t.pool.freeBlocks)
          ∧ tget t.engine.segs d = [] ∧ hasFrame t (isAnswerOf d) = false ∧ hasFrame t (isFinalOf d) = false)
  ∧ (∀ l : List ClearedEntry,
    (sortEntries l).Pairwise (fun x y => x.position.toNat ≤ y.position.toNat) ∧ (sortEntries l).Perm l)
  ∧ (∀ (h : Header) (b : CloseBody) (g line : Byte) (l : LineId) (d : DescId) (s : State),
    Reaches s h (.close b) → closeNames h b = some (g, line) → findLine s.lines g line = some l →
    (entryAt s l).state = .opened → setHas (ownersOf (entryAt s l)) (ownNode s).val = true → OneQueueEach s →
    jobOfLine s g line d = true → s.pool.clearing.any (isClearingOf g line) = false →
    (s.pool.engine = some d ∨ (d ∈ s.pool.draining ∧ ∃ e ∈ s.link.queue, isFinalOf d e.frame = true ∧ isWaiting s.link e = false)) →
    Yields (.close h b) s fun t =>
      (descOf t d).teardownMark = true ∧ t.pool.engine = s.pool.engine ∧ t.engine.inFlight = s.engine.inFlight
      ∧ (d ∈ s.pool.draining → d ∈ t.pool.draining)
      ∧ (∃ r ∈ t.pool.clearing, isClearingOf g line r = true ∧ 1 ≤ r.outstanding)
      ∧ (hasFrame s (isClearedOf g line) = false → hasFrame t (isClearedOf g line) = false))
  ∧ (∀ (d : DescId) (r : CardResult) (c : ClearingRecord) (l1 l2 : List ClearingRecord) (s : State),
    s.pool.engine = some d → s.engine.inFlight = some r → (descOf s d).teardownMark = true → OneQueueEach s →
    s.pool.clearing = l1 ++ c :: l2 → isClearingOf (descOf s d).pos.gateway (descOf s d).pos.line c = true →
    (l1 ++ l2).any (isClearingOf (descOf s d).pos.gateway (descOf s d).pos.line) = false →
    let consumed := s.engine.ctx.consumed + (if r.status = .ok ∧ (descOf s d).function ≠ .check then 1 else 0)
    let entries := c.entries ++ [⟨(descOf s d).pos.position, BitVec.ofNat 8 consumed⟩]
    Yields .cardCompletion s fun t =>
      t.pool.engine ≠ some d ∧ (d ∈ t.pool.free ∨ d ∈ t.pool.claiming) ∧ tget t.engine.segs d = []
      ∧ (∀ blk ∈ chainBlocks (descOf s d), blk ∈ t.pool.freeBlocks)
      ∧ (hasFrame s (isFinalOf d) = false → hasFrame t (isFinalOf d) = false)
      ∧ (c.outstanding = 1 →
          hasFrame t (fun f => f == .cleared ⟨c.gateway, c.line, BitVec.ofNat 8 entries.length, sortEntries entries⟩) = true
          ∧ t.pool.clearing.any (isClearingOf c.gateway c.line) = false)
      ∧ (2 ≤ c.outstanding → { c with entries := entries, outstanding := c.outstanding - 1 } ∈ t.pool.clearing))
  ∧ ∀ (receipt : NodeMap) (pins : Pins) (age : Nat) (d : DescId) (dst : Dest) (b b' : FinalBody) (hold : Hold) (c : ClearingRecord)
      (l1 l2 : List ClearingRecord) (s : State),
    s.link.bus = .sending (.entry age) dst (.final b) → entryOf s.link age = some ⟨age, .final (some d) b', hold⟩ →
    d ∈ s.pool.draining → (descOf s d).teardownMark = true → OneQueueEach s →
    s.pool.clearing = l1 ++ c :: l2 → isClearingOf (descOf s d).pos.gateway (descOf s d).pos.line c = true →
    (l1 ++ l2).any (isClearingOf (descOf s d).pos.gateway (descOf s d).pos.line) = false → c.outstanding = 1 →
    Yields (.frameSent receipt pins) s fun t =>
      (d ∈ t.pool.free ∨ d ∈ t.pool.claiming)
      ∧ hasFrame t (fun f => f == .cleared ⟨c.gateway, c.line, BitVec.ofNat 8 c.entries.length, sortEntries c.entries⟩) = true
      ∧ t.pool.clearing.any (isClearingOf c.gateway c.line) = false

/-- The answer builder (R166 to R169). A result opens a segment where none is OPEN, with the next number, its own card index and the
master version of the context, or joins the OPEN one. A full segment of a STREAM or SINGLE job is produced: its ANSWER is queued or
pending; one of a HOLD job becomes HELD, and every HELD segment is produced at the job's end. A changed master version closes the
OPEN segment early. The body of an ANSWER is formed when it enters the queue, from the descriptor, the segment record, the context's
label and the cells that the segment covers; its segment is then QUEUED. -/
def Obligations.AnswersAreBuilt : Prop :=
  (∀ (d : DescId) (r : CardResult) (m : SlotId) (s : State),
    s.pool.engine = some d → s.engine.inFlight = some r → Sound s → OneQueueEach s → (descOf s d).teardownMark = false →
    s.engine.ctx.next + 1 ≠ jobCards (descOf s d) → (descOf s d).cancelMark = false →
    (descOf s d).kind = .single ∨ s.pool.urgent = [] → keysUsable s (descOf s d) = some m →
    (s.dir.slot m).version = s.engine.ctx.version → openSegment s d = none → 1 < segmentSize (descOf s d) →
    Yields .cardCompletion s fun t =>
      (tget t.engine.segs d).getLast? = some ⟨s.engine.ctx.segment, s.engine.ctx.next, 1, s.engine.ctx.version, .opened⟩
      ∧ (tget t.engine.segs d).length = (tget s.engine.segs d).length + 1
      ∧ t.engine.ctx.segment = s.engine.ctx.segment + 1)
  ∧ (∀ (d : DescId) (r : CardResult) (m : SlotId) (g : Segment) (s : State),
    s.pool.engine = some d → s.engine.inFlight = some r → Sound s → OneQueueEach s → (descOf s d).teardownMark = false →
    s.engine.ctx.next + 1 ≠ jobCards (descOf s d) → (descOf s d).cancelMark = false →
    (descOf s d).kind = .single ∨ s.pool.urgent = [] → keysUsable s (descOf s d) = some m →
    openSegment s d = some g → g.count + 1 < segmentSize (descOf s d) →
    OneSegmentEach s d →
    Yields .cardCompletion s fun t =>
      t.engine.ctx.segment = s.engine.ctx.segment
      ∧ ((s.dir.slot m).version = g.version → openSegment t d = some { g with count := g.count + 1 })
      ∧ ((s.dir.slot m).version ≠ g.version → openSegment t d = none
          ∧ (isHold (descOf s d) = false → SegmentProduced t d (descOf s d).pos { g with count := g.count + 1 })
          ∧ (isHold (descOf s d) = true → { g with count := g.count + 1, phase := .held } ∈ tget t.engine.segs d)))
  ∧ (∀ (d : DescId) (r : CardResult) (g : Segment) (s : State),
    s.pool.engine = some d → s.engine.inFlight = some r → Sound s → OneQueueEach s → (descOf s d).teardownMark = false →
    OneSegmentEach s d →
    isHold (descOf s d) = false →
    joinedSegment s d = g → g.count = segmentSize (descOf s d) →
    Yields .cardCompletion s fun t => SegmentProduced t d (descOf s d).pos g)
  ∧ (∀ (d : DescId) (r : CardResult) (m : SlotId) (g : Segment) (s : State),
    s.pool.engine = some d → s.engine.inFlight = some r → Sound s → OneQueueEach s → (descOf s d).teardownMark = false →
    s.engine.ctx.next + 1 ≠ jobCards (descOf s d) → (descOf s d).cancelMark = false →
    (descOf s d).kind = .single ∨ s.pool.urgent = [] → keysUsable s (descOf s d) = some m → OneSegmentEach s d →
    isHold (descOf s d) = true →
    joinedSegment s d = g → g.count = segmentSize (descOf s d) →
    Yields .cardCompletion s fun t => { g with phase := .held } ∈ tget t.engine.segs d)
  ∧ (∀ (d : DescId) (r : CardResult) (s : State),
    s.pool.engine = some d → s.engine.inFlight = some r → Sound s → OneQueueEach s → (descOf s d).teardownMark = false →
    OneSegmentEach s d →
    s.engine.ctx.next + 1 = jobCards (descOf s d) →
    Yields .cardCompletion s fun t =>
      SegmentProduced t d (descOf s d).pos (joinedSegment s d)
      ∧ ∀ g ∈ tget s.engine.segs d, g.phase = .held → SegmentProduced t d (descOf s d).pos g)
  ∧ (∀ (s : State) (d : DescId) (gateway : Node) (number : Nat) (body : List Byte) (g : Segment) (results : List CardResult),
    (tget s.engine.segs d).find? (fun x => x.number == number) = some g → results.length = g.count →
    (∀ i r, results[i]? = some r → cellOf s d (g.first + i) = .result r) →
    let t := placeFrame (.answer (some d) gateway number body) s
    let header := posRefBytes (descOf s d).pos ++ [BitVec.ofNat 8 number, BitVec.ofNat 8 g.first]
      ++ labelBytes (jobContext s d).label ++ field 2 g.version
    t.link.queue = s.link.queue
      ++ [⟨s.link.nextAge, .answer (some d) gateway number (header ++ results.flatMap resultBytes), .none⟩]
    ∧ (∀ x ∈ tget t.engine.segs d, x.number = number → x.phase = .queued)
    ∧ (1 ≤ g.count → g.count ≤ 4 → answerLengthOk (header ++ results.flatMap resultBytes).length = true))
  ∧ ∀ (f : TxFrame) (s : State), (classFits s.link.queue (txClass f) = true → request f s = placeFrame f s)
    ∧ (classFits s.link.queue (txClass f) = false →
        request f s = { s with link := { s.link with admissions := s.link.admissions ++ [f] } })

/-! ## Change rounds -/

/-- PROPOSE (R66, R67, R72, R73): a proposal that clashes with nothing enters the list
as its last round; a voter validates one with no body to follow and queues its vote; at
the proposer its round counts, or its BODY is queued where one follows. One that
clashes, or comes while the live set is not quorate, changes no list. The reason that
validation gives for a field outside its list is the model's choice (logs 11 and 63). -/
def Obligations.ProposeEntersList : Prop :=
  (∀ (h : Header) (b : ProposeBody) (k : StationId) (s : State),
    Reaches s h (.propose b) → stationOf? s h.src = some k → k ≠ self s → b.approvals.count.toNat ≤ 2 →
    (∀ e ∈ openEntries s, e.round.proposer ≠ k) → proposalClash s b.slot b.kind b.label = none → liveSetQuorate s = true →
    let r := proposedRound k b
    let s' := setRounds s (addRound s.rounds.list ⟨r, .none⟩)
    Yields (.propose h b) s fun t =>
      (openEntries t).map (·.round) = (openEntries s).map (·.round) ++ [r]
      ∧ (b.bodyFollows = false → s.memb.state = .live → s.memb.leaving = false → validate s' r = none →
          hasFrame t (fun f => f == .accept (byteOf k) b.number) = true)
      ∧ (∀ reason, b.bodyFollows = false → s.memb.state = .live → s.memb.leaving = false → validate s' r = some reason →
          hasFrame t (fun f => f == .refuse (byteOf k) b.number reason.code) = true)
      ∧ SameBut (.roundList :: stationFrame) s t)
  ∧ (∀ (h : Header) (b : ProposeBody) (s : State),
    Reaches s h (.propose b) → stationOf? s h.src = some (self s) → b.approvals.count.toNat ≤ 2 →
    (∀ e ∈ openEntries s, e.round.proposer ≠ self s) → proposalClash s b.slot b.kind b.label = none →
    liveSetQuorate s = true → s.rounds.own.phase = .proposed → s.rounds.own.number = b.number →
    let r := proposedRound (self s) b
    let s' := setRounds s (addRound s.rounds.list ⟨r, .none⟩)
    Yields (.propose h b) s fun t =>
      (openEntries t).map (·.round) = (openEntries s).map (·.round) ++ [r] ∧ t.rounds.own.deadline = true
      ∧ (b.bodyFollows = true → t.rounds.own.phase = .bodyOut
          ∧ ∀ item rest k, s.rounds.queue = item :: rest → item.material = some k →
              hasFrame t (fun f => f == .roundBody b.number k.material k.check) = true)
      ∧ (b.bodyFollows = false → validate s' r = none →
          t.rounds.own.phase = .counting ∧ t.rounds.own.accepts = setAdd 0#8 (self s).val
          ∧ t.rounds.own.eligible = setDel s.memb.live (self s).val)
      ∧ (∀ reason, b.bodyFollows = false → validate s' r = some reason →
          t.rounds.own.phase = .decided ∧ t.rounds.own.outcome = some (.stale, reason.code)
          ∧ hasFrame t (fun f => f == .abandon b.number .stale) = true)
      ∧ SameBut (.roundList :: stationFrame) s t)
  ∧ ∀ (h : Header) (b : ProposeBody) (k : StationId) (s : State),
    Reaches s h (.propose b) → stationOf? s h.src = some k → k ≠ self s →
    (∃ e ∈ openEntries s, e.round.proposer = k) ∨ proposalClash s b.slot b.kind b.label ≠ none ∨ liveSetQuorate s = false →
    Yields (.propose h b) s fun t => SameBut stationFrame s t

/-- BODY and validation (R68, R70 to R73): its material joins the round that awaits it, which enters VOTING. A voter that is LIVE and
not leaving queues ACCEPT where the round is valid, and otherwise REFUSE with the reason of the first of R70's checks that fails, and
marks its vote; the proposer counts itself, or queues ABANDON(STALE) with that reason. A BODY for no such round changes nothing. Some of
it is the model's choice: in the checks, that a functions byte with bits 3 to 7 set gives CLASS (log 63, where section 11.5 points to
FORM) and that another code or number outside its list gives FORM (log 11); and that a BODY opens the vote also where the
proposer's own round is another or decided already, with no vote of the proposer's (logs 19 and 55). -/
def Obligations.BodyOpensVoting : Prop :=
  (∀ (s : State) (r : Round), validate s r = ((roundChecks s r).find? (fun c => c.1)).map (fun c => c.2))
  ∧ (∀ (h : Header) (number : Byte) (material : Key) (check : Check) (e : RoundEntry) (s : State),
    Reaches s h (.roundBody number material check) → findRound s h.src number = some e → e.round.phase = .awaitingBody →
    let r := { e.round with phase := .voting, body := some ⟨material, check⟩ }
    let s' := modRound s h.src number (fun x => { x with round := r })
    let votes := e.round.proposer != self s && isLive s && !s.memb.leaving
    Yields (.roundBody h number material check) s fun t =>
      openEntries t = (openEntries s).map (fun x => if hasId h.src number x.round
        then ⟨r, if votes then (if (validate s' r).isNone then .accepted else .refused) else x.mark⟩ else x)
      ∧ (votes = true → validate s' r = none →
          hasFrame t (fun f => f == .accept (byteOf e.round.proposer) number) = true)
      ∧ (∀ reason, votes = true → validate s' r = some reason →
          hasFrame t (fun f => f == .refuse (byteOf e.round.proposer) number reason.code) = true)
      ∧ (e.round.proposer = self s → s.rounds.own.phase = .bodyOut → s.rounds.own.number = number →
          (validate s' r = none → t.rounds.own.phase = .counting ∧ t.rounds.own.accepts = setAdd 0#8 (self s).val
            ∧ t.rounds.own.eligible = setDel s.memb.live (self s).val)
          ∧ ∀ reason, validate s' r = some reason →
              t.rounds.own.phase = .decided ∧ t.rounds.own.outcome = some (.stale, reason.code)
              ∧ hasFrame t (fun f => f == .abandon number .stale) = true)
      ∧ SameBut (.roundList :: stationFrame) s t)
  ∧ ∀ (h : Header) (number : Byte) (material : Key) (check : Check) (s : State),
    Reaches s h (.roundBody number material check) →
    (∀ e, findRound s h.src number = some e → e.round.phase = .voting) →
    Yields (.roundBody h number material check) s fun t => SameBut stationFrame s t

/-- ACCEPT, REFUSE and the proposer's deadline (R74 to R76): a vote that counts is counted once; with q accepts the proposer queues its
COMMIT, and where q can no longer be reached its ABANDON; at the deadline it abandons with TIMEOUT. A vote that does not count
changes nothing. -/
def Obligations.VotesDecideRound : Prop :=
  (∀ (h : Header) (proposer number : Byte) (s : State),
    Reaches s h (.accept proposer number) → voteCounts s h.src proposer number = true →
    Yields (.accept h proposer number) s fun t =>
      Counted { s.rounds.own with
        accepts := setAdd s.rounds.own.accepts h.src.val, voted := setAdd s.rounds.own.voted h.src.val } s t
      ∧ SameBut stationFrame s t)
  ∧ (∀ (h : Header) (proposer number reason : Byte) (s : State),
    Reaches s h (.refuse proposer number reason) → voteCounts s h.src proposer number = true →
    refuseReasonListed reason = true →
    Yields (.refuse h proposer number reason) s fun t =>
      Counted { s.rounds.own with
        voted := setAdd s.rounds.own.voted h.src.val
        firstRefusal := if s.rounds.own.firstRefusal = 0#8 then reason else s.rounds.own.firstRefusal } s t
      ∧ SameBut stationFrame s t)
  ∧ (∀ (h : Header) (proposer number : Byte) (s : State),
    Reaches s h (.accept proposer number) → voteCounts s h.src proposer number = false →
    Yields (.accept h proposer number) s fun t => SameBut stationFrame s t)
  ∧ (∀ (h : Header) (proposer number reason : Byte) (s : State),
    Reaches s h (.refuse proposer number reason) → voteCounts s h.src proposer number = false →
    Yields (.refuse h proposer number reason) s fun t => SameBut stationFrame s t)
  ∧ (∀ s : State, s.rounds.own.deadline = true → s.rounds.own.phase = .bodyOut ∨ s.rounds.own.phase = .counting →
    Yields .roundDeadlineExpiry s fun t =>
      t.rounds.own = { s.rounds.own with deadline := false, phase := .decided, outcome := some (.timeout, 0#8) }
      ∧ hasFrame t (fun f => f == .abandon s.rounds.own.number .timeout) = true ∧ SameBut reacting s t)
  ∧ (∀ s : State, s.rounds.own.deadline = true → s.rounds.own.phase = .decided →
    Yields .roundDeadlineExpiry s fun t =>
      t.rounds.own = { s.rounds.own with deadline := false } ∧ SameBut reacting s t)
  ∧ ∀ s : State, s.rounds.own.deadline = false → Yields .roundDeadlineExpiry s fun t => SameBut reacting s t

/-- COMMIT of a round that passes R78's checks, at a LIVE station, or R79's, at a CATCHUP one: the change is applied, the round leaves
the list, a WINDOW_OPEN opens and a WINDOW_CLOSE closes the window (R80, R83), the proposer reports DONE (R86), and a higher
carried sequence is the cause SEQUENCE. The statement is for a door closed at a close reading (R179). Some of it is the model's choice:
that a CATCHUP station tests the carried version too (log 20), what a round that no validation has judged does with a field outside its
list or range (logs 11, 47 and 62), and the resulting slot version of a kind outside its list (log 69). -/
def Obligations.CommitAppliesRound : Prop :=
  (∀ (h : Header) (number : Byte) (seq : Word) (version : Half) (pins : Pins) (e : RoundEntry) (s : State),
    Reaches s h (.commit number seq version) → s.memb.state = .live → findRound s h.src number = some e →
    commitCause s (some e) version = none → s.tamper.window = none ∨ pins.doorOpen = false →
    Yields (.commit h number seq version pins) s fun t =>
      t.dir = applyToDirectory e.round s.dir
      ∧ openEntries t = (openEntries s).filter (fun x => !hasId h.src number x.round)
      ∧ (e.round.kind = ChangeKind.windowOpen.code → t.tamper.window = some e.round.window.toNat)
      ∧ (e.round.kind = ChangeKind.windowClose.code → t.tamper.window = none)
      ∧ (e.round.kind ≠ ChangeKind.windowOpen.code → e.round.kind ≠ ChangeKind.windowClose.code → t.tamper = s.tamper)
      ∧ ((nextSeq s.dir.seq).toNat < seq.toNat → s.memb.leaving = false →
          t.memb.leaving = true ∧ hasFrame t (fun f => f == .expel (self s) .sequence) = true)
      ∧ (∀ item rest, namesOwnRound s h.src number = true → s.rounds.queue = item :: rest →
          hasFrame t (fun f => f == outcomeReport item (ownRoundId s) .done 0#8 (reportedVersion t e.round.slot)
            t.dir.seq) = true)
      ∧ SameBut (.inputs :: .slots :: .usage :: .seq :: .roundList :: .channels :: .maintenance :: .leaving :: .serve ::
          stationFrame) s t)
  ∧ (∀ (h : Header) (number : Byte) (seq : Word) (version : Half) (pins : Pins) (e : RoundEntry) (s : State),
    Reaches s h (.commit number seq version) → s.memb.state = .catchup → findRound s h.src number = some e →
    e.round.phase = .voting → commitVersionFails s.dir e.round version = false →
    s.tamper.window = none ∨ pins.doorOpen = false →
    Yields (.commit h number seq version pins) s fun t =>
      t.dir = applyToDirectory e.round s.dir
      ∧ openEntries t = (openEntries s).filter (fun x => !hasId h.src number x.round)
      ∧ SameBut (.inputs :: .slots :: .usage :: .seq :: .roundList :: .channels :: .maintenance :: stationFrame) s t)
  ∧ ∀ (h : Header) (number : Byte) (seq : Word) (version : Half) (pins : Pins) (s : State),
    Reaches s h (.commit number seq version) → s.memb.state = .catchup → findRound s h.src number = none →
    Yields (.commit h number seq version pins) s fun t => SameBut (.inputs :: stationFrame) s t

/-- What a committed change does to the directory (R47, R48, R80 to R82): the slot's version and the commit sequence rise by one, the
last change is the round id, the slot's state and fields follow the kind, and no other slot or usage entry changes; a probe and
the window kinds raise the sequence only. -/
def Obligations.CommitChangesOneSlot : Prop :=
  (∀ (r : Round) (d : Directory) (kind : ChangeKind) (i : SlotId),
    ChangeKind.ofCode? r.kind = some kind → slotOf? r.slot = some i → isWindowKind kind = false → isProbe kind r = false →
    let d' := applyToDirectory r d
    let x := d.slot i
    let y := d'.slot i
    let stamped : Slot := { x with version := x.version + 1#16, lastProposer := byteOf r.proposer, lastNumber := r.number }
    let u := d.usageOf i
    let v := d'.usageOf i
    let used : Word := if maskResetUsed r.mask then 0#32 else u.used
    d'.seq = nextSeq d.seq ∧ d'.key = d.key
    ∧ (∀ j, j ≠ i → d'.slot j = d.slot j ∧ d'.usageOf j = d.usageOf j)
    ∧ (∀ k b, kind = .importKey → KeyClass.ofCode? r.cls = some k → r.body = some b →
        y = { stamped with
              state := .staged
              cls := k
              label := r.label
              functions := r.functions
              limit := r.limit
              material := b.material
              check := b.check }
        ∧ v = Usage.zero)
    ∧ (kind = .activate ∨ kind = .resume → y = { stamped with state := .active } ∧ v = u)
    ∧ (kind = .suspend → y = { stamped with state := .suspended } ∧ v = u)
    ∧ (kind = .retire → y = { stamped with state := .retired } ∧ v = u)
    ∧ (kind = .destroy → y = { Slot.zero with version := x.version + 1#16 } ∧ v = Usage.zero)
    ∧ (kind = .edit →
        y = { stamped with
              functions := if maskFunctions r.mask then r.functions else x.functions
              limit := if maskLimit r.mask then r.limit else x.limit }
        ∧ v.used = used ∧ v.reserved = u.reserved
        ∧ (maskLimit r.mask = true → used.toNat < effective r.limit → v.exhausted = false)
        ∧ (maskLimit r.mask = true → used.toNat = effective r.limit → v.exhausted = true)
        ∧ (maskLimit r.mask = false → v.exhausted = if maskResetUsed r.mask then false else u.exhausted)))
  ∧ ∀ (r : Round) (d : Directory) (kind : ChangeKind), ChangeKind.ofCode? r.kind = some kind →
    isWindowKind kind = true ∨ isProbe kind r = true → applyToDirectory r d = { d with seq := nextSeq d.seq }

/-- COMMIT that a LIVE station cannot follow, and ABANDON (R78, R84): the round leaves the list and the directory stays; the station
finds COMMIT_UNKNOWN, REFUSED_COMMIT or COMMIT_VERSION and puts itself out (R35). That an ABANDON with a reason outside its list is
ignored is the model's choice (log 11), under section 11.5's "The owning block judges it as a value it does not act on"; so is the
resulting slot version that COMMIT_VERSION is judged by where the round's kind is outside its list (log 69). -/
def Obligations.CommitCausesAndAbandon : Prop :=
  (∀ (h : Header) (number : Byte) (seq : Word) (version : Half) (pins : Pins) (cause : ExpelReason) (s : State),
    Reaches s h (.commit number seq version) → s.memb.state = .live →
    commitCause s (findRound s h.src number) version = some cause →
    Yields (.commit h number seq version pins) s fun t =>
      t.dir = s.dir ∧ t.tamper = s.tamper ∧ t.memb.leaving = true
      ∧ openEntries t = (openEntries s).filter (fun x => !hasId h.src number x.round)
      ∧ (s.memb.leaving = false → hasFrame t (fun f => f == .expel (self s) cause) = true)
      ∧ SameBut (.inputs :: .roundList :: .leaving :: .serve :: stationFrame) s t)
  ∧ (∀ (s : State) (version : Half), commitCause s none version = some .commitUnknown)
  ∧ (∀ (s : State) (e : RoundEntry) (version : Half), e.round.phase = .awaitingBody →
    commitCause s (some e) version = some .commitUnknown)
  ∧ (∀ (s : State) (e : RoundEntry) (version : Half), e.round.phase = .voting → e.mark = .refused →
    commitCause s (some e) version = some .refusedCommit)
  ∧ (∀ (s : State) (e : RoundEntry) (version : Half) (i : SlotId), e.round.phase = .voting → e.mark ≠ .refused →
    slotOf? e.round.slot = some i → (s.dir.slot i).version ≠ e.round.expected →
    commitCause s (some e) version = some .commitVersion)
  ∧ (∀ (h : Header) (number reason : Byte) (s : State),
    Reaches s h (.abandon number reason) → abandonReasonListed reason = true →
    Yields (.abandon h number reason) s fun t =>
      openEntries t = (openEntries s).filter (fun x => !hasId h.src number x.round)
      ∧ (∀ o detail item rest, namesOwnRound s h.src number = true → s.rounds.own.outcome = some (o, detail) →
          s.rounds.queue = item :: rest →
          hasFrame t (fun f => f == outcomeReport item (ownRoundId s) o detail 0#16 0#32) = true)
      ∧ SameBut (.roundList :: stationFrame) s t)
  ∧ ∀ (h : Header) (number reason : Byte) (s : State),
    Reaches s h (.abandon number reason) → abandonReasonListed reason = false →
    Yields (.abandon h number reason) s fun t => SameBut stationFrame s t

/-! ## Custody orders and key ceremonies -/

/-- An order of a round kind that passes every test (R90 to R94): its item joins the custody queue; where the station has no round and
the item clashes with nothing it is proposed at once under the next round number (R64), and where it clashes it is reported and
leaves; a station that holds earlier items checks its head so. That the next number is the counter before it is raised is the model's
choice (log 48). -/
def Obligations.RoundOrderIsQueued : Prop :=
  ∀ (kind : ChangeKind) (h : Header) (b : OrderBody) (c : Instr) (s : State),
    roundOrder kind h b = some c → Reaches s h (.order kind.code b) → orderFormFails kind.code b = false →
    serving s = true → orderApprovalsFail s kind.code b = false → s.rounds.queue.length < 4 →
    firstComplete s.cust = none →
    let item := orderItem s.dir h kind b
    Yields c s fun t =>
      (s.rounds.own.phase ≠ .none → s.rounds.own.phase ≠ .held →
        t.rounds.queue = s.rounds.queue ++ [item] ∧ t.rounds.own = s.rounds.own)
      ∧ (s.rounds.own.phase = .none → s.rounds.queue = [] → proposalClash s b.slot kind.code Label.zero = none →
          t.rounds.queue = [item] ∧ t.rounds.own.phase = .proposed ∧ t.rounds.own.number = s.rounds.counter
          ∧ t.rounds.counter = s.rounds.counter + 1#8
          ∧ hasFrame t (fun f => f == .propose (proposeOf s.rounds.counter item)) = true)
      ∧ (∀ o, s.rounds.own.phase = .none → s.rounds.queue = [] → proposalClash s b.slot kind.code Label.zero = some o →
          t.rounds.queue = [] ∧ t.rounds.own.phase = .none ∧ t.rounds.counter = s.rounds.counter
          ∧ hasFrame t (fun f => f == outcomeReport item (if s.rounds.own.proposeQueued then ownRoundId s else none) o 0#8 0#16
              0#32) = true)
      ∧ (∀ x rest, s.rounds.own.phase = .held → s.rounds.queue = x :: rest →
          (proposalClash s x.slot x.kind.code x.label = none →
            t.rounds.queue = s.rounds.queue ++ [item] ∧ t.rounds.own.phase = .proposed ∧ t.rounds.own.number = s.rounds.counter
            ∧ t.rounds.counter = s.rounds.counter + 1#8
            ∧ hasFrame t (fun f => f == .propose (proposeOf s.rounds.counter x)) = true)
          ∧ ∀ o, proposalClash s x.slot x.kind.code x.label = some o →
              hasFrame t (fun f => f == outcomeReport x (if s.rounds.own.proposeQueued then ownRoundId s else none) o 0#8 0#16
                0#32) = true)
      ∧ SameBut gatewayFrame s t

/-- An order that fails a test is refused with the first test's outcome (R90, R91, R93 to R95): FORM, NOT_SERVING, BAD_APPROVAL, BUSY;
it is reported to its gateway and changes nothing else. -/
def Obligations.OrderRefusalIsReported : Prop :=
  (∀ (kind : Byte) (h : Header) (b : OrderBody) (pins : Pins) (s : State),
    Reaches s h (.order kind b) → orderFormFails kind b = true →
    Yields (orderCommand kind h b pins) s fun t =>
      RefusedOrder h kind b .refused 2#8 t ∧ SameBut (.inputs :: gatewayFrame) s t)
  ∧ (∀ (kind : Byte) (h : Header) (b : OrderBody) (pins : Pins) (s : State),
    Reaches s h (.order kind b) → orderFormFails kind b = false → orderServed s kind = false →
    Yields (orderCommand kind h b pins) s fun t =>
      RefusedOrder h kind b .notServing 0#8 t ∧ SameBut (.inputs :: gatewayFrame) s t)
  ∧ (∀ (kind : Byte) (h : Header) (b : OrderBody) (pins : Pins) (s : State),
    Reaches s h (.order kind b) → orderFormFails kind b = false → orderServed s kind = true →
    orderApprovalsFail s kind b = true →
    Yields (orderCommand kind h b pins) s fun t =>
      RefusedOrder h kind b .refused 13#8 t ∧ SameBut (.inputs :: gatewayFrame) s t)
  ∧ (∀ (kind : Byte) (h : Header) (b : OrderBody) (pins : Pins) (s : State),
    Reaches s h (.order kind b) → orderFormFails kind b = false → orderServed s kind = true →
    orderApprovalsFail s kind b = false →
    (kind.toNat ≤ 9 ∧ 4 ≤ s.rounds.queue.length) ∨ ((kind.toNat = 10 ∨ kind.toNat = 11) ∧ s.cust.record ≠ none) →
    Yields (orderCommand kind h b pins) s fun t =>
      RefusedOrder h kind b .busy 0#8 t ∧ SameBut (.inputs :: gatewayFrame) s t)
  ∧ ∀ (kind : Byte) (h : Header) (b : OrderBody) (s : State), ¬(2 ≤ kind.toNat ∧ kind.toNat ≤ 12) →
    Reaches s h (.order kind b) →
    Yields (.orderUnknownKind h kind b) s fun t =>
      RefusedOrder h kind b .refused 2#8 t ∧ SameBut gatewayFrame s t

/-- RESTART and YIELD (R96, R97, R99): out of LIVE the warm start is taken at once, its yield mark kept for a YIELD, and DONE reported
with the state entered; in LIVE the RESTART is outstanding and the station puts itself out. The version and commit sequence 0 of a
direct order's DONE are the model's choice (log 24), and so is that a RESTART clears the mark of an earlier YIELD (log 44). -/
def Obligations.RestartAndYield : Prop :=
  (∀ (h : Header) (b : OrderBody) (pins : Pins) (s : State),
    Reaches s h (.order codeRestart b) → orderFormFails codeRestart b = false → orderApprovalsFail s codeRestart b = false →
    s.cust.record = none → s.memb.state ≠ .live → s.tamper.window = none ∨ pins.doorOpen = false →
    Yields (.orderRestart h b pins) s fun t =>
      WarmStarted (strapsOf pins) codeRestart h b s t ∧ t.memb.yieldMark = false)
  ∧ (∀ (h : Header) (b : OrderBody) (pins : Pins) (s : State),
    Reaches s h (.order codeRestart b) → orderFormFails codeRestart b = false → orderApprovalsFail s codeRestart b = false →
    s.cust.record = none → s.memb.state = .live →
    Yields (.orderRestart h b pins) s fun t =>
      t.memb.restartOutstanding = true ∧ t.memb.leaving = true ∧ t.cust.record = some ⟨h.src, b.tag, codeRestart⟩
      ∧ (s.memb.leaving = false → hasFrame t (fun f => f == .expel (self s) .restart) = true)
      ∧ SameBut (.inputs :: .leaving :: .serve :: .record :: gatewayFrame) s t)
  ∧ ∀ (h : Header) (b : OrderBody) (pins : Pins) (s : State),
    Reaches s h (.order codeYield b) → orderFormFails codeYield b = false → orderServed s codeYield = true →
    orderApprovalsFail s codeYield b = false → s.cust.record = none → s.tamper.window = none ∨ pins.doorOpen = false →
    Yields (.orderYield h b pins) s fun t =>
      WarmStarted (strapsOf pins) codeYield h b s t ∧ t.memb.yieldMark = true

/-- COMPONENT of a slot (R101 to R103, R105): number 1 opens an area and later ones join it; the last completes it, or fails it where
the check value differs. A COMPLETE area takes room as an IMPORT item while the custody queue holds fewer than 4, and is then
QUEUED; a station with no round and no item proposes it at once (R64). A refused component changes nothing but for its report, whose
counts are the model's choice (log 24). -/
def Obligations.SlotComponentIsTaken : Prop :=
  (∀ (h : Header) (b : ComponentBody) (a : AreaId) (x : Area) (s : State), TakesComponent h b a x s →
    takenCount (withComponent b (s.wirePlace + 1) x) ≠ x.m.toNat →
    Yields (.componentSlot h b) s fun t =>
      areaAt t a = some (withComponent b (s.wirePlace + 1) x)
      ∧ hasFrame t (fun f => f == assemblyReport h b .taken none (takenCount (withComponent b (s.wirePlace + 1) x)) x.m
          0#24) = true
      ∧ SameBut gatewayFrame s t)
  ∧ (∀ (h : Header) (b : ComponentBody) (a : AreaId) (x : Area) (k : CabinetKey) (s : State), TakesComponent h b a x s →
    takenCount (withComponent b (s.wirePlace + 1) x) = x.m.toNat → s.dir.key = some k →
    checkOf (accumulatorOf x ^^^ b.component) = x.expected →
    Yields (.componentSlot h b) s fun t =>
      hasFrame t (fun f => f == assemblyReport h b .complete none x.m.toNat x.m x.expected) = true
      ∧ (s.rounds.queue.length = 4 → s.rounds.own.phase ≠ .held →
          areaAt t a = some { withComponent b (s.wirePlace + 1) x with
            phase := .complete (storedForm k.key (accumulatorOf x ^^^ b.component)) })
      ∧ (∀ i, slotOf? x.target = some i → s.rounds.queue.length < 4 → firstComplete s.cust = none →
          let item : CustodyItem :=
            { origin := x.gateway, tag := x.id, byAssembly := true, kind := .importKey, slot := x.target, label := x.label,
              cls := x.cls, functions := x.functions, limit := x.limit, mask := 0#8, window := 0#16, approvals := [],
              bound := (s.dir.slot i).version,
              material := some ⟨storedForm k.key (accumulatorOf x ^^^ b.component), x.expected⟩ }
          (s.rounds.own.phase ≠ .none → s.rounds.own.phase ≠ .held →
            t.rounds.queue = s.rounds.queue ++ [item] ∧ t.rounds.own = s.rounds.own
            ∧ areaAt t a = some { withComponent b (s.wirePlace + 1) x with phase := .queued })
          ∧ (s.rounds.own.phase = .none → s.rounds.queue = [] → proposalClash s x.target 1#8 x.label = none →
            t.rounds.queue = [item] ∧ t.rounds.own.phase = .proposed
            ∧ areaAt t a = some { withComponent b (s.wirePlace + 1) x with phase := .queued }
            ∧ hasFrame t (fun f => f == .propose (proposeOf s.rounds.counter item)) = true))
      ∧ SameBut gatewayFrame s t)
  ∧ (∀ (h : Header) (b : ComponentBody) (a : AreaId) (x : Area) (s : State), TakesComponent h b a x s →
    takenCount (withComponent b (s.wirePlace + 1) x) = x.m.toNat → checkOf (accumulatorOf x ^^^ b.component) ≠ x.expected →
    Yields (.componentSlot h b) s fun t =>
      areaAt t a = none
      ∧ hasFrame t (fun f => f == assemblyReport h b .failed none x.m.toNat x.m 0#24) = true ∧ SameBut gatewayFrame s t)
  ∧ ∀ (h : Header) (b : ComponentBody) (detail : AssemblyDetail) (s : State),
    Reaches s h (.component b) → b.target ≠ 255#8 → applies s = true → slotRefusal s h b = some detail →
    Yields (.componentSlot h b) s fun t =>
      hasFrame t (fun f => f == refusalReport s h b detail) = true ∧ SameBut gatewayFrame s t

/-- COMPONENT of the cabinet key in BLANK (R57, R106), and the assembly timeout (R104, R105): the last component installs the key and
the station enters LISTENING; an area left for 300 s is freed and reported, unless it stands QUEUED. -/
def Obligations.CabinetComponentInstallsKey : Prop :=
  (∀ (h : Header) (b : ComponentBody) (a : AreaId) (x : Area) (s : State),
    Reaches s h (.component b) → s.memb.state = .blank → numbersFail b = false → componentCheckFails b = false →
    placeComponent true h (cabinetComponent b) s = .ok (a, x) →
    let x' := withComponent (cabinetComponent b) (s.wirePlace + 1) x
    Yields (.componentCabinet h b) s fun t =>
      (takenCount x' ≠ x.m.toNat → areaAt t a = some x' ∧ t.memb = s.memb ∧ t.dir = s.dir)
      ∧ (takenCount x' = x.m.toNat → checkOf (accumulatorOf x') ≠ x.expected → areaAt t a = none ∧ t.memb = s.memb)
      ∧ (takenCount x' = x.m.toNat → checkOf (accumulatorOf x') = x.expected →
          t.memb.state = .listening ∧ t.memb.windowOpen = true ∧ t.memb.live = 0#8
          ∧ t.dir.key = some ⟨accumulatorOf x', checkOf (accumulatorOf x')⟩ ∧ t.dir.slots = s.dir.slots
          ∧ t.dir.seq = s.dir.seq ∧ t.cust.areas = Vector.replicate 2 none
          ∧ hasFrame t (fun f => f == assemblyReport h (cabinetComponent b) .installed none x.m.toNat x.m
              (checkOf (accumulatorOf x'))) = true))
  ∧ (∀ (h : Header) (b : ComponentBody) (s : State),
    Reaches s h (.component b) → s.memb.state = .blank →
    numbersFail b = true ∨ componentCheckFails b = true ∨ (∃ d, placeComponent true h (cabinetComponent b) s = .error d) →
    Yields (.componentCabinet h b) s fun t => SameBut stationFrame s t)
  ∧ (∀ (h : Header) (b : ComponentBody) (s : State), Reaches s h (.component b) → s.memb.state ≠ .blank →
    Yields (.componentCabinet h b) s fun t => SameBut gatewayFrame s t)
  ∧ (∀ (a : AreaId) (x : Area) (s : State), areaAt s a = some x → x.phase ≠ .queued →
    Yields (.assemblyTimeout a) s fun t =>
      areaAt t a = none ∧ hasFrame t (fun f => f == areaReport x .expired) = true ∧ SameBut reacting s t)
  ∧ ∀ (a : AreaId) (s : State), (∀ x, areaAt s a = some x → x.phase = .queued) →
    Yields (.assemblyTimeout a) s fun t => SameBut reacting s t

/-! ## Catch-up -/

/-- PULL (R113): a LIVE station that is not leaving and has room queues the entry, and serves it at once where it stands alone: an
IMAGE for each of its items. In every other case the PULL changes nothing. -/
def Obligations.PullIsServed : Prop :=
  (∀ (h : Header) (area start : Byte) (size : Nat) (s : State),
    Reaches s h (.pull area start) → areaSize? area = some size → start.toNat < size → s.memb.state = .live →
    s.memb.leaving = false → s.catchUp.serve.length < 4 →
    Yields (.pull h area start) s fun t =>
      t.catchUp.serve = s.catchUp.serve ++ [⟨h.src, area, start, burstItems area start⟩]
      ∧ (s.catchUp.serve = [] → ∀ i ∈ burstItems area start, hasFrame t (fun f => f == .image h.src area i) = true)
      ∧ SameBut (.serve :: stationFrame) s t)
  ∧ ∀ (h : Header) (area start : Byte) (s : State), Reaches s h (.pull area start) →
    areaSize? area = none ∨ (∃ size, areaSize? area = some size ∧ size ≤ start.toNat) ∨ s.memb.state ≠ .live
      ∨ s.memb.leaving = true ∨ 4 ≤ s.catchUp.serve.length →
    Yields (.pull h area start) s fun t => SameBut stationFrame s t

/-- IMAGE from the source of an attempt (R112, R114 to R116): the commit sequence and the item's record are overwritten, a MEMBERS
item that names the puller, not the source, or another check value still replaces the live set and fails the attempt (R119), in
JOINING once the JOIN's withdrawal is decided (R118); from any other node, or in any other state
or phase, it changes nothing. An awaited item is awaited no more; the last of a burst stops the pull timer and queues the next PULL,
or begins VERIFYING after pull 26 (R112). That a free entry restarts no watch is the model's choice (log 39), and so is that an item
with a code outside its list is ignored (log 11). -/
def Obligations.ImageOverwritesItem : Prop :=
  (∀ (h : Header) (area item : Byte) (seq : Word) (contents : List Byte) (i : SlotId) (x : Slot) (u : Usage) (s : State),
    Reaches s h (.image area item seq contents) → takesImages s h.src = true →
    imageItem? area item contents = some (.slot i x u) →
    Yields (.image h area item seq contents) s fun t =>
      t.dir = { (s.dir.setSlot i x).setUsage i u with seq := seq }
      ∧ SameBut (.slots :: .usage :: .seq :: .pulling :: stationFrame) s t)
  ∧ (∀ (h : Header) (area item : Byte) (seq : Word) (contents : List Byte) (l : LineId) (e : LineEntry) (s : State),
    Reaches s h (.image area item seq contents) → takesImages s h.src = true →
    imageItem? area item contents = some (.line l e) →
    Yields (.image h area item seq contents) s fun t =>
      t.dir = { s.dir with seq := seq } ∧ entryAt t l = e ∧ (∀ l', l' ≠ l → entryAt t l' = entryAt s l')
      ∧ (e.state ≠ .free → tget t.lines.watches (nodeOf e.gateway) = .running)
      ∧ SameBut (.seq :: .entries :: .locals :: .gatewayWatches :: .pulling :: stationFrame) s t)
  ∧ (∀ (h : Header) (area item : Byte) (seq : Word) (contents : List Byte) (map : NodeMap) (check : Check) (s : State),
    Reaches s h (.image area item seq contents) → takesImages s h.src = true →
    imageItem? area item contents = some (.members map check) →
    membersFail s (setOfMap (stationCount s) map) check = false →
    Yields (.image h area item seq contents) s fun t =>
      t.dir = { s.dir with seq := seq } ∧ t.memb.live = setOfMap (stationCount s) map
      ∧ SameBut (.seq :: .live :: .pulling :: stationFrame) s t)
  ∧ (∀ (h : Header) (area item : Byte) (seq : Word) (contents : List Byte) (k : Nat) (r : Round) (s : State),
    Reaches s h (.image area item seq contents) → takesImages s h.src = true →
    imageItem? area item contents = some (.round k (some r)) → s.rounds.list.length ≤ 4 →
    Yields (.image h area item seq contents) s fun t =>
      t.dir = { s.dir with seq := seq } ∧ ⟨r, .none⟩ ∈ openEntries t
      ∧ (∀ e ∈ openEntries t, e.round ≠ r → e.round.slot ≠ r.slot ∧ e.round.proposer ≠ r.proposer)
      ∧ SameBut (.seq :: .roundList :: .pulling :: stationFrame) s t)
  ∧ (∀ (h : Header) (area item : Byte) (seq : Word) (contents : List Byte) (k : Nat) (s : State),
    Reaches s h (.image area item seq contents) → takesImages s h.src = true →
    imageItem? area item contents = some (.round k none) →
    Yields (.image h area item seq contents) s fun t =>
      t.dir = { s.dir with seq := seq } ∧ openEntries t = openList ((fourPlaces s.rounds.list).set k none)
      ∧ SameBut (.seq :: .roundList :: .pulling :: stationFrame) s t)
  ∧ (∀ (h : Header) (area item : Byte) (seq : Word) (contents : List Byte) (x : ImageItem) (s : State),
    Reaches s h (.image area item seq contents) → takesImages s h.src = true →
    imageItem? area item contents = some x → itemFails x s = false → awaits s area item = true →
    let left := s.catchUp.awaited.erase item
    let next := pullOf (s.catchUp.pullIndex + 1)
    Yields (.image h area item seq contents) s fun t =>
      (left ≠ [] → t.catchUp = { s.catchUp with awaited := left })
      ∧ (∀ k, left = [] → s.catchUp.pullIndex < 26 → s.catchUp.source = some k →
          t.catchUp = { s.catchUp with awaited := [], pullTimer := false, pullIndex := s.catchUp.pullIndex + 1 }
          ∧ hasFrame t (fun f => f == .pull k next.1 next.2 false) = true)
      ∧ (left = [] → 26 ≤ s.catchUp.pullIndex →
          t.catchUp = { s.catchUp with awaited := [], pullTimer := false, phase := .verifying, verifyTimer := true }))
  ∧ (∀ (h : Header) (area item : Byte) (seq : Word) (contents : List Byte) (map : NodeMap) (check : Check) (s : State),
    Reaches s h (.image area item seq contents) → takesImages s h.src = true →
    imageItem? area item contents = some (.members map check) →
    membersFail s (setOfMap (stationCount s) map) check = true →
    let s' := { s with memb := { s.memb with live := setOfMap (stationCount s) map } }
    Yields (.image h area item seq contents) s fun t =>
      (s.catchUp.phase ≠ .joining → AttemptFailed s' t)
      ∧ (s.catchUp.phase = .joining → JoiningFailed .mismatch s' t)
      ∧ (t.memb.state = .catchup → t.memb.live = setOfMap (stationCount s) map ∧ t.dir = { s.dir with seq := seq }))
  ∧ ∀ (h : Header) (area item : Byte) (seq : Word) (contents : List Byte) (s : State),
    Reaches s h (.image area item seq contents) →
    takesImages s h.src = false ∨ imageItem? area item contents = none →
    Yields (.image h area item seq contents) s fun t => SameBut stationFrame s t

/-- The pull timer and the verification timer (R110, R112, R117, R119): an expiry fails the attempt under way; a timer that is not
running has no effect. -/
def Obligations.CatchUpTimersFailAttempt : Prop :=
  (∀ s : State, s.memb.state = .catchup → s.catchUp.pullTimer = true → s.catchUp.phase = .pulling →
    Yields .pullTimerExpiry s fun t => AttemptFailed s t)
  ∧ (∀ s : State, s.memb.state = .catchup → s.catchUp.verifyTimer = true →
    s.catchUp.phase = .waitSource ∨ s.catchUp.phase = .verifying →
    Yields .verificationTimerExpiry s fun t => AttemptFailed s t)
  ∧ (∀ s : State, s.catchUp.pullTimer = false → Yields .pullTimerExpiry s fun t => SameBut reacting s t)
  ∧ ∀ s : State, s.catchUp.verifyTimer = false → Yields .verificationTimerExpiry s fun t => SameBut reacting s t

/-! ## Queries, and the frames that stations pass over -/

/-- QUERY (R188): it joins the query queue while fewer than 4 wait, and its REPORT is asked for when its turn comes; one that finds the
queue full, as it stands once the frame has restarted its gateway's watch (R137), is dropped and counted; a kind the state does not
answer leaves without a report. The REPORT carries the contents of R189 as they stand when it wins; that a source of "none" is sent
as 0 is the model's choice (log 24). ANSWER and REPORT are passed over by a station (R11). -/
def Obligations.QueriesAreQueued : Prop :=
  (∀ (h : Header) (tag : Half) (arg : QueryArg) (s : State),
    Reaches s h (queryFrame tag arg) → WithinCapacity s → s.rep.queries.length < 4 →
    queryAnswered s.memb.state arg = true →
    Yields (queryCommand h tag arg) s fun t =>
      (⟨h.src, tag, arg⟩ ∈ t.rep.queries ∨ hasFrame t (fun f => f == .queryReport ⟨h.src, tag, arg⟩) = true)
      ∧ SameBut gatewayFrame s t)
  ∧ (∀ (h : Header) (tag : Half) (arg : QueryArg) (s : State),
    Reaches s h (queryFrame tag arg) → s.rep.queries = [] → queryAnswered s.memb.state arg = false →
    Yields (queryCommand h tag arg) s fun t =>
      (hasPending s isQueryReport = false → t.rep.queries = []
        ∧ hasFrame t (fun f => f == .queryReport ⟨h.src, tag, arg⟩) = hasFrame s (fun f => f == .queryReport ⟨h.src, tag, arg⟩))
      ∧ SameBut gatewayFrame s t)
  ∧ (∀ (h : Header) (tag : Half) (arg : QueryArg) (s : State),
    Reaches s h (queryFrame tag arg) → (noteGateway h (receivedIntact s)).rep.queries.length = 4 →
    Yields (queryCommand h tag arg) s fun t =>
      t.rep.dropped.toNat = min 65535 (s.rep.dropped.toNat + 1) ∧ SameBut (.dropped :: gatewayFrame) s t)
  ∧ (∀ (g : Node) (tag : Half) (s : State),
    fetchFrame s (.queryReport ⟨g, tag, .identity⟩) = .report (field 2 tag
      ++ [1#8, 0x46#8, 0x4B#8, 0x16#8, 1#8, s.straps.node.setWidth 8, 0#2 ++ s.straps.nsta ++ s.straps.qrm]
      ++ field 3 s.dir.cabinetCheck))
  ∧ (∀ (g : Node) (tag : Half) (s : State),
    fetchFrame s (.queryReport ⟨g, tag, .status⟩) = .report (field 2 tag
      ++ [2#8, s.memb.state.code, detachedCauseCode s.memb.cause, flag 0 (quorate s) ||| flag 1 s.memb.leaving]
      ++ field 4 s.dir.seq
      ++ [s.catchUp.phase.code, (match s.catchUp.source with | none => 0#8 | some k => byteOf k),
          BitVec.ofNat 8 s.catchUp.pullIndex, BitVec.ofNat 8 s.catchUp.failures]
      ++ s.memb.peers.toList.flatMap (fun r =>
          match r with
          | none => 255#8 :: zeros 4
          | some r => r.state.code :: field 4 r.seq)
      ++ field 2 s.link.receiveErrors ++ field 2 s.link.misplaced ++ field 2 s.link.nonMember
      ++ field 2 s.engine.undelivered ++ field 2 s.catchUp.attempts ++ field 2 s.engine.preempted ++ field 2 s.rep.dropped))
  ∧ (∀ (g : Node) (tag : Half) (sel : SlotSelector) (i : SlotId) (s : State),
    (match sel with | .byNumber b => slotOf? b | .byLabel l => s.dir.lookup l) = some i →
    fetchFrame s (.queryReport ⟨g, tag, .slot sel⟩) = .report (field 2 tag ++ [3#8, 1#8, byteOf i]
      ++ slotReportBytes (s.dir.slot i) ++ field 4 (s.dir.usageOf i).used ++ field 4 (s.dir.usageOf i).reserved
      ++ [flag 0 (s.dir.usageOf i).exhausted]))
  ∧ (∀ (g : Node) (tag : Half) (sel : SlotSelector) (s : State),
    (match sel with | .byNumber b => slotOf? b | .byLabel l => s.dir.lookup l) = none →
    fetchFrame s (.queryReport ⟨g, tag, .slot sel⟩) = .report (field 2 tag ++ [3#8] ++ zeros 29))
  ∧ (∀ (g : Node) (tag : Half) (gateway line : Byte) (s : State),
    fetchFrame s (.queryReport ⟨g, tag, .line gateway line⟩) = .report (field 2 tag ++ [4#8]
      ++ (match findLine s.lines gateway line with | none => zeros 85 | some l => lineBytes (entryAt s l))))
  ∧ (∀ (g : Node) (tag : Half) (s : State),
    fetchFrame s (.queryReport ⟨g, tag, .sensors⟩) = .report (field 2 tag ++ [5#8]
      ++ [Channel.T, .V, .L, .M, .D, .C].flatMap (fun ch =>
          let c := channelOf s.tamper ch
          [c.state.code] ++ natBytes 2 c.last ++ natBytes 2 c.baseline ++ [BitVec.ofNat 8 c.trip])
      ++ (match s.tamper.window with | none => zeros 3 | some r => 1#8 :: natBytes 2 r)
      ++ (match s.tamper.cause with
          | .none => [0#8, 0#8]
          | .channel ch => [channelCode ch, 0#8]
          | .order => [7#8, 0#8]
          | .peer k => [8#8, byteOf k])))
  ∧ (∀ (h : Header) (body : List Byte) (s : State),
    onLink s = true → frameMisplaced (.answer body) (stationCount s) h = false →
    exec (.answer h body) s = .next (settle (receivedIntact s))
    ∧ Yields (.answer h body) s fun t => SameBut stationFrame s t)
  ∧ ∀ (h : Header) (body : List Byte) (s : State),
    onLink s = true → frameMisplaced (.report body) (stationCount s) h = false →
    exec (.report h body) s = .next (settle (receivedIntact s))
    ∧ Yields (.report h body) s fun t => SameBut stationFrame s t

/-! ## Tamper monitoring -/

/-- CHANNEL_SAMPLE and WINDOW_EXPIRY (R174 to R176, R178 to R180): settling counts 32 samples and arms; an armed analog channel counts
samples out of range and declares a TAMPER at the third in a row; D and C do at the first OPEN sample; a disarmed one only records;
the window's expiry closes it with a reading of the door, as the level the station was last given (the model's choice, log 3). A
TAMPER zeroises a station in the states that hold keys, and its trip count returns to 0. In RETENTION it erases everything, takes the
cause and is kept for the return of the supply, with no ZERO loaded; in ZEROISED and STRAP_FAULT nothing is left to erase. -/
def Obligations.SamplesAreJudged : Prop :=
  (∀ (ch : Channel) (reading : BitVec 10) (s : State), monitorPowered s = true →
    (takeSample ch (sampleValue ch reading) (channelOf s.tamper ch)).2 = false →
    Yields (.channelSample ch reading) s fun t =>
      channelOf t.tamper ch = (takeSample ch (sampleValue ch reading) (channelOf s.tamper ch)).1
      ∧ (∀ c, c ≠ ch → channelOf t.tamper c = channelOf s.tamper c)
      ∧ SameBut (.inputs :: .channels :: reacting) s t)
  ∧ (∀ (ch : Channel) (reading : BitVec 10) (s : State), monitorPowered s = true →
    (takeSample ch (sampleValue ch reading) (channelOf s.tamper ch)).2 = true →
    s.memb.state = .blank ∨ s.memb.state = .listening ∨ s.memb.state = .catchup ∨ s.memb.state = .live
      ∨ s.memb.state = .detached →
    Yields (.channelSample ch reading) s fun t =>
      t.memb.state = .zeroised ∧ t.dir = Directory.erased ∧ t.tamper.cause = .channel ch ∧ t.pool = Pool.empty
      ∧ (s.link.alarm = none → t.link.alarm = some (.channel ch)))
  ∧ (∀ (ch : Channel) (reading : BitVec 10) (s : State), monitorPowered s = true → s.memb.state = .retention →
    (takeSample ch (sampleValue ch reading) (channelOf s.tamper ch)).2 = true → s.tamper.window = none →
    Yields (.channelSample ch reading) s fun t =>
      t.memb = { s.memb with retainedZeroised := true } ∧ t.tamper.cause = .channel ch ∧ t.tamper.retentionTrip = true
      ∧ channelOf t.tamper ch = (takeSample ch (sampleValue ch reading) (channelOf s.tamper ch)).1
      ∧ (∀ c, c ≠ ch → channelOf t.tamper c = channelOf s.tamper c) ∧ t.tamper.storeValid = s.tamper.storeValid
      ∧ t.dir = Directory.erased ∧ t.rounds = RoundControl.empty ∧ t.cust = Custody.empty ∧ t.lines = LineTable.empty
      ∧ t.pool = Pool.empty ∧ t.engine.inFlight = none ∧ t.engine.ctx = JobContext.zero ∧ t.engine.segs = noSegments
      ∧ t.catchUp = { State.reset.catchUp with attempts := s.catchUp.attempts }
      ∧ SameBut (.inputs :: .channels :: .causeRecord :: .retentionTrip :: .retainedZeroised :: .slots :: .usage :: .seq ::
          .cabinetKey :: .roundList :: .record :: .pulling :: .serve :: .entries :: .locals :: .gatewayWatches :: .inFlight ::
          .ctx :: reacting) s t)
  ∧ (∀ (ch : Channel) (reading : BitVec 10) (s : State), monitorPowered s = true →
    s.memb.state = .zeroised ∨ s.memb.state = .strapFault →
    (takeSample ch (sampleValue ch reading) (channelOf s.tamper ch)).2 = true →
    Yields (.channelSample ch reading) s fun t =>
      channelOf t.tamper ch = (takeSample ch (sampleValue ch reading) (channelOf s.tamper ch)).1
      ∧ (∀ c, c ≠ ch → channelOf t.tamper c = channelOf s.tamper c)
      ∧ SameBut (.inputs :: .channels :: reacting) s t)
  ∧ (∀ (ch : Channel) (v : Nat) (c : ChannelRecord), c.state = .settling →
    (takeSample ch v c).2 = false ∧ (takeSample ch v c).1.last = v
    ∧ (c.settleCount < 31 → (takeSample ch v c).1.state = .settling ∧ (takeSample ch v c).1.settleCount = c.settleCount + 1)
    ∧ (c.settleCount = 31 → (takeSample ch v c).1.state = .armed
        ∧ (isDigital ch = false → (takeSample ch v c).1.baseline = (c.settleSum + v) / 32 ∧ (takeSample ch v c).1.trip = 0)))
  ∧ (∀ (ch : Channel) (v : Nat) (c : ChannelRecord), c.state = .armed → isDigital ch = false →
    (takeSample ch v c).1.last = v
    ∧ (outOfRange ch c.baseline v = false → (takeSample ch v c).2 = false ∧ (takeSample ch v c).1.trip = 0)
    ∧ (outOfRange ch c.baseline v = true → c.trip < 2 → (takeSample ch v c).2 = false
        ∧ (takeSample ch v c).1.trip = c.trip + 1)
    ∧ (outOfRange ch c.baseline v = true → c.trip = 2 → (takeSample ch v c).2 = true ∧ (takeSample ch v c).1.trip = 0))
  ∧ (∀ (ch : Channel) (v : Nat) (c : ChannelRecord), c.state = .armed → isDigital ch = true →
    (takeSample ch v c).2 = (v != 0))
  ∧ (∀ (ch : Channel) (v : Nat) (c : ChannelRecord), c.state = .disarmed →
    takeSample ch v c = ({ c with last := v }, false))
  ∧ (∀ (r : Nat) (s : State), s.tamper.window = some r → s.inputs.pins.doorOpen = false →
    Yields .windowExpiry s fun t =>
      t.tamper.window = none ∧ (channelOf t.tamper .D).state = .armed ∧ (channelOf t.tamper .L).state = .settling
      ∧ (channelOf t.tamper .L).settleCount = 0 ∧ SameBut (.channels :: .maintenance :: reacting) s t)
  ∧ (∀ (r : Nat) (s : State), s.tamper.window = some r → s.inputs.pins.doorOpen = true → s.memb.state = .live →
    Yields .windowExpiry s fun t =>
      t.tamper.window = none ∧ t.memb.state = .zeroised ∧ t.tamper.cause = .channel .D ∧ t.dir = Directory.erased)
  ∧ ∀ s : State, s.tamper.window = none → Yields .windowExpiry s fun t => SameBut reacting s t

/-- The baseline step (R177): every judged sample counts, and after each 64 the baseline moves at most one unit toward the mean of
those samples, after the 64th has been judged against the old one; the counters start again. The baseline stays within 0 to 1,023,
the absolute window holds whatever the baseline, a disarmed channel steps nothing, and entry to SETTLING starts the counters anew. -/
def Obligations.BaselineFollowsMean : Prop :=
  (∀ (ch : Channel) (v : Nat) (c : ChannelRecord), c.state = .armed → isDigital ch = false →
    let c' := (takeSample ch v c).1
    (c.stepCount + 1 < 64 →
      c'.baseline = c.baseline ∧ c'.stepCount = c.stepCount + 1 ∧ c'.stepSum = c.stepSum + v)
    ∧ (c.stepCount = 63 → c'.stepCount = 0 ∧ c'.stepSum = 0
      ∧ (c.baseline < (c.stepSum + v) / 64 → c'.baseline = c.baseline + 1)
      ∧ ((c.stepSum + v) / 64 < c.baseline → c'.baseline = c.baseline - 1)
      ∧ (c.baseline = (c.stepSum + v) / 64 → c'.baseline = c.baseline))
    ∧ (takeSample ch v c).2 = (outOfRange ch c.baseline v && decide (2 ≤ c.trip))
    ∧ (c.baseline ≤ 1023 → v ≤ 1023 → c.stepCount ≤ 63 → c.stepSum ≤ 1023 * c.stepCount → c'.baseline ≤ 1023))
  ∧ (∀ (ch : Channel) (b v : Nat), v < windowLow ch ∨ windowHigh ch < v → outOfRange ch b v = true)
  ∧ (∀ (ch : Channel) (v : Nat) (c : ChannelRecord), c.state = .disarmed →
    let c' := (takeSample ch v c).1
    c'.stepCount = c.stepCount ∧ c'.stepSum = c.stepSum ∧ c'.baseline = c.baseline)
  ∧ ∀ c : ChannelRecord, (enterSettling c).state = .settling ∧ (enterSettling c).stepCount = 0 ∧ (enterSettling c).stepSum = 0

/-! ## The directory's requests -/

/-- Reserve, settle and release (R52 to R55): what a taken reserve adds; what a settle and a release take off, never below 0; used
rises by the lesser of k and what reserved fell by, and EXHAUSTED is set at the effective limit and stays clear below it. That a
reserve of no cards is tested like any other is the model's choice (log 45). -/
def Obligations.UsageRequestsCount : Prop :=
  (∀ (d : Directory) (i : SlotId) (n : Nat),
    d.reserveTaken i n = true ↔ (d.usageOf i).exhausted = false
      ∧ (d.usageOf i).used.toNat + (d.usageOf i).reserved.toNat + n ≤ d.limitOf i)
  ∧ (∀ (d : Directory) (i : SlotId) (n : Nat), d.reserveTaken i n = true →
    let u := (d.reserve i n).usageOf i
    u.reserved.toNat = (d.usageOf i).reserved.toNat + n ∧ u.used = (d.usageOf i).used
    ∧ u.exhausted = (d.usageOf i).exhausted)
  ∧ (∀ (d : Directory) (i : SlotId) (n k : Nat),
    (d.usageOf i).used.toNat + (d.usageOf i).reserved.toNat ≤ d.limitOf i →
    let u := (d.settle i n k).usageOf i
    u.reserved.toNat = (d.usageOf i).reserved.toNat - n
    ∧ u.used.toNat = (d.usageOf i).used.toNat + min k (min n (d.usageOf i).reserved.toNat)
    ∧ (u.used.toNat = d.limitOf i → u.exhausted = true)
    ∧ (u.used.toNat < d.limitOf i → (d.usageOf i).exhausted = false → u.exhausted = false)
    ∧ ((d.usageOf i).exhausted = true → u.exhausted = true))
  ∧ (∀ (d : Directory) (i : SlotId) (n : Nat),
    let u := (d.release i n).usageOf i
    u.reserved.toNat = (d.usageOf i).reserved.toNat - n ∧ u.used = (d.usageOf i).used
    ∧ u.exhausted = (d.usageOf i).exhausted)
  ∧ ∀ (d : Directory) (i j : SlotId) (n k : Nat), j ≠ i →
    (d.reserve i n).usageOf j = d.usageOf j ∧ (d.settle i n k).usageOf j = d.usageOf j
    ∧ (d.release i n).usageOf j = d.usageOf j ∧ (d.reserve i n).slots = d.slots ∧ (d.settle i n k).slots = d.slots
    ∧ (d.release i n).slots = d.slots

/-! ## Formats -/

/-- The formats. Every frame whose length fits is read back from its own bits: kind, class, body and destination (R2, R3, R192,
R193). Every record is read back from its record form, each of the length R194 gives: slot, usage entry, line entry, round. A round
with an all-zero body reads back as one without (log 27), so the body of the statement's round is not all zero. -/
def Obligations.FormatsRoundTrip : Prop :=
  (∀ f : Frame, frameLengthFits f = true →
    frameOfBody? (frameKind f) (frameBody f) = some f ∧ (frameBody f).length ≤ 96
    ∧ ∀ (src : Node) (d : Dest), rawFrame? (rawOf f src d) = some f ∧ rawHeader (rawOf f src d) = ⟨src, d⟩)
  ∧ (∀ x : Slot, (slotBytes x).length = 50 ∧ slotOfBytes? (slotBytes x) = some x)
  ∧ (∀ u : Usage, (usageBytes u).length = 9 ∧ usageOfBytes (usageBytes u) = u)
  ∧ (∀ e : LineEntry, (lineBytes e).length = 85)
  ∧ (∀ e : LineEntry, e.state ≠ .free ∨ e = LineEntry.zero → lineOfBytes? (lineBytes e) = some e)
  ∧ (∀ r : Round, (roundBytes r).length = 74)
  ∧ (∀ r : Round, r.approvals.length ≤ 2 → r.body ≠ some ⟨0#256, 0#24⟩ →
    roundOfBytes? (roundBytes r) = some (some r))
  ∧ roundOfBytes? noRoundBytes = some none

/-! ## What every step keeps -/

/-- The transmit queue holds at most 16 entries, 12 of class 3, in order of admission (R14, R15); the custody queue, the open round
list, the pull queue and the query queue hold at most 4 (R62, R65, R113, R188). -/
def Obligations.StepKeepsCapacities : Prop :=
  ∀ s t : State, QueueBounded s → QueueOrdered s → WithinCapacity s → step s = .next t →
    QueueBounded t ∧ QueueOrdered t ∧ WithinCapacity t

/-- Each descriptor of the job pool is in exactly one of its seven queues (R143). -/
def Obligations.StepKeepsOneQueueEach : Prop :=
  ∀ s t : State, OneQueueEach s → step s = .next t → OneQueueEach t

/-- The live set stays below the strapped number of stations (R27), the straps valid outside STRAP_FAULT (R23), the pulling side IDLE
outside CATCHUP (R109), no posted position unconsidered (log 10), the window CLOSED and no direct order recorded in RETENTION
(R99, R179). -/
def Obligations.StepKeepsSound : Prop :=
  ∀ s t : State, Sound s → LiveSetWithinStations s → step s = .next t → Sound t ∧ LiveSetWithinStations t

/-- A free line entry holds all its fields at zero and every position FREE (R122). -/
def Obligations.StepKeepsFreeLinesZero : Prop :=
  ∀ s t : State, FreeLinesZero s → step s = .next t → FreeLinesZero t

/-- What stands on the bus as the queue's candidate is an entry of the queue (R4, R14), and no posting note stands at a place in wire
order still to come (R124). -/
def Obligations.StepKeepsReferences : Prop :=
  (∀ s t : State, CandidateQueued s → step s = .next t → CandidateQueued t)
  ∧ ∀ s t : State, NotesPlaced s → step s = .next t → NotesPlaced t
end

