-- ==== Sys2Proof/Laws/Frame.lean ====
section
/-! SUPPORT. How frame conditions (`SameBut`) compose, what they give for whole blocks, and the frame of every operation on the
transmit queue. -/

namespace Sys2Proof.Machine

/-! ## Composing frames -/

theorem Part.same_rfl (p : Part) (s : State) : p.same s s := by
  cases p <;> first | rfl | exact ⟨rfl, rfl⟩ | exact ⟨rfl, rfl, rfl⟩

theorem Part.same_trans {p : Part} {s t u : State} (a : p.same s t) (b : p.same t u) : p.same s u := by
  cases p <;> first
    | exact Eq.trans b a
    | exact ⟨b.1.trans a.1, b.2.trans a.2⟩
    | exact ⟨b.1.trans a.1, b.2.1.trans a.2.1, b.2.2.trans a.2.2⟩

theorem SameBut.refl (c : List Part) (s : State) : SameBut c s s := fun p _ => p.same_rfl s

theorem SameBut.trans {c : List Part} {s t u : State} (a : SameBut c s t) (b : SameBut c t u) : SameBut c s u :=
  fun p hp => Part.same_trans (a p hp) (b p hp)

/-- A frame that lets more parts change. -/
theorem SameBut.mono {c d : List Part} {s t : State} (a : SameBut c s t) (h : ∀ p, p ∈ c → p ∈ d) : SameBut d s t :=
  fun p hp => a p (fun m => hp (h p m))

/-- Two operations one after the other. -/
theorem SameBut.comp {c d e : List Part} {s t u : State} (a : SameBut c s t) (b : SameBut d t u)
    (hc : ∀ p, p ∈ c → p ∈ e) (hd : ∀ p, p ∈ d → p ∈ e) : SameBut e s u :=
  (a.mono hc).trans (b.mono hd)

theorem SameBut.ite {c : List Part} {s t u : State} {q : Prop} [Decidable q] (a : SameBut c s t) (b : SameBut c s u) :
    SameBut c s (if q then t else u) := by
  split
  · exact a
  · exact b

/-- A run of operations with one frame. -/
theorem SameBut.foldl {α : Type} {c : List Part} {f : State → α → State} (hf : ∀ s x, SameBut c s (f s x)) (l : List α)
    (s : State) : SameBut c s (l.foldl f s) := by
  induction l generalizing s with
  | nil => exact SameBut.refl c s
  | cons x l ih =>
    rw [List.foldl_cons]
    exact (hf s x).trans (ih _)

/-- An operation and a run of operations after it. -/
theorem SameBut.thenFoldl {α : Type} {c d e : List Part} {f : State → α → State} {s u : State} (l : List α)
    (a : SameBut c s u) (hf : ∀ s x, SameBut d s (f s x)) (hc : ∀ p, p ∈ c → p ∈ e) (hd : ∀ p, p ∈ d → p ∈ e) :
    SameBut e s (l.foldl f u) :=
  a.comp (SameBut.foldl hf l u) hc hd

/-! ## Whole blocks -/

theorem SameBut.memb {c : List Part} {s t : State} (h : SameBut c s t)
    (hc : ∀ p ∈ [Part.station, .live, .peers, .heard, .windowOpen, .watches, .leaving, .yieldMark, .retainedZeroised,
      .presenceLoading], p ∉ c) : t.memb = s.memb := by
  have h1 := h .station (hc _ (by decide))
  have h2 := h .live (hc _ (by decide))
  have h3 := h .peers (hc _ (by decide))
  have h4 := h .heard (hc _ (by decide))
  have h5 := h .windowOpen (hc _ (by decide))
  have h6 := h .watches (hc _ (by decide))
  have h7 := h .leaving (hc _ (by decide))
  have h8 := h .yieldMark (hc _ (by decide))
  have h9 := h .retainedZeroised (hc _ (by decide))
  have h10 := h .presenceLoading (hc _ (by decide))
  simp only [Part.same] at h1 h2 h3 h4 h5 h6 h7 h8 h9 h10
  cases hs : s.memb; cases ht : t.memb
  simp_all

theorem SameBut.dir {c : List Part} {s t : State} (h : SameBut c s t)
    (hc : ∀ p ∈ [Part.slots, .usage, .seq, .cabinetKey], p ∉ c) : t.dir = s.dir := by
  have h1 := h .slots (hc _ (by decide))
  have h2 := h .usage (hc _ (by decide))
  have h3 := h .seq (hc _ (by decide))
  have h4 := h .cabinetKey (hc _ (by decide))
  simp only [Part.same] at h1 h2 h3 h4
  cases hs : s.dir; cases ht : t.dir
  simp_all

theorem SameBut.catchUp {c : List Part} {s t : State} (h : SameBut c s t)
    (hc : ∀ p ∈ [Part.pulling, .attempts, .serve], p ∉ c) : t.catchUp = s.catchUp := by
  have h1 := h .pulling (hc _ (by decide))
  have h2 := h .attempts (hc _ (by decide))
  have h3 := h .serve (hc _ (by decide))
  simp only [Part.same] at h1 h2 h3
  cases hs : s.catchUp; cases ht : t.catchUp
  simp_all

theorem SameBut.tamper {c : List Part} {s t : State} (h : SameBut c s t)
    (hc : ∀ p ∈ [Part.channels, .maintenance, .causeRecord, .retentionTrip, .storeValid], p ∉ c) : t.tamper = s.tamper := by
  have h1 := h .channels (hc _ (by decide))
  have h2 := h .maintenance (hc _ (by decide))
  have h3 := h .causeRecord (hc _ (by decide))
  have h4 := h .retentionTrip (hc _ (by decide))
  have h5 := h .storeValid (hc _ (by decide))
  simp only [Part.same] at h1 h2 h3 h4 h5
  cases hs : s.tamper; cases ht : t.tamper
  simp_all

theorem SameBut.rounds {c : List Part} {s t : State} (h : SameBut c s t)
    (hc : ∀ p ∈ [Part.custodyQueue, .ownRound, .roundCounter, .roundList], p ∉ c) : t.rounds = s.rounds := by
  have h1 := h .custodyQueue (hc _ (by decide))
  have h2 := h .ownRound (hc _ (by decide))
  have h3 := h .roundCounter (hc _ (by decide))
  have h4 := h .roundList (hc _ (by decide))
  simp only [Part.same] at h1 h2 h3 h4
  cases hs : s.rounds; cases ht : t.rounds
  simp_all

theorem SameBut.cust {c : List Part} {s t : State} (h : SameBut c s t)
    (hc : ∀ p ∈ [Part.areas, .record], p ∉ c) : t.cust = s.cust := by
  have h1 := h .areas (hc _ (by decide))
  have h2 := h .record (hc _ (by decide))
  simp only [Part.same] at h1 h2
  cases hs : s.cust; cases ht : t.cust
  simp_all

theorem SameBut.lines {c : List Part} {s t : State} (h : SameBut c s t)
    (hc : ∀ p ∈ [Part.entries, .locals, .gatewayWatches, .notice], p ∉ c) : t.lines = s.lines := by
  have h1 := h .entries (hc _ (by decide))
  have h2 := h .locals (hc _ (by decide))
  have h3 := h .gatewayWatches (hc _ (by decide))
  have h4 := h .notice (hc _ (by decide))
  simp only [Part.same] at h1 h2 h3 h4
  cases hs : s.lines; cases ht : t.lines
  simp_all

/-! ## The transmit queue (R14 to R19) -/

/-- What an admission may change: the queue, a segment's phase (R167), the query queue (R188). -/
def admitting : List Part := [.txQueue, .segments, .queries]

/-- A link that differs in its queue, its admissions and its next age only. -/
theorem queueUpdate_sameBut (s : State) (q : List TxEntry) (a : List TxFrame) (n : Nat) :
    SameBut [.txQueue] s { s with link := { s.link with queue := q, admissions := a, nextAge := n } } := by
  intro p hp
  cases p <;> first | rfl | exact ⟨rfl, rfl⟩ | exact absurd (by decide) hp

theorem placeFrame_sameBut (f : TxFrame) (s : State) : SameBut admitting s (placeFrame f s) := by
  unfold placeFrame
  split
  all_goals (intro p hp; cases p <;> first | rfl | exact ⟨rfl, rfl⟩ | exact absurd (by decide) hp)

theorem queueUpdate_admitting (s : State) (q : List TxEntry) (a : List TxFrame) (n : Nat) :
    SameBut admitting s { s with link := { s.link with queue := q, admissions := a, nextAge := n } } :=
  (queueUpdate_sameBut s q a n).mono (by decide)

/-- A request changes the queue and the pending admissions, a segment's phase, the query queue; nothing else. -/
theorem request_sameBut (f : TxFrame) (s : State) : SameBut admitting s (request f s) := by
  unfold request
  split
  · exact placeFrame_sameBut f s
  · exact queueUpdate_admitting s _ _ _

theorem fillLoop_sameBut (k : Nat) (s : State) : SameBut admitting s (fillLoop k s) := by
  induction k generalizing s with
  | zero => exact SameBut.refl _ s
  | succ k ih =>
    unfold fillLoop
    split
    · exact SameBut.refl _ s
    · split
      · exact SameBut.refl _ s
      · exact ((queueUpdate_admitting s _ _ _).trans (placeFrame_sameBut _ _)).trans (ih _)

theorem fillQueue_sameBut (s : State) : SameBut admitting s (fillQueue s) := fillLoop_sameBut _ s

/-- A withdrawal with the admissions that follow it. -/
theorem retract_sameBut (p : TxFrame → Bool) (s : State) : SameBut admitting s (retract p s) :=
  (queueUpdate_admitting s _ _ _).trans (fillQueue_sameBut _)

theorem dropPending_sameBut (p : TxFrame → Bool) (s : State) : SameBut admitting s (dropPending p s) :=
  queueUpdate_admitting s _ _ _

theorem dropPendingQuery_sameBut (s : State) : SameBut admitting s (dropPendingQuery s) := by
  unfold dropPendingQuery
  split
  · intro p hp
    cases p <;> first | rfl | exact ⟨rfl, rfl⟩ | exact ⟨rfl, rfl, rfl⟩ | exact absurd (by decide) hp
  · exact SameBut.refl _ s

theorem purge_sameBut (s : State) : SameBut admitting s (purge s) :=
  (dropPendingQuery_sameBut s).trans (queueUpdate_admitting _ _ _ _)

theorem emptyQueue_sameBut (s : State) : SameBut admitting s (emptyQueue s) :=
  (dropPendingQuery_sameBut s).trans (queueUpdate_admitting _ _ _ _)

end Sys2Proof.Machine
end

