-- ==== Sys2Proof/Laws/Tables.lean ====
section
/-! SUPPORT. Reading a table after a write, and sets of station nodes after a node joins or leaves, and the fold of the two checks over bytes. -/

namespace Sys2Proof.Machine

theorem tget_tset {α : Type} {n : Nat} (t : Vector α n) (i j : Fin n) (x : α) :
    tget (tset t i x) j = if j = i then x else tget t j := by
  unfold tget tset
  by_cases h : j = i
  · subst h; simp
  · have h' : i.val ≠ j.val := fun e => h (Fin.ext e.symm)
    simp [h, Vector.getElem_set_ne, h']

@[simp] theorem tget_tset_self {α : Type} {n : Nat} (t : Vector α n) (i : Fin n) (x : α) : tget (tset t i x) i = x := by
  simp [tget_tset]

theorem tget_tset_of_ne {α : Type} {n : Nat} (t : Vector α n) {i j : Fin n} (x : α) (h : j ≠ i) :
    tget (tset t i x) j = tget t j := by
  simp [tget_tset, h]

theorem tget_tmod {α : Type} {n : Nat} (t : Vector α n) (i j : Fin n) (f : α → α) :
    tget (tmod t i f) j = if j = i then f (tget t i) else tget t j := tget_tset t i j _

@[simp] theorem tget_tmod_self {α : Type} {n : Nat} (t : Vector α n) (i : Fin n) (f : α → α) :
    tget (tmod t i f) i = f (tget t i) := by
  simp [tget_tmod]

@[simp] theorem tget_replicate {α : Type} {n : Nat} (x : α) (i : Fin n) : tget (Vector.replicate n x) i = x := by
  simp [tget]

@[simp] theorem tget_tmap {α β : Type} {n : Nat} (f : α → β) (t : Vector α n) (i : Fin n) :
    tget (tmap f t) i = f (tget t i) := by
  simp [tget, tmap]

@[simp] theorem tget_tableOf {α : Type} {n : Nat} (f : Nat → α) (i : Fin n) : tget (tableOf n f) i = f i.val := by
  simp [tget, tableOf]

/-- Two tables that read alike everywhere are equal. -/
theorem table_ext {α : Type} {n : Nat} {t u : Vector α n} (h : ∀ i : Fin n, tget t i = tget u i) : t = u := by
  ext i hi
  exact h ⟨i, hi⟩

theorem tget_mem_toList {α : Type} {n : Nat} (t : Vector α n) (i : Fin n) : tget t i ∈ t.toList := by
  simp [tget]

theorem mem_toList_iff {α : Type} {n : Nat} (t : Vector α n) (x : α) : x ∈ t.toList ↔ ∃ i : Fin n, tget t i = x := by
  constructor
  · intro h
    obtain ⟨i, hi, rfl⟩ := List.getElem_of_mem h
    exact ⟨⟨i, by simpa using hi⟩, by simp [tget]⟩
  · rintro ⟨i, rfl⟩
    exact tget_mem_toList t i

/-! ## Sets of station nodes -/

theorem setHas_setAdd (s : StationSet) (k j : Nat) (hk : k < 8) : setHas (setAdd s k) j = (setHas s j || j == k) := by
  unfold setHas setAdd
  by_cases h : j = k
  · subst h; simp [hk]
  · have h' : k ≠ j := fun e => h e.symm
    simp [BitVec.getLsbD_twoPow, h, h']

theorem setHas_setDel (s : StationSet) (k j : Nat) (hk : k < 8) : setHas (setDel s k) j = (setHas s j && j != k) := by
  unfold setHas setDel
  by_cases h : j = k
  · subst h; simp [hk]
  · by_cases hj : j < 8
    · simp [h, hj]
    · simp [BitVec.getLsbD_of_ge s j (by omega)]

theorem foldForced_eq_foldl {w : Nat} (f : BitVec w → Byte → BitVec w) (c : BitVec w) (l : List Byte) :
    foldForced f c l = l.foldl f c := by
  induction l generalizing c with
  | nil => rfl
  | cons b rest ih =>
    have h := BitVec.ofNat_toNat w (f c b)
    rw [BitVec.setWidth_eq] at h
    unfold foldForced
    split <;> rename_i hn <;> rw [hn] at h <;> rw [h, ih] <;> rfl

end Sys2Proof.Machine
end

