-- ==== Sys2Proof/Laws/Reaction.lean ====
section
/-! SUPPORT. What the reactions at the end of a step (`settle`) may change, and what the receive filter does to a frame that reaches
its block, that is misplaced, that comes from a non-member, or that is passed over. -/

namespace Sys2Proof.Machine

/-! ## The pool's part -/

theorem withPool_sameBut (s : State) (p : Pool) : SameBut [.pool] s (withPool s p) := by
  intro q hq
  cases q <;> first | rfl | exact ⟨rfl, rfl⟩ | exact ⟨rfl, rfl, rfl⟩ | exact absurd (by decide) hq

theorem modDesc_sameBut (s : State) (d : DescId) (f : Descriptor → Descriptor) : SameBut [.pool] s (modDesc s d f) :=
  withPool_sameBut s _

theorem giveNotice_sameBut (s : State) : SameBut [.notice] s (giveNotice s) := by
  intro q hq
  cases q <;> first | rfl | exact ⟨rfl, rfl⟩ | exact ⟨rfl, rfl, rfl⟩ | exact absurd (by decide) hq

theorem openRoundNotice_sameBut (b s : State) : SameBut [.notice] s (openRoundNotice b s) := by
  unfold openRoundNotice
  split
  · exact giveNotice_sameBut s
  · exact SameBut.refl _ s

theorem resourcesFreed_sameBut (s : State) : SameBut [.pool, .notice] s (resourcesFreed s) := by
  unfold resourcesFreed
  split
  · intro q hq
    cases q <;> first | rfl | exact ⟨rfl, rfl⟩ | exact ⟨rfl, rfl, rfl⟩ | exact absurd (by decide) hq
  · exact SameBut.refl _ s

theorem releaseStorage_sameBut (s : State) (d : DescId) : SameBut [.pool] s (releaseStorage s d) :=
  (withPool_sameBut s _).trans (modDesc_sameBut _ d _)

theorem dropSegments_sameBut (s : State) (d : DescId) :
    SameBut [.segments] s { s with engine := { s.engine with segs := tset s.engine.segs d [] } } := by
  intro q hq
  cases q <;> first | rfl | exact ⟨rfl, rfl⟩ | exact ⟨rfl, rfl, rfl⟩ | exact absurd (by decide) hq

/-- What the return of a descriptor may change. -/
def returning : List Part := [.pool, .notice, .segments]

theorem freeDescriptor_sameBut (s : State) (d : DescId) : SameBut returning s (freeDescriptor s d) := by
  unfold freeDescriptor
  have h1 : SameBut [.pool] s (modDesc (releaseStorage s d) d fun _ => Descriptor.zero) :=
    (releaseStorage_sameBut s d).trans (modDesc_sameBut _ d _)
  dsimp only
  refine SameBut.comp (c := [.pool, .segments]) ?_ (resourcesFreed_sameBut _) (by decide) (by decide)
  refine SameBut.comp (c := [.pool]) ?_ (dropSegments_sameBut _ d) (by decide) (by decide)
  exact h1.trans (withPool_sameBut _ _)

theorem returnClaim_sameBut (pos : PosRef) (s : State) : SameBut returning s (returnClaim pos s) := by
  unfold returnClaim
  dsimp only
  split
  · exact (giveNotice_sameBut s).mono (by decide)
  · exact (giveNotice_sameBut s).comp (freeDescriptor_sameBut _ _) (by decide) (by decide)

theorem returnClaims_sameBut (fs : List TxFrame) (s : State) : SameBut returning s (returnClaims fs s) := by
  unfold returnClaims
  refine SameBut.foldl ?_ fs s
  intro s x
  split
  · exact returnClaim_sameBut _ s
  · exact SameBut.refl _ s

/-- What a change of the own settlement frames may change. -/
def claiming : List Part := [.txQueue, .segments, .queries, .pool, .notice]

theorem retractClaims_sameBut (p : TxFrame → Bool) (s : State) : SameBut claiming s (retractClaims p s) :=
  (retract_sameBut p s).comp (returnClaims_sameBut _ _) (by decide) (by decide)

theorem grantClaim_sameBut (pos : PosRef) (x : Position) (n : PostingNote) (s : State) :
    SameBut [.pool] s (grantClaim pos x n s).2 := by
  unfold grantClaim
  split
  · exact withPool_sameBut s _
  · split
    · exact (withPool_sameBut s _).trans (modDesc_sameBut _ _ _)
    · exact withPool_sameBut s _

/-! ## The line table's part -/

theorem considerPosition_sameBut (s : State) (l : LineId) (p : PosId) : SameBut claiming s (considerPosition s l p) := by
  have hq : ∀ x, x ∈ admitting → x ∈ claiming := by decide
  unfold considerPosition
  dsimp only
  split
  · exact SameBut.refl _ s
  · split
    · split
      · split
        · exact retractClaims_sameBut _ s
        · exact (retractClaims_sameBut _ s).trans ((request_sameBut _ _).mono hq)
      · exact (retractClaims_sameBut _ s).trans ((retract_sameBut _ _).mono hq)
    · split
      · exact (retract_sameBut _ s).mono hq
      · split
        · have h := grantClaim_sameBut (posRefOf (entryAt s l) p) (tget (entryAt s l).positions p) (by assumption)
            (retract (isDeclineFor (posRefOf (entryAt s l) p)) s)
          have h' := ((retract_sameBut (isDeclineFor (posRefOf (entryAt s l) p)) s).mono hq).trans (h.mono (by decide))
          split
          · rename_i e; rw [e] at h'
            exact h'.trans ((request_sameBut _ _).mono hq)
          · rename_i e; rw [e] at h'
            exact h'
        · exact (retract_sameBut _ s).mono hq

theorem clearNotice_sameBut (s : State) : SameBut [.notice] s { s with lines := { s.lines with notice := false } } := by
  intro q hq
  cases q <;> first | rfl | exact ⟨rfl, rfl⟩ | exact ⟨rfl, rfl, rfl⟩ | exact absurd (by decide) hq

theorem considerLoop_sameBut (k : Nat) (s : State) : SameBut claiming s (considerLoop k s) := by
  induction k generalizing s with
  | zero => exact (clearNotice_sameBut s).mono (by decide)
  | succ k ih =>
    rw [considerLoop]
    split
    · refine SameBut.trans ((clearNotice_sameBut s).mono (by decide)) (SameBut.trans ?_ (ih _))
      exact SameBut.foldl (f := fun s (x : Nat × LineId × PosId) => considerPosition s x.2.1 x.2.2)
        (fun s x => considerPosition_sameBut s x.2.1 x.2.2) _ _
    · exact SameBut.refl _ s

theorem considerPosted_sameBut (s : State) : SameBut claiming s (considerPosted s) := by
  unfold considerPosted
  split
  · exact considerLoop_sameBut _ s
  · exact (clearNotice_sameBut s).mono (by decide)

/-- No notice is left standing (log 10). -/
theorem considerLoop_notice (k : Nat) (s : State) : (considerLoop k s).lines.notice = false := by
  induction k generalizing s with
  | zero => rfl
  | succ k ih =>
    rw [considerLoop]
    split
    · exact ih _
    · simp_all

theorem considerPosted_notice (s : State) : (considerPosted s).lines.notice = false := by
  unfold considerPosted
  split
  · exact considerLoop_notice _ s
  · rfl

/-- With no notice standing no posted position is considered. -/
theorem considerPosted_quiet {s : State} (h : s.lines.notice = false) : considerPosted s = s := by
  have e : { s with lines := { s.lines with notice := false } } = s := by
    cases s with
    | mk inputs straps link memb dir rounds cust catchUp lines pool engine tamper rep wirePlace freeIndex pending =>
      cases lines
      simp_all
  unfold considerPosted
  split
  · rw [considerLoop]
    simp [h]
  · exact e

/-! ## The custody queue's part -/

theorem setOwn_sameBut (s : State) (o : OwnRound) : SameBut [.ownRound] s (setOwn s o) := by
  intro q hq
  cases q <;> first | rfl | exact ⟨rfl, rfl⟩ | exact ⟨rfl, rfl, rfl⟩ | exact absurd (by decide) hq

/-- What the custody queue's work may change. -/
def proposing : List Part := [.txQueue, .segments, .queries, .custodyQueue, .ownRound, .roundCounter, .areas]

theorem queueAndOwn_sameBut (s : State) (q : List CustodyItem) (o : OwnRound) (c : Byte) :
    SameBut [.custodyQueue, .ownRound, .roundCounter] s
      { s with rounds := { s.rounds with queue := q, own := o, counter := c } } := by
  intro q hq
  cases q <;> first | rfl | exact ⟨rfl, rfl⟩ | exact ⟨rfl, rfl, rfl⟩ | exact absurd (by decide) hq

theorem areas_sameBut (s : State) (a : Vector (Option Area) 2) :
    SameBut [.areas] s { s with cust := { s.cust with areas := a } } := by
  intro q hq
  cases q <;> first | rfl | exact ⟨rfl, rfl⟩ | exact ⟨rfl, rfl, rfl⟩ | exact absurd (by decide) hq

theorem freeQueuedArea_sameBut (item : CustodyItem) (s : State) : SameBut [.areas] s (freeQueuedArea item s) := by
  unfold freeQueuedArea
  split
  · exact areas_sameBut s _
  · exact SameBut.refl _ s

/-- What the end of a custody item may change. -/
def ending : List Part := [.txQueue, .segments, .queries, .custodyQueue, .ownRound, .areas]

theorem endItem_sameBut (o : OrderOutcome) (detail : Byte) (v : Half) (q : Word) (s : State) :
    SameBut ending s (endItem o detail v q s) := by
  unfold endItem
  split
  · exact (setOwn_sameBut s _).mono (by decide)
  · rename_i item rest _
    dsimp only
    refine ((request_sameBut (outcomeReport item (ownRoundId s) o detail v q) s).mono (by decide)).trans ?_
    generalize request (outcomeReport item (ownRoundId s) o detail v q) s = t
    refine SameBut.comp (c := [.custodyQueue, .ownRound]) ?_ (freeQueuedArea_sameBut item _) (by decide) (by decide)
    intro q hq
    cases q <;> first | rfl | exact ⟨rfl, rfl⟩ | exact ⟨rfl, rfl, rfl⟩ | exact absurd (by decide) hq

theorem addItem_sameBut (x : CustodyItem) (s : State) : SameBut [.custodyQueue, .ownRound] s (addItem x s) := by
  intro q hq
  cases q <;> first | rfl | exact ⟨rfl, rfl⟩ | exact ⟨rfl, rfl, rfl⟩ | exact absurd (by decide) hq

theorem takeRoom_sameBut (s : State) : SameBut proposing s (takeRoom s) := by
  unfold takeRoom
  split
  · split
    · exact SameBut.refl _ s
    · exact (areas_sameBut s _).comp (addItem_sameBut _ _) (by decide) (by decide)
  · exact SameBut.refl _ s

theorem proposeItem_sameBut (x : CustodyItem) (s : State) : SameBut proposing s (proposeItem x s) := by
  unfold proposeItem
  refine SameBut.comp (c := [.ownRound, .roundCounter]) ?_ (request_sameBut _ _) (by decide) (by decide)
  intro q hq
  cases q <;> first | rfl | exact ⟨rfl, rfl⟩ | exact ⟨rfl, rfl, rfl⟩ | exact absurd (by decide) hq

theorem admissionCheck_sameBut (s : State) : SameBut proposing s (admissionCheck s) := by
  unfold admissionCheck
  split
  · split
    · split
      · exact (endItem_sameBut _ _ _ _ s).mono (by decide)
      · exact proposeItem_sameBut _ s
    · exact SameBut.refl _ s
  · exact SameBut.refl _ s

theorem custodyLoop_sameBut (k : Nat) (s : State) : SameBut proposing s (custodyLoop k s) := by
  induction k generalizing s with
  | zero => exact SameBut.refl _ s
  | succ k ih =>
    exact (((takeRoom_sameBut s).trans (takeRoom_sameBut _)).trans (admissionCheck_sameBut _)).trans (ih _)

theorem custodyWork_sameBut (s : State) : SameBut proposing s (custodyWork s) := custodyLoop_sameBut 8 s

/-- With no area COMPLETE and no head item to check the custody queue stays as it is. -/
theorem custodyWork_quiet {s : State} (ha : firstComplete s.cust = none)
    (ho : s.rounds.own.phase ≠ .held ∨ s.rounds.queue = [] ∨ serving s = false) : custodyWork s = s := by
  have hr : takeRoom s = s := by
    unfold takeRoom
    split
    · rw [ha]
    · rfl
  have hc : admissionCheck s = s := by
    unfold admissionCheck
    split
    · rename_i x rest h1 h2
      rcases ho with h | h | h
      · exact absurd h1 h
      · rw [h] at h2; cases h2
      · simp [h]
    · rfl
  have h : ∀ k, custodyLoop k s = s := by
    intro k
    induction k with
    | zero => rfl
    | succ k ih => rw [custodyLoop, hr, hr, hc, ih]
  exact h 8

/-! ## The report unit's part, and the end of a step -/

theorem serveQueriesLoop_sameBut (k : Nat) (s : State) : SameBut admitting s (serveQueriesLoop k s) := by
  induction k generalizing s with
  | zero => exact SameBut.refl _ s
  | succ k ih =>
    unfold serveQueriesLoop
    split
    · exact SameBut.refl _ s
    · split
      · exact SameBut.refl _ s
      · split
        · exact (request_sameBut _ s).trans (ih _)
        · refine SameBut.trans ?_ (ih _)
          intro q hq
          cases q <;> first | rfl | exact ⟨rfl, rfl⟩ | exact ⟨rfl, rfl, rfl⟩ | exact absurd (by decide) hq

theorem serveQueries_sameBut (s : State) : SameBut admitting s (serveQueries s) := serveQueriesLoop_sameBut _ s

theorem serveQueries_quiet {s : State} (h : s.rep.queries = []) : serveQueries s = s := by
  unfold serveQueries serveQueriesLoop
  rw [h]

/-- The end of a step changes the transmit queue, the pool's claims, the custody queue with the own round, the areas that take
room, and the query queue: everything else stays. -/
theorem settle_sameBut (s : State) : SameBut reacting s (settle s) :=
  (((custodyWork_sameBut s).mono (by decide)).trans ((considerPosted_sameBut _).mono (by decide))).trans
    ((serveQueries_sameBut _).mono (by decide))

theorem settle_notice (s : State) : (settle s).lines.notice = false := by
  have h := serveQueries_sameBut (considerPosted (custodyWork s)) .notice (by decide)
  simp only [Part.same] at h
  rw [settle, h, considerPosted_notice]

/-- With nothing waiting the end of a step changes nothing. -/
theorem settle_quiet {s : State} (ha : firstComplete s.cust = none)
    (ho : s.rounds.own.phase ≠ .held ∨ s.rounds.queue = [] ∨ serving s = false) (hn : s.lines.notice = false)
    (hq : s.rep.queries = []) : settle s = s := by
  rw [settle, custodyWork_quiet ha ho, considerPosted_quiet hn, serveQueries_quiet hq]

/-! ## The receive filter -/

theorem receivedIntact_sameBut (s : State) : SameBut [.slotDriven, .wirePlace] s (receivedIntact s) := by
  intro q hq
  cases q <;> first | rfl | exact ⟨rfl, rfl⟩ | exact ⟨rfl, rfl, rfl⟩ | exact absurd (by decide) hq

theorem slotUndriven_sameBut (s : State) : SameBut [.slotDriven] s (slotUndriven s) := by
  intro q hq
  cases q <;> first | rfl | exact ⟨rfl, rfl⟩ | exact ⟨rfl, rfl, rfl⟩ | exact absurd (by decide) hq

theorem setWatch_sameBut (s : State) (g : Node) (t : TimerState) : SameBut [.gatewayWatches] s (setWatch s g t) := by
  intro q hq
  cases q <;> first | rfl | exact ⟨rfl, rfl⟩ | exact ⟨rfl, rfl, rfl⟩ | exact absurd (by decide) hq

theorem gatewayHeard_sameBut (g : Node) (s : State) :
    SameBut [.gatewayWatches, .txQueue, .segments, .queries] s (gatewayHeard g s) :=
  (setWatch_sameBut s g .running).comp (retract_sameBut _ _) (by decide) (by decide)

theorem noteGateway_sameBut (h : Header) (s : State) :
    SameBut [.gatewayWatches, .txQueue, .segments, .queries] s (noteGateway h s) := by
  unfold noteGateway
  split
  · exact gatewayHeard_sameBut _ s
  · exact SameBut.refl _ s

/-- A frame of a station leaves the gateway watches as they are. -/
theorem noteGateway_station {h : Header} {s : State} (hs : roleOf (stationCount s) h.src = .station) : noteGateway h s = s := by
  unfold noteGateway
  simp [hs]

/-- The state in which the owning block finds a frame that reaches it. -/
def arrived (h : Header) (s : State) : State := noteGateway h (receivedIntact s)

/-- What a frame's arrival may change. -/
def arriving : List Part := [.slotDriven, .wirePlace, .gatewayWatches, .txQueue, .segments, .queries]

theorem arrived_sameBut (h : Header) (s : State) : SameBut arriving s (arrived h s) :=
  (receivedIntact_sameBut s).comp (noteGateway_sameBut h _) (by decide) (by decide)

theorem arrived_station {h : Header} {s : State} (hs : roleOf (stationCount s) h.src = .station) :
    arrived h s = receivedIntact s := noteGateway_station (s := receivedIntact s) hs

/-- A frame of a kind that stations send comes from a station when it is not misplaced (R1, R12). -/
theorem station_of_sent {f : Frame} {n : Nat} {h : Header} (hm : frameMisplaced f n h = false)
    (hf : ∀ r, frameSentBy f r = (r == .station)) : roleOf n h.src = .station := by
  unfold frameMisplaced at hm
  rw [hf] at hm
  simp at hm
  exact hm.1.1

theorem handOver_reaches {h : Header} {f : Frame} (g : State → State) {s : State} (hr : Reaches s h f) :
    handOver h f g (receivedIntact s) = g (arrived h s) := by
  obtain ⟨-, -, h3, h4, h5⟩ := hr
  have e := arrived_sameBut h s
  have em : (arrived h s).memb = s.memb := e.memb (by decide)
  have es : (arrived h s).straps = s.straps := e .straps (by decide)
  have e3 : passesOver (arrived h s) h = false := by
    have : ownNode (arrived h s) = ownNode s := by simp only [ownNode, es]
    unfold passesOver at h3 ⊢
    rw [this]; exact h3
  have e4 : failsMembership (arrived h s) h f = false := by
    unfold failsMembership applies isLive inCatchup stationCount at h4 ⊢
    rw [em, es]; exact h4
  have e5 : actsOn (arrived h s).memb.state f = true := by rw [em]; exact h5
  unfold arrived at e3 e4 e5 ⊢
  unfold handOver
  simp [e3, e4, e5]

/-- A frame that reaches its block: the block's part, then the end of the step. -/
theorem receive_reaches {h : Header} {f : Frame} (g : State → State) {s : State} (hr : Reaches s h f) :
    receive h f g s = settle (g (arrived h s)) := by
  have h1 := hr.1
  have h2 := hr.2.1
  unfold receive filterFrame
  rw [if_pos h1, h2, handOver_reaches g hr]
  rfl

/-- A frame whose role, addressing or length does not fit is counted and ignored (R12). -/
theorem receive_misplaced {h : Header} {f : Frame} (g : State → State) {s : State} (h1 : onLink s = true)
    (h2 : frameMisplaced f (stationCount s) h = true) : receive h f g s = settle (countMisplaced (receivedIntact s)) := by
  unfold receive filterFrame
  rw [if_pos h1, if_pos h2]

/-- A station frame from outside the live set that acts on the cabinet state is counted and ignored (R13). -/
theorem receive_nonMember {h : Header} {f : Frame} (g : State → State) {s : State} (h1 : onLink s = true)
    (h2 : frameMisplaced f (stationCount s) h = false) (h3 : passesOver s h = false) (h4 : failsMembership s h f = true) :
    receive h f g s = settle (countNonMember (receivedIntact s)) := by
  have hs : roleOf (stationCount s) h.src = .station := by
    unfold failsMembership at h4
    simp at h4
    exact h4.1.1.2
  have e4 : failsMembership (receivedIntact s) h f = true := h4
  have e3 : passesOver (receivedIntact s) h = false := h3
  have en : noteGateway h (receivedIntact s) = receivedIntact s := noteGateway_station hs
  unfold receive filterFrame handOver
  rw [if_pos h1, h2]
  simp only [en, e3, e4]
  rfl

/-- A station off the link takes no frame, and its slot is undriven (R1, R7). -/
theorem receive_offLink {h : Header} {f : Frame} (g : State → State) {s : State} (h1 : onLink s = false) :
    receive h f g s = settle (slotUndriven s) := by
  unfold receive filterFrame
  rw [h1]
  rfl

end Sys2Proof.Machine
end

