-- ==== Sys2Proof/Laws/Queue.lean ====
section
/-! SUPPORT. A frame that a producer has asked for stays queued or pending until it is sent, withdrawn or purged: through requests,
admissions, withdrawals of other frames, and the end of a step. -/

namespace Sys2Proof.Machine

/-- A property of frames that no ANSWER has. An ANSWER's body is formed at its admission (R168); every other frame stays as it was
asked for. -/
def NoAnswer (p : TxFrame → Bool) : Prop := ∀ j g n b, p (.answer j g n b) = false

/-- Two properties no frame has together. -/
def Apart (p q : TxFrame → Bool) : Prop := ∀ f, p f = true → q f = false

theorem hasFrame_iff (s : State) (p : TxFrame → Bool) :
    hasFrame s p = true ↔ (∃ f ∈ s.link.admissions, p f = true) ∨ ∃ e ∈ s.link.queue, p e.frame = true := by
  unfold hasFrame
  simp [List.any_eq_true]

theorem hasFrame_of_link {s t : State} (h : t.link = s.link) (p : TxFrame → Bool) : hasFrame t p = hasFrame s p := by
  unfold hasFrame; rw [h]

theorem placeFrame_admissions (f : TxFrame) (s : State) : (placeFrame f s).link.admissions = s.link.admissions := by
  unfold placeFrame
  split <;> rfl

theorem placeFrame_queue (f : TxFrame) (s : State) :
    ∃ f' : TxFrame, (placeFrame f s).link.queue = s.link.queue ++ [⟨s.link.nextAge, f', .none⟩]
      ∧ (f' = f ∨ ∃ j g n b b', f = .answer j g n b ∧ f' = .answer j g n b') := by
  unfold placeFrame
  split
  · exact ⟨_, rfl, .inr ⟨_, _, _, _, _, rfl, rfl⟩⟩
  · exact ⟨_, rfl, .inl rfl⟩
  · exact ⟨_, rfl, .inl rfl⟩

theorem hasFrame_placeFrame {p : TxFrame → Bool} (f : TxFrame) {s : State} (h : hasFrame s p = true) :
    hasFrame (placeFrame f s) p = true := by
  obtain ⟨f', hq, -⟩ := placeFrame_queue f s
  rw [hasFrame_iff] at h ⊢
  rw [placeFrame_admissions, hq]
  rcases h with h | ⟨e, he, hp⟩
  · exact .inl h
  · exact .inr ⟨e, List.mem_append_left _ he, hp⟩

theorem hasFrame_placed {p : TxFrame → Bool} (hp : NoAnswer p) {f : TxFrame} (s : State) (h : p f = true) :
    hasFrame (placeFrame f s) p = true := by
  obtain ⟨f', hq, hf⟩ := placeFrame_queue f s
  rw [hasFrame_iff, hq]
  refine .inr ⟨⟨s.link.nextAge, f', .none⟩, by simp, ?_⟩
  rcases hf with rfl | ⟨j, g, n, b, b', rfl, rfl⟩
  · exact h
  · rw [hp] at h; cases h

theorem hasFrame_request {p : TxFrame → Bool} (f : TxFrame) {s : State} (h : hasFrame s p = true) :
    hasFrame (request f s) p = true := by
  unfold request
  split
  · exact hasFrame_placeFrame f h
  · rw [hasFrame_iff] at h ⊢
    rcases h with ⟨x, hx, hp⟩ | h
    · exact .inl ⟨x, List.mem_append_left _ hx, hp⟩
    · exact .inr h

/-- A frame asked for is queued or pending (R15). -/
theorem hasFrame_requested {p : TxFrame → Bool} (hp : NoAnswer p) {f : TxFrame} (s : State) (h : p f = true) :
    hasFrame (request f s) p = true := by
  unfold request
  split
  · exact hasFrame_placed hp s h
  · rw [hasFrame_iff]
    exact .inl ⟨f, by simp, h⟩

theorem hasFrame_fillLoop {p : TxFrame → Bool} (hp : NoAnswer p) (k : Nat) {s : State} (h : hasFrame s p = true) :
    hasFrame (fillLoop k s) p = true := by
  induction k generalizing s with
  | zero => exact h
  | succ k ih =>
    unfold fillLoop
    split
    · exact h
    · rename_i i hi
      split
      · exact h
      · rename_i f hf
        apply ih
        rw [hasFrame_iff] at h
        rcases h with ⟨x, hx, hpx⟩ | ⟨e, he, hpe⟩
        · obtain ⟨j, hj, rfl⟩ := List.getElem_of_mem hx
          by_cases hij : j = i
          · subst hij
            have : s.link.admissions[j] = f := by
              rw [List.getElem?_eq_getElem hj] at hf
              exact Option.some.inj hf
            rw [this] at hpx
            exact hasFrame_placed hp _ hpx
          · apply hasFrame_placeFrame
            rw [hasFrame_iff]
            exact .inl ⟨_, List.mem_eraseIdx_iff_getElem.mpr ⟨j, hj, hij, rfl⟩, hpx⟩
        · apply hasFrame_placeFrame
          rw [hasFrame_iff]
          exact .inr ⟨e, he, hpe⟩

theorem hasFrame_fillQueue {p : TxFrame → Bool} (hp : NoAnswer p) {s : State} (h : hasFrame s p = true) :
    hasFrame (fillQueue s) p = true := hasFrame_fillLoop hp _ h

theorem holdEntry_frame (l : Link) (q : TxFrame → Bool) (h : Hold) (e : TxEntry) : (holdEntry l q h e).frame = e.frame := by
  unfold holdEntry
  split <;> rfl

/-- A withdrawal of other frames leaves a frame where it is (R18). -/
theorem hasFrame_retract {p q : TxFrame → Bool} (hp : NoAnswer p) (hd : Apart p q) {s : State} (h : hasFrame s p = true) :
    hasFrame (retract q s) p = true := by
  unfold retract
  apply hasFrame_fillQueue hp
  rw [hasFrame_iff] at h ⊢
  unfold withdrawLink
  rcases h with ⟨x, hx, hpx⟩ | ⟨e, he, hpe⟩
  · exact .inl ⟨x, List.mem_filter.mpr ⟨hx, by simp [hd x hpx]⟩, hpx⟩
  · refine .inr ⟨holdEntry s.link q .withdraw e, List.mem_map_of_mem (List.mem_filter.mpr ⟨he, by simp [hd _ hpe]⟩), ?_⟩
    rw [holdEntry_frame]; exact hpe

/-! ## Operations that do not touch the link -/

theorem freeDescriptor_link (s : State) (d : DescId) : (freeDescriptor s d).link = s.link := by
  unfold freeDescriptor resourcesFreed
  dsimp only
  split <;> rfl

theorem returnClaim_link (pos : PosRef) (s : State) : (returnClaim pos s).link = s.link := by
  unfold returnClaim
  dsimp only
  split
  · rfl
  · rw [freeDescriptor_link]

theorem returnClaims_link (fs : List TxFrame) (s : State) : (returnClaims fs s).link = s.link := by
  unfold returnClaims
  induction fs generalizing s with
  | nil => rfl
  | cons f fs ih =>
    rw [List.foldl_cons, ih]
    split
    · exact returnClaim_link _ s
    · rfl

theorem grantClaim_link (pos : PosRef) (x : Position) (n : PostingNote) (s : State) : (grantClaim pos x n s).2.link = s.link := by
  unfold grantClaim
  split
  · rfl
  · split <;> rfl

theorem hasFrame_retractClaims {p q : TxFrame → Bool} (hp : NoAnswer p) (hd : Apart p q) {s : State} (h : hasFrame s p = true) :
    hasFrame (retractClaims q s) p = true := by
  unfold retractClaims
  rw [hasFrame_of_link (returnClaims_link _ _)]
  exact hasFrame_retract hp hd h

/-! ## The end of a step -/

/-- A property of frames that no CLAIM, DECLINE or ANSWER has: those are the frames the end of a step may withdraw or form. -/
def Lasting (p : TxFrame → Bool) : Prop := NoAnswer p ∧ (∀ b, p (.claim b) = false) ∧ ∀ pos r, p (.decline pos r) = false

theorem Lasting.apartClaim {p : TxFrame → Bool} (hp : Lasting p) (pos : PosRef) : Apart p (isClaimFor pos) := by
  intro f hf
  cases f <;> first | rfl | (rw [hp.2.1] at hf; cases hf)

theorem Lasting.apartDecline {p : TxFrame → Bool} (hp : Lasting p) (pos : PosRef) : Apart p (isDeclineFor pos) := by
  intro f hf
  cases f <;> first | rfl | (rw [hp.2.2] at hf; cases hf)

theorem hasFrame_considerPosition {p : TxFrame → Bool} (hp : Lasting p) {s : State} (l : LineId) (i : PosId)
    (h : hasFrame s p = true) : hasFrame (considerPosition s l i) p = true := by
  unfold considerPosition
  dsimp only
  split
  · exact h
  · split
    · have h1 := hasFrame_retractClaims hp.1 (hp.apartClaim (posRefOf (entryAt s l) i)) h
      split
      · split
        · exact h1
        · exact hasFrame_request _ h1
      · exact hasFrame_retract hp.1 (hp.apartDecline _) h1
    · have h1 := hasFrame_retract hp.1 (hp.apartDecline (posRefOf (entryAt s l) i)) h
      split
      · exact h1
      · split
        · have hg := grantClaim_link (posRefOf (entryAt s l) i) (tget (entryAt s l).positions i) (by assumption)
            (retract (isDeclineFor (posRefOf (entryAt s l) i)) s)
          split
          · rename_i e; rw [e] at hg
            exact hasFrame_request _ (by rw [hasFrame_of_link hg]; exact h1)
          · rename_i e; rw [e] at hg
            rw [hasFrame_of_link hg]; exact h1
        · exact h1

theorem hasFrame_considerPosted {p : TxFrame → Bool} (hp : Lasting p) {s : State} (h : hasFrame s p = true) :
    hasFrame (considerPosted s) p = true := by
  have hl : ∀ (l : List (Nat × LineId × PosId)) (s : State), hasFrame s p = true →
      hasFrame (l.foldl (fun s x => considerPosition s x.2.1 x.2.2) s) p = true := by
    intro l
    induction l with
    | nil => exact fun s h => h
    | cons x l ih =>
      intro s h
      rw [List.foldl_cons]
      exact ih _ (hasFrame_considerPosition hp _ _ h)
  have hk : ∀ k (s : State), hasFrame s p = true → hasFrame (considerLoop k s) p = true := by
    intro k
    induction k with
    | zero => exact fun s h => h
    | succ k ih =>
      intro s h
      rw [considerLoop]
      split
      · exact ih _ (hl _ _ h)
      · exact h
  unfold considerPosted
  split
  · exact hk _ _ h
  · exact h

theorem freeQueuedArea_link (item : CustodyItem) (s : State) : (freeQueuedArea item s).link = s.link := by
  unfold freeQueuedArea
  split <;> rfl

theorem hasFrame_endItem {p : TxFrame → Bool} (o : OrderOutcome) (detail : Byte) (v : Half) (q : Word) {s : State}
    (h : hasFrame s p = true) : hasFrame (endItem o detail v q s) p = true := by
  unfold endItem
  split
  · exact h
  · dsimp only
    rw [hasFrame_of_link (freeQueuedArea_link _ _)]
    exact hasFrame_request (p := p) _ h

theorem hasFrame_takeRoom {p : TxFrame → Bool} {s : State} (h : hasFrame s p = true) : hasFrame (takeRoom s) p = true := by
  unfold takeRoom
  split
  · split <;> exact h
  · exact h

theorem hasFrame_admissionCheck {p : TxFrame → Bool} {s : State} (h : hasFrame s p = true) :
    hasFrame (admissionCheck s) p = true := by
  unfold admissionCheck
  split
  · split
    · split
      · exact hasFrame_endItem _ _ _ _ h
      · exact hasFrame_request _ h
    · exact h
  · exact h

theorem hasFrame_custodyWork {p : TxFrame → Bool} {s : State} (h : hasFrame s p = true) : hasFrame (custodyWork s) p = true := by
  have hk : ∀ k (s : State), hasFrame s p = true → hasFrame (custodyLoop k s) p = true := by
    intro k
    induction k with
    | zero => exact fun s h => h
    | succ k ih => exact fun s h => ih _ (hasFrame_admissionCheck (hasFrame_takeRoom (hasFrame_takeRoom h)))
  exact hk 8 s h

theorem hasFrame_serveQueries {p : TxFrame → Bool} {s : State} (h : hasFrame s p = true) : hasFrame (serveQueries s) p = true := by
  have hk : ∀ k (s : State), hasFrame s p = true → hasFrame (serveQueriesLoop k s) p = true := by
    intro k
    induction k with
    | zero => exact fun s h => h
    | succ k ih =>
      intro s h
      unfold serveQueriesLoop
      split
      · exact h
      · split
        · exact h
        · split
          · exact ih _ (hasFrame_request _ h)
          · exact ih _ h
  exact hk _ s h

/-- A frame other than a CLAIM, a DECLINE or an ANSWER is still queued or pending at the end of the step. -/
theorem hasFrame_settle {p : TxFrame → Bool} (hp : Lasting p) {s : State} (h : hasFrame s p = true) :
    hasFrame (settle s) p = true :=
  hasFrame_serveQueries (hasFrame_considerPosted hp (hasFrame_custodyWork h))

/-- A frame asked for in a step's own part is queued or pending at its end. -/
theorem hasFrame_settled_request {p : TxFrame → Bool} (hp : Lasting p) {f : TxFrame} (s : State) (h : p f = true) :
    hasFrame (settle (request f s)) p = true :=
  hasFrame_settle hp (hasFrame_requested hp.1 s h)

end Sys2Proof.Machine
end

