-- ==== Sys2Proof/Laws/Engine.lean ====
section
/-! SUPPORT. The frame of every operation of the job pool and the derivation engine: what it may change. -/

namespace Sys2Proof.Machine

/-! ## Segments and ends -/

theorem setSegmentPhase_sameBut (s : State) (d : DescId) (n : Nat) (ph : SegPhase) :
    SameBut [.segments] s (setSegmentPhase s d n ph) := by
  intro q hq
  cases q <;> first | rfl | exact ⟨rfl, rfl⟩ | exact ⟨rfl, rfl, rfl⟩ | exact absurd (by decide) hq

theorem produceSegment_sameBut (d : DescId) (s : State) (n : Nat) : SameBut admitting s (produceSegment d s n) :=
  (setSegmentPhase_sameBut s d n .pending).comp (request_sameBut _ _) (by decide) (by decide)

theorem closeSegment_sameBut (s : State) (d : DescId) : SameBut admitting s (closeSegment s d) := by
  unfold closeSegment
  split
  · exact SameBut.refl _ s
  · exact SameBut.ite ((setSegmentPhase_sameBut s d _ _).mono (by decide)) (produceSegment_sameBut d s _)

theorem streamReturn_sameBut (s : State) (d : DescId) : SameBut [.pool, .notice] s (streamReturn s d) := by
  unfold streamReturn
  dsimp only
  split
  · refine SameBut.comp (c := [.pool]) ?_ (resourcesFreed_sameBut _) (by decide) (by decide)
    exact (withPool_sameBut s _).trans (modDesc_sameBut _ d _)
  · exact SameBut.refl _ s

theorem jobEnded_sameBut (s : State) (d : DescId) : SameBut claiming s (jobEnded s d) := by
  unfold jobEnded
  dsimp only
  refine SameBut.comp (c := admitting) ?_ (streamReturn_sameBut _ d) (by decide) (by decide)
  refine SameBut.trans ?_ (request_sameBut _ _)
  exact (closeSegment_sameBut s d).trans (SameBut.foldl (fun s n => produceSegment_sameBut d s n) _ _)

theorem joinSegment_sameBut (s : State) (d : DescId) (i : Nat) : SameBut [.segments, .ctx] s (joinSegment s d i) := by
  unfold joinSegment
  split
  all_goals
    intro q hq
    cases q <;> first | rfl | exact ⟨rfl, rfl⟩ | exact ⟨rfl, rfl, rfl⟩ | exact absurd (by decide) hq

theorem closeIfFull_sameBut (s : State) (d : DescId) : SameBut admitting s (closeIfFull s d) := by
  unfold closeIfFull
  split
  · exact SameBut.ite (closeSegment_sameBut s d) (SameBut.refl _ s)
  · exact SameBut.refl _ s

theorem writeBack_sameBut (s : State) (d : DescId) : SameBut [.pool, .ctx, .inFlight] s (writeBack s d) := by
  intro q hq
  cases q <;> first | rfl | exact ⟨rfl, rfl⟩ | exact ⟨rfl, rfl, rfl⟩ | exact absurd (by decide) hq

/-- What the engine's work may change: the current job, its card, the pool, the segments and the frames it asks for. -/
def engaging : List Part := [.txQueue, .segments, .queries, .pool, .notice, .ctx, .inFlight]

theorem endCurrent_sameBut (st : JobStatus) (s : State) (d : DescId) : SameBut engaging s (endCurrent st s d) := by
  unfold endCurrent
  dsimp only
  refine SameBut.comp (c := [.pool, .ctx, .inFlight]) ?_ (jobEnded_sameBut _ d) (by decide) (by decide)
  refine SameBut.comp (writeBack_sameBut s d) (d := [.pool]) ?_ (by decide) (by decide)
  exact (modDesc_sameBut _ d _).trans (withPool_sameBut _ _)

theorem earlyClose_sameBut (s : State) (d : DescId) (v : Half) : SameBut admitting s (earlyClose s d v) := by
  unfold earlyClose
  split
  · exact SameBut.ite (closeSegment_sameBut s d) (SameBut.refl _ s)
  · exact SameBut.refl _ s

theorem setEngine_sameBut (s : State) (c : JobContext) (r : Option CardResult) :
    SameBut [.ctx, .inFlight] s { s with engine := { s.engine with ctx := c, inFlight := r } } := by
  intro q hq
  cases q <;> first | rfl | exact ⟨rfl, rfl⟩ | exact ⟨rfl, rfl, rfl⟩ | exact absurd (by decide) hq

theorem returnUnbegun_sameBut (s : State) (d : DescId) (n : Nat) : SameBut [.pool, .notice] s (returnUnbegun s d n) := by
  unfold returnUnbegun
  split
  · exact (releaseStorage_sameBut s d).comp (resourcesFreed_sameBut _) (by decide) (by decide)
  · exact SameBut.refl _ s

theorem cardStart_sameBut (s : State) (d : DescId) : SameBut engaging s (cardStart s d) := by
  unfold cardStart
  split
  · exact (returnUnbegun_sameBut s d _).comp (endCurrent_sameBut _ _ d) (by decide) (by decide)
  · exact (earlyClose_sameBut s d _).comp (setEngine_sameBut _ _ _) (by decide) (by decide)

theorem loadJob_sameBut (s : State) (d : DescId) : SameBut [.pool, .ctx, .inFlight] s (loadJob s d) := by
  intro q hq
  cases q <;> first | rfl | exact ⟨rfl, rfl⟩ | exact ⟨rfl, rfl, rfl⟩ | exact absurd (by decide) hq

theorem startNext_sameBut (s t : State) (h : startNext s = some t) : SameBut engaging s t := by
  have hl : ∀ d, SameBut engaging s (cardStart (loadJob s d) d) := fun d =>
    ((loadJob_sameBut s d).mono (by decide)).trans (cardStart_sameBut _ d)
  unfold startNext at h
  split at h
  · exact Option.some.inj h ▸ cardStart_sameBut s _
  · exact Option.some.inj h ▸ hl _
  · exact Option.some.inj h ▸ hl _
  · cases h

theorem takeWork_sameBut (k : Nat) (s : State) : SameBut engaging s (takeWork k s) := by
  induction k generalizing s with
  | zero => exact SameBut.refl _ s
  | succ k ih =>
    unfold takeWork
    split
    · exact SameBut.refl _ s
    · next t h => exact SameBut.ite (startNext_sameBut s t h) ((startNext_sameBut s t h).trans (ih t))

theorem engineWork_sameBut (s : State) : SameBut engaging s (engineWork s) := takeWork_sameBut 49 s

theorem workArrived_sameBut (s : State) : SameBut engaging s (workArrived s) :=
  SameBut.ite (engineWork_sameBut s) (SameBut.refl _ s)

/-! ## Ends outside the engine, claims won, intake -/

theorem endLoading_sameBut (st : JobStatus) (s : State) (d : DescId) : SameBut claiming s (endLoading st s d) := by
  unfold endLoading
  dsimp only
  refine SameBut.comp (c := claiming) ?_ (resourcesFreed_sameBut _) (by decide) (by decide)
  refine SameBut.comp (c := [.pool]) ?_ (jobEnded_sameBut _ d) (by decide) (by decide)
  exact ((releaseStorage_sameBut s d).trans (modDesc_sameBut _ d _)).trans (withPool_sameBut _ _)

theorem endWaiting_sameBut (s : State) (d : DescId) : SameBut claiming s (endWaiting s d) := by
  unfold endWaiting
  dsimp only
  refine SameBut.comp (c := [.pool]) ?_ (jobEnded_sameBut _ d) (by decide) (by decide)
  exact (modDesc_sameBut s d _).trans (withPool_sameBut _ _)

theorem cancelJob_sameBut (pos : PosRef) (s : State) : SameBut claiming s (cancelJob pos s) := by
  unfold cancelJob
  split
  · exact SameBut.refl _ s
  · rename_i d _
    refine SameBut.ite (endLoading_sameBut _ s d) (SameBut.ite (endWaiting_sameBut s d) (SameBut.ite ?_
      (SameBut.ite ((modDesc_sameBut s d _).mono (by decide)) (SameBut.refl _ s))))
    exact (returnUnbegun_sameBut s d _).comp (endWaiting_sameBut _ d) (by decide) (by decide)

theorem claimWon_sameBut (pos : PosRef) (s : State) : SameBut engaging s (claimWon pos s) := by
  unfold claimWon
  split
  · exact SameBut.refl _ s
  · rename_i d _
    dsimp only
    split
    · refine SameBut.comp (c := [.pool]) ?_ (workArrived_sameBut _) (by decide) (by decide)
      exact (modDesc_sameBut s d _).trans (withPool_sameBut _ _)
    · exact (((modDesc_sameBut s d _).trans (withPool_sameBut _ _)).trans (modDesc_sameBut _ d _)).mono (by decide)

theorem intakeDone_sameBut (s : State) (d : DescId) : SameBut engaging s (intakeDone s d) := by
  unfold intakeDone
  dsimp only
  refine SameBut.comp (c := [.pool]) ?_ (workArrived_sameBut _) (by decide) (by decide)
  exact (modDesc_sameBut s d _).trans (withPool_sameBut _ _)

theorem takeGroup_sameBut (s : State) (d : DescId) (r : List CardRecord) : SameBut [.pool] s (takeGroup s d r) := by
  unfold takeGroup
  split
  · exact SameBut.refl _ s
  · exact (withPool_sameBut s _).trans (modDesc_sameBut _ d _)

theorem takeCards_sameBut (pos : PosRef) (g : Byte) (r : List CardRecord) (s : State) :
    SameBut engaging s (takeCards pos g r s) := by
  unfold takeCards
  split
  · exact SameBut.refl _ s
  · rename_i d _
    dsimp only
    split
    · exact SameBut.ite ((takeGroup_sameBut s d r).comp (intakeDone_sameBut _ d) (by decide) (by decide))
        ((takeGroup_sameBut s d r).mono (by decide))
    · exact (endLoading_sameBut _ s d).mono (by decide)

/-! ## Teardown -/

theorem orphanJob_sameBut (s : State) (d : DescId) : SameBut [.txQueue] s (orphanJob s d) := queueUpdate_sameBut s _ _ _

theorem modClearing_sameBut (s : State) (g l : Byte) (f : ClearingRecord → ClearingRecord) :
    SameBut [.pool] s (modClearing s g l f) := withPool_sameBut s _

theorem leaveTornDown_sameBut (s : State) (d : DescId) : SameBut claiming s (leaveTornDown s d) := by
  unfold leaveTornDown
  dsimp only
  refine SameBut.comp (c := claiming) ?_ (freeDescriptor_sameBut _ d) (by decide) (by decide)
  refine SameBut.comp (c := admitting) ?_ (modClearing_sameBut _ _ _ _) (by decide) (by decide)
  refine SameBut.comp (c := admitting) ?_ (orphanJob_sameBut _ d) (by decide) (by decide)
  exact (dropPending_sameBut _ s).trans (dropPending_sameBut _ _)

theorem flushClearing_sameBut (s : State) : SameBut claiming s (flushClearing s) := by
  unfold flushClearing
  dsimp only
  exact SameBut.thenFoldl _ (withPool_sameBut s _) (fun s r => request_sameBut _ s) (by decide) (by decide)

theorem markOutstanding_sameBut (s : State) (x : Descriptor) (d : DescId) : SameBut [.pool] s (markOutstanding s x d) :=
  (modDesc_sameBut s d _).trans (modClearing_sameBut _ _ _ _)

theorem tearDownJob_sameBut (s : State) (d : DescId) : SameBut claiming s (tearDownJob s d) := by
  have hm : ∀ u x, SameBut claiming u (markOutstanding u x d) := fun u x =>
    (markOutstanding_sameBut u x d).mono (by decide)
  unfold tearDownJob
  dsimp only
  refine SameBut.ite (leaveTornDown_sameBut s d) (SameBut.ite (hm s _) (SameBut.ite ?_ (SameBut.refl _ s)))
  have h1 : SameBut claiming s (if hasQueued s (isFinalOf d) then retract (isFinalOf d) s else s) :=
    SameBut.ite ((retract_sameBut _ s).mono (by decide)) (SameBut.refl _ s)
  exact SameBut.ite (h1.trans (hm _ _)) (h1.trans (leaveTornDown_sameBut _ d))

theorem tearDown_sameBut (g l : Byte) (s : State) : SameBut claiming s (tearDown g l s) := by
  unfold tearDown
  dsimp only
  refine SameBut.trans ?_ (flushClearing_sameBut _)
  exact SameBut.thenFoldl _ (withPool_sameBut s _) (fun s d => tearDownJob_sameBut s d) (by decide) (by decide)

theorem settleOutstanding_sameBut (s : State) (x : Descriptor) : SameBut [.pool] s (settleOutstanding s x) :=
  modClearing_sameBut s _ _ _

theorem finalWithdrawn_sameBut (job : Option DescId) (s : State) : SameBut claiming s (finalWithdrawn job s) := by
  unfold finalWithdrawn
  split
  · exact SameBut.refl _ s
  · rename_i d
    refine SameBut.trans ?_ (flushClearing_sameBut _)
    exact (settleOutstanding_sameBut s _).comp (leaveTornDown_sameBut _ d) (by decide) (by decide)

/-! ## Completion -/

theorem writeResult_sameBut (s : State) (d : DescId) (c : Nat) (r : CardResult) : SameBut [.pool] s (writeResult s d c r) := by
  unfold writeResult
  dsimp only
  split
  · exact modDesc_sameBut s d _
  · split
    · exact SameBut.refl _ s
    · exact withPool_sameBut s _

theorem preempt_sameBut (s : State) (d : DescId) : SameBut [.pool, .ctx, .inFlight, .preempted] s (preempt s d) := by
  intro q hq
  cases q <;> first | rfl | exact ⟨rfl, rfl⟩ | exact ⟨rfl, rfl, rfl⟩ | exact absurd (by decide) hq

theorem handBack_sameBut (s : State) (d : DescId) : SameBut engaging s (handBack s d) := by
  unfold handBack
  dsimp only
  refine SameBut.comp (writeBack_sameBut s d) (d := claiming) ?_ (by decide) (by decide)
  refine SameBut.trans ?_ (flushClearing_sameBut _)
  exact (settleOutstanding_sameBut _ _).comp (leaveTornDown_sameBut _ d) (by decide) (by decide)

theorem cardBoundary_sameBut (s : State) (d : DescId) : SameBut (.preempted :: engaging) s (cardBoundary s d) := by
  have hw : ∀ u, SameBut (.preempted :: engaging) s u → SameBut (.preempted :: engaging) s (engineWork u) := fun u hu =>
    hu.trans ((engineWork_sameBut u).mono (by decide))
  unfold cardBoundary
  dsimp only
  refine SameBut.ite (hw _ ((handBack_sameBut s d).mono (by decide))) (SameBut.ite (hw _ ?_) (SameBut.ite (hw _ ?_)
    (SameBut.ite (hw _ ((preempt_sameBut s d).mono (by decide))) (hw _ (SameBut.refl _ s)))))
  · exact (endCurrent_sameBut _ s d).mono (by decide)
  · exact (endCurrent_sameBut _ s d).mono (by decide)

theorem completeCard_sameBut (s : State) : SameBut (.preempted :: engaging) s (completeCard s) := by
  unfold completeCard
  split
  · rename_i d r _ _
    dsimp only
    refine SameBut.trans ?_ (cardBoundary_sameBut _ d)
    refine SameBut.comp (c := [.pool, .ctx, .inFlight, .segments]) ?_ (closeIfFull_sameBut _ d) (by decide) (by decide)
    refine SameBut.comp (c := [.pool, .ctx, .inFlight]) ?_ (joinSegment_sameBut _ d _) (by decide) (by decide)
    exact (writeResult_sameBut s d _ r).comp (setEngine_sameBut _ _ _) (by decide) (by decide)
  · exact SameBut.refl _ s

theorem countUndelivered_sameBut (s : State) (g : Node) (m : NodeMap) : SameBut [.undelivered] s (countUndelivered s g m) := by
  unfold countUndelivered
  split
  · exact SameBut.refl _ s
  · intro q hq
    cases q <;> first | rfl | exact ⟨rfl, rfl⟩ | exact ⟨rfl, rfl, rfl⟩ | exact absurd (by decide) hq

theorem setSent_sameBut (s : State) (d : DescId) (n : Nat) : SameBut [.ctx, .pool] s (setSent s d n) := by
  unfold setSent
  split
  all_goals
    intro q hq
    cases q <;> first | rfl | exact ⟨rfl, rfl⟩ | exact ⟨rfl, rfl, rfl⟩ | exact absurd (by decide) hq

theorem setSegments_sameBut (s : State) (v : Vector (List Segment) 48) :
    SameBut [.segments] s { s with engine := { s.engine with segs := v } } := by
  intro q hq
  cases q <;> first | rfl | exact ⟨rfl, rfl⟩ | exact ⟨rfl, rfl, rfl⟩ | exact absurd (by decide) hq

theorem answerSent_sameBut (job : Option DescId) (g : Node) (n : Nat) (m : NodeMap) (s : State) :
    SameBut [.undelivered, .segments, .ctx, .pool, .notice] s (answerSent job g n m s) := by
  unfold answerSent
  have h := countUndelivered_sameBut s g m
  dsimp only
  split
  · exact h.mono (by decide)
  · split
    · exact h.mono (by decide)
    · rename_i d _ x _
      refine SameBut.comp h (d := [.segments, .ctx, .pool, .notice]) ?_ (by decide) (by decide)
      refine SameBut.comp (c := [.segments, .ctx, .pool]) ?_ (streamReturn_sameBut _ d) (by decide) (by decide)
      exact SameBut.comp (setSegments_sameBut _ _) (setSent_sameBut _ d _) (by decide) (by decide)

theorem finalSent_sameBut (job : Option DescId) (g : Node) (m : NodeMap) (s : State) :
    SameBut (.undelivered :: claiming) s (finalSent job g m s) := by
  unfold finalSent
  have h := countUndelivered_sameBut s g m
  dsimp only
  split
  · exact h.mono (by decide)
  · rename_i d
    refine SameBut.comp h (d := claiming) ?_ (by decide) (by decide)
    refine SameBut.trans ?_ (flushClearing_sameBut _)
    refine SameBut.comp (c := [.pool]) ?_ (freeDescriptor_sameBut _ d) (by decide) (by decide)
    exact SameBut.ite (settleOutstanding_sameBut _ _) (SameBut.refl _ _)

/-! ## Abandonment -/

theorem abandonEngine_sameBut (s : State) : SameBut [.inFlight, .ctx, .segments] s (abandonEngine s) := by
  intro q hq
  cases q <;> first | rfl | exact ⟨rfl, rfl⟩ | exact ⟨rfl, rfl, rfl⟩ | exact absurd (by decide) hq

theorem dropAllJobs_sameBut (s : State) : SameBut [.pool] s (dropAllJobs s) := withPool_sameBut s _

theorem dropJobs_sameBut (s : State) : SameBut [.txQueue, .inFlight, .ctx, .segments, .pool] s (dropJobs s) := by
  unfold dropJobs
  dsimp only
  refine SameBut.comp (c := [.inFlight, .ctx, .segments, .pool]) ?_ (queueUpdate_sameBut _ _ _ _) (by decide) (by decide)
  exact (abandonEngine_sameBut s).comp (dropAllJobs_sameBut _) (by decide) (by decide)

end Sys2Proof.Machine
end

