-- ==== Sys2Proof/Laws/Lines.lean ====
section
/-! SUPPORT. The line table: reading an entry or a position after a write, what settling a position does, and the frame of every
operation of chapter 7 and of self-expulsion. -/

namespace Sys2Proof.Machine

/-! ## Reading after writing -/

theorem SameBut.entryAt {c : List Part} {s t : State} (h : SameBut c s t) (hc : Part.entries ∉ c) (l : LineId) :
    Machine.entryAt t l = Machine.entryAt s l := by
  have e := h .entries hc
  simp only [Part.same] at e
  unfold Machine.entryAt
  rw [e]

theorem SameBut.localAt {c : List Part} {s t : State} (h : SameBut c s t) (hc : Part.locals ∉ c) (l : LineId) (p : PosId) :
    Machine.localAt t l p = Machine.localAt s l p := by
  have e := h .locals hc
  simp only [Part.same] at e
  unfold Machine.localAt
  rw [e]

@[simp] theorem entryAt_setEntry (s : State) (l k : LineId) (e : LineEntry) :
    entryAt (setEntry s l e) k = if k = l then e else entryAt s k := by
  simp [entryAt, setEntry, tget_tset]

@[simp] theorem localAt_setLocal (s : State) (l k : LineId) (p q : PosId) (x : LocalPos) :
    localAt (setLocal s l p x) k q = if k = l ∧ q = p then x else localAt s k q := by
  simp only [localAt, setLocal, tget_tset]
  by_cases h : k = l
  · subst h
    by_cases h2 : q = p <;> simp [h2, tget_tset]
  · simp [h]

theorem findPosition_eq {s t : State} (h : t.lines.entries = s.lines.entries) (pos : PosRef) :
    findPosition t pos = findPosition s pos := by
  unfold findPosition findLine
  rw [h]

/-! ## Frames of the writes -/

theorem setEntry_sameBut (s : State) (l : LineId) (e : LineEntry) : SameBut [.entries] s (setEntry s l e) := by
  intro q hq
  cases q <;> first | rfl | exact ⟨rfl, rfl⟩ | exact ⟨rfl, rfl, rfl⟩ | exact absurd (by decide) hq

theorem setLocal_sameBut (s : State) (l : LineId) (p : PosId) (x : LocalPos) : SameBut [.locals] s (setLocal s l p x) := by
  intro q hq
  cases q <;> first | rfl | exact ⟨rfl, rfl⟩ | exact ⟨rfl, rfl, rfl⟩ | exact absurd (by decide) hq

theorem freeLine_sameBut (s : State) (l : LineId) : SameBut [.entries, .locals] s (freeLine s l) := by
  intro q hq
  cases q <;> first | rfl | exact ⟨rfl, rfl⟩ | exact ⟨rfl, rfl, rfl⟩ | exact absurd (by decide) hq

theorem directory_sameBut (s : State) (d : Directory) :
    SameBut [.slots, .usage, .seq, .cabinetKey] s { s with dir := d } := by
  intro q hq
  cases q <;> first | rfl | exact ⟨rfl, rfl⟩ | exact ⟨rfl, rfl, rfl⟩ | exact absurd (by decide) hq

theorem usage_sameBut (s : State) (i : SlotId) (u : Usage) :
    SameBut [.usage] s { s with dir := s.dir.setUsage i u } := by
  intro q hq
  cases q <;> first | rfl | exact ⟨rfl, rfl⟩ | exact ⟨rfl, rfl, rfl⟩ | exact absurd (by decide) hq

theorem reserve_sameBut (s : State) (i : SlotId) (n : Nat) : SameBut [.usage] s { s with dir := s.dir.reserve i n } :=
  usage_sameBut s i _

/-- A settle adds the cards charged to the used count, as a number, while the sum stays in range. -/
theorem settledUsed_toNat (u : Usage) (n k : Nat) (h : u.used.toNat + min k (min n u.reserved.toNat) ≤ Config.maxCount) :
    (settledUsed u n k).toNat = u.used.toNat + min k (min n u.reserved.toNat) := by
  unfold settledUsed
  rw [if_pos h, BitVec.toNat_ofNat]
  exact Nat.mod_eq_of_lt (Nat.lt_succ_of_le h)

theorem settleRequest_sameBut (s : State) (i : SlotId) (n k : Nat) : SameBut [.usage] s { s with dir := s.dir.settle i n k } :=
  usage_sameBut s i _

theorem releaseRequest_sameBut (s : State) (i : SlotId) (n : Nat) : SameBut [.usage] s { s with dir := s.dir.release i n } :=
  usage_sameBut s i _

theorem settleUsage_sameBut (s : State) (x : Position) (k : Nat) : SameBut [.usage] s (settleUsage s x k) := by
  unfold settleUsage
  split
  · exact SameBut.refl _ s
  · exact settleRequest_sameBut s _ _ _

theorem releaseUsage_sameBut (s : State) (x : Position) : SameBut [.usage] s (releaseUsage s x) := by
  unfold releaseUsage
  split
  · exact SameBut.refl _ s
  · exact releaseRequest_sameBut s _ _

theorem setTwo_sameBut (s : State) (l k : LineId) (e : LineEntry) (p : PosId) (x : LocalPos) :
    SameBut [.entries, .locals] s (setLocal (setEntry s l e) k p x) :=
  (setEntry_sameBut s l e).comp (setLocal_sameBut _ k p x) (by decide) (by decide)

/-! ## Self-expulsion -/

/-- What a station that finds a cause may change: it becomes leaving, its frames and its serving side go. -/
def departing : List Part := [.txQueue, .segments, .queries, .pool, .notice, .leaving, .ownRound, .serve]

theorem serve_sameBut (s : State) (l : List PullEntry) :
    SameBut [.serve] s { s with catchUp := { s.catchUp with serve := l } } := by
  intro q hq
  cases q <;> first | rfl | exact ⟨rfl, rfl⟩ | exact ⟨rfl, rfl, rfl⟩ | exact absurd (by decide) hq

theorem stopServing_sameBut (s : State) : SameBut [.txQueue, .segments, .queries, .serve] s (stopServing s) :=
  (serve_sameBut s []).comp (retract_sameBut _ _) (by decide) (by decide)

theorem withdrawPropose_sameBut (s : State) : SameBut [.txQueue, .segments, .queries, .ownRound] s (withdrawPropose s) := by
  unfold withdrawPropose
  dsimp only
  refine SameBut.ite (SameBut.ite ((retract_sameBut _ s).mono (by decide)) ?_) (SameBut.refl _ s)
  exact (retract_sameBut _ s).comp (setOwn_sameBut _ _) (by decide) (by decide)

theorem leaving_sameBut (s : State) : SameBut [.leaving] s { s with memb := { s.memb with leaving := true } } := by
  intro q hq
  cases q <;> first | rfl | exact ⟨rfl, rfl⟩ | exact ⟨rfl, rfl, rfl⟩ | exact absurd (by decide) hq

theorem selfExpel_sameBut (r : ExpelReason) (s : State) : SameBut departing s (selfExpel r s) := by
  unfold selfExpel
  dsimp only
  refine SameBut.ite ?_ (SameBut.refl _ s)
  refine SameBut.comp (c := departing) ?_ (stopServing_sameBut _) (by decide) (by decide)
  refine SameBut.comp (c := departing) ?_ (retract_sameBut _ _) (by decide) (by decide)
  refine SameBut.comp (c := departing) ?_ (withdrawPropose_sameBut _) (by decide) (by decide)
  refine SameBut.comp (c := departing) ?_ (retractClaims_sameBut _ _) (by decide) (by decide)
  exact (leaving_sameBut s).comp (request_sameBut _ _) (by decide) (by decide)

/-! ## Settlement and claims -/

/-- What the settling of a position may change. -/
def settling : List Part := .entries :: .locals :: claiming

theorem settlePosted_sameBut (s : State) (l : LineId) (p : PosId) (b : SettledBy) (r : DoneReason) :
    SameBut settling s (settlePosted s l p b r) := by
  unfold settlePosted
  dsimp only
  exact (setTwo_sameBut s l l _ p _).comp (retractClaims_sameBut _ _) (by decide) (by decide)

/-- A settled position is DONE with its settlement and its reason, D has advanced, its note and timers are gone (R123, R132). -/
theorem settlePosted_at (s : State) (l : LineId) (p : PosId) (b : SettledBy) (r : DoneReason) :
    SettledAt b r l p s (settlePosted s l p b r) := by
  unfold settlePosted
  dsimp only
  have h := retractClaims_sameBut (isSettlementFor (posRefOf (entryAt s l) p))
    (setLocal (setEntry s l (dAdvance { entryAt s l with
      positions := tset (entryAt s l).positions p (donePosition (tget (entryAt s l).positions p) b r) })) l p LocalPos.empty)
  refine ⟨?_, ?_, ?_, ?_⟩
  · unfold retractSettlements
    rw [h.entryAt (by decide), (setLocal_sameBut _ _ _ _).entryAt (by decide)]
    simp
    rfl
  · intro k hk
    unfold retractSettlements
    rw [h.entryAt (by decide), (setLocal_sameBut _ _ _ _).entryAt (by decide)]
    simp [hk]
  · unfold retractSettlements
    rw [h.localAt (by decide)]
    simp
  · intro k q hk
    unfold retractSettlements
    rw [h.localAt (by decide), localAt_setLocal, if_neg (by rintro ⟨h1, h2⟩; rcases hk with h | h <;> contradiction)]
    exact (setEntry_sameBut _ _ _).localAt (by decide) _ _

theorem SettledAt.before {b : SettledBy} {r : DoneReason} {l : LineId} {p : PosId} {s u t : State} (h : SettledAt b r l p u t)
    (he : u.lines.entries = s.lines.entries) (hl : u.lines.locals = s.lines.locals) : SettledAt b r l p s t := by
  unfold SettledAt positionOf entryAt localAt at *
  rw [he, hl] at h
  exact h

theorem SettledAt.after {b : SettledBy} {r : DoneReason} {l : LineId} {p : PosId} {s t u : State} (h : SettledAt b r l p s t)
    (he : u.lines.entries = t.lines.entries) (hl : u.lines.locals = t.lines.locals) : SettledAt b r l p s u := by
  unfold SettledAt positionOf entryAt localAt at *
  rw [he, hl]
  exact h

theorem settleFrame_sameBut (pos : PosRef) (b : SettledBy) (r : DoneReason) (s : State) :
    SameBut settling s (settleFrame pos b r s) := by
  unfold settleFrame
  split
  · exact SameBut.refl _ s
  · exact SameBut.ite (settlePosted_sameBut s _ _ _ _) (SameBut.refl _ s)

theorem claimLost_sameBut (src : Node) (pos : PosRef) (s : State) : SameBut returning s (claimLost src pos s) :=
  SameBut.ite (returnClaim_sameBut pos s) (SameBut.refl _ s)

/-- What a CLAIM's delivery may change. -/
def claimed : List Part := [.txQueue, .segments, .queries, .pool, .notice, .entries, .locals, .usage, .ctx, .inFlight, .leaving,
  .ownRound, .serve]

theorem claimTaken_sameBut (src : Node) (l : LineId) (p : PosId) (m : SlotId) (s : State) :
    SameBut claimed s (claimTaken src l p m s) := by
  unfold claimTaken
  dsimp only
  refine SameBut.comp (c := claimed) ?_ (giveNotice_sameBut _) (by decide) (by decide)
  refine SameBut.comp (c := claimed) ?_ (retractClaims_sameBut _ _) (by decide) (by decide)
  have h := (reserve_sameBut s m (tget (entryAt s l).positions p).count.toNat).comp (setTwo_sameBut _ l l
    { entryAt s l with positions := tset (entryAt s l).positions p { tget (entryAt s l).positions p with
      state := .claimed, settledBy := .claim, owner := BitVec.ofNat 4 src.val } } p LocalPos.empty)
    (e := claimed) (by decide) (by decide)
  exact SameBut.ite (h.trans ((claimWon_sameBut _ _).mono (by decide))) h

theorem claimOverrun_sameBut (src : Node) (l : LineId) (p : PosId) (s : State) :
    SameBut claimed s (claimOverrun src l p s) := by
  unfold claimOverrun
  dsimp only
  refine SameBut.comp (c := settling) ?_ (selfExpel_sameBut _ _) (by decide) (by decide)
  exact (settlePosted_sameBut s l p _ _).comp (claimLost_sameBut _ _ _) (by decide) (by decide)

theorem onClaim_sameBut (h : Header) (b : ClaimBody) (s : State) : SameBut claimed s (onClaim h b s) := by
  have hl : SameBut claimed s (claimLost h.src b.pos s) := (claimLost_sameBut _ _ s).mono (by decide)
  unfold onClaim
  split
  · exact hl
  · dsimp only
    refine SameBut.ite hl (SameBut.ite hl (SameBut.ite hl ?_))
    split
    · exact hl
    · exact SameBut.ite (claimTaken_sameBut _ _ _ _ s) (claimOverrun_sameBut _ _ _ s)

theorem onDecline_sameBut (pos : PosRef) (r : Byte) (s : State) : SameBut settling s (onDecline pos r s) :=
  SameBut.ite (settleFrame_sameBut pos _ _ s) (SameBut.refl _ s)

theorem onUnclaimed_sameBut (pos : PosRef) (s : State) : SameBut settling s (onUnclaimed pos s) := settleFrame_sameBut pos _ _ s

theorem onCancel_sameBut (h : Header) (line position : Byte) (s : State) : SameBut settling s (onCancel h line position s) := by
  unfold onCancel
  dsimp only
  split
  · exact SameBut.refl _ s
  · exact SameBut.ite (settlePosted_sameBut s _ _ _ _)
      (SameBut.ite ((cancelJob_sameBut _ s).mono (by decide)) (SameBut.refl _ s))

/-! ## Opening and posting -/

theorem dutyReport_sameBut (g : Node) (body : List Byte) (s : State) : SameBut admitting s (dutyReport g body s) :=
  SameBut.ite (request_sameBut _ s) (SameBut.refl _ s)

/-- What a gateway's opening or posting may change. -/
def posting : List Part := [.txQueue, .segments, .queries, .entries, .locals, .notice]

theorem onOpen_sameBut (h : Header) (line : Byte) (s : State) : SameBut posting s (onOpen h line s) := by
  have hr : ∀ b, SameBut posting s (dutyReport h.src b s) := fun b => (dutyReport_sameBut _ _ s).mono (by decide)
  unfold onOpen
  dsimp only
  refine SameBut.ite (SameBut.refl _ s) ?_
  split
  · exact SameBut.ite (hr _) (hr _)
  · split
    · exact hr _
    · refine SameBut.comp (c := [.entries, .locals]) ?_ (dutyReport_sameBut _ _ _) (by decide) (by decide)
      exact (freeLine_sameBut s _).comp (setEntry_sameBut _ _ _) (by decide) (by decide)

theorem postJob_sameBut (s : State) (l : LineId) (x : Position) (g p : Byte) (c : Option CardRecord) :
    SameBut [.entries, .locals, .notice] s (postJob s l x g p c) := by
  unfold postJob
  dsimp only
  exact (setTwo_sameBut s l l _ _ _).comp (giveNotice_sameBut _) (by decide) (by decide)

theorem post_sameBut (h : Header) (line position : Byte) (x : Position) (g p : Byte) (c : Option CardRecord) (s : State) :
    SameBut posting s (post h line position x g p c s) := by
  unfold post
  split
  · exact (dutyReport_sameBut _ _ s).mono (by decide)
  · exact (postJob_sameBut s _ _ _ _ _).mono (by decide)

theorem onJob_sameBut (h : Header) (b : JobBody) (s : State) : SameBut posting s (onJob h b s) :=
  post_sameBut _ _ _ _ _ _ _ s

theorem onBatch_sameBut (h : Header) (b : BatchBody) (s : State) : SameBut posting s (onBatch h b s) :=
  post_sameBut _ _ _ _ _ _ _ s

theorem onCards_sameBut (h : Header) (b : CardsBody) (s : State) : SameBut engaging s (onCards h b s) :=
  SameBut.ite (takeCards_sameBut _ _ _ s) (SameBut.refl _ s)

/-! ## Completion and closing -/

theorem onFinal_sameBut (h : Header) (b : FinalBody) (s : State) : SameBut [.usage, .entries, .notice] s (onFinal h b s) := by
  unfold onFinal
  refine SameBut.ite (SameBut.refl _ s) ?_
  split
  · exact SameBut.refl _ s
  · dsimp only
    refine SameBut.ite ?_ (SameBut.refl _ s)
    refine SameBut.comp (c := [.usage, .entries]) ?_ (giveNotice_sameBut _) (by decide) (by decide)
    exact (settleUsage_sameBut s _ _).comp (setEntry_sameBut _ _ _) (by decide) (by decide)

theorem closeLine_sameBut (g line : Byte) (s : State) : SameBut settling s (closeLine g line s) := by
  unfold closeLine
  split
  · exact SameBut.refl _ s
  · rename_i l _
    dsimp only
    refine SameBut.ite ?_ (SameBut.refl _ s)
    have h : ∀ e, SameBut settling s ((postedOf (entryAt s l)).foldl
        (fun u p => retractSettlements (posRefOf (entryAt s l) p) (setLocal u l p LocalPos.empty)) (setEntry s l e)) := fun e =>
      SameBut.thenFoldl (d := settling) _ (setEntry_sameBut s l e)
        (fun u p => (setLocal_sameBut u l p _).comp (retractClaims_sameBut _ _) (by decide) (by decide)) (by decide) (by decide)
    exact SameBut.ite ((h _).comp (freeLine_sameBut _ l) (by decide) (by decide))
      (SameBut.ite ((h _).comp (tearDown_sameBut g line _) (by decide) (by decide)) (h _))

theorem onClose_sameBut (h : Header) (b : CloseBody) (s : State) : SameBut settling s (onClose h b s) := by
  unfold onClose
  split
  · exact closeLine_sameBut _ _ s
  · exact SameBut.ite (closeLine_sameBut _ _ s) (SameBut.refl _ s)

theorem clearPosition_sameBut (src : Node) (l : LineId) (s : State) (p : PosId) (k : Nat) :
    SameBut [.usage, .entries] s (clearPosition src l s p k) := by
  unfold clearPosition
  dsimp only
  exact SameBut.ite ((settleUsage_sameBut s _ _).comp (setEntry_sameBut _ _ _) (by decide) (by decide)) (SameBut.refl _ s)

theorem clearListed_sameBut (src : Node) (l : LineId) (s : State) (c : ClearedEntry) :
    SameBut [.usage, .entries] s (clearListed src l s c) := by
  unfold clearListed
  split
  · exact SameBut.refl _ s
  · exact clearPosition_sameBut _ _ s _ _

theorem onCleared_sameBut (h : Header) (b : ClearedBody) (s : State) :
    SameBut [.usage, .entries, .locals, .notice] s (onCleared h b s) := by
  unfold onCleared
  split
  · exact SameBut.refl _ s
  · rename_i l _
    dsimp only
    refine SameBut.ite ?_ (SameBut.refl _ s)
    refine SameBut.comp (c := [.usage, .entries, .locals]) ?_ (giveNotice_sameBut _) (by decide) (by decide)
    have h1 := (SameBut.foldl (clearListed_sameBut h.src l) b.entries s).trans
      (SameBut.foldl (fun s p => clearPosition_sameBut h.src l s p 0) (List.finRange 16) _)
    exact SameBut.ite (h1.comp (freeLine_sameBut _ l) (by decide) (by decide))
      (h1.comp (setEntry_sameBut _ l _) (by decide) (by decide))

/-! ## Membership, timers, duty -/

theorem losePosition_sameBut (k : StationId) (l : LineId) (s : State) (p : PosId) :
    SameBut [.usage, .entries] s (losePosition k l s p) := by
  unfold losePosition
  dsimp only
  exact SameBut.ite ((releaseUsage_sameBut s _).comp (setEntry_sameBut _ _ _) (by decide) (by decide)) (SameBut.refl _ s)

theorem expelFromLine_sameBut (k : StationId) (s : State) (l : LineId) :
    SameBut [.usage, .entries, .locals] s (expelFromLine k s l) := by
  unfold expelFromLine
  dsimp only
  refine SameBut.ite (SameBut.refl _ s) ?_
  have h1 := SameBut.foldl (losePosition_sameBut k l) (List.finRange 16) s
  exact SameBut.ite (h1.comp (freeLine_sameBut _ l) (by decide) (by decide))
    (h1.comp (setEntry_sameBut _ l _) (by decide) (by decide))

theorem expelFromLines_sameBut (k : StationId) (s : State) :
    SameBut [.usage, .entries, .locals, .notice] s (expelFromLines k s) :=
  (SameBut.foldl (expelFromLine_sameBut k) _ s).comp (giveNotice_sameBut _) (by decide) (by decide)

theorem deferralExpired_sameBut (l : LineId) (p : PosId) (s : State) :
    SameBut [.locals, .notice] s (deferralExpired l p s) := by
  unfold deferralExpired
  dsimp only
  exact SameBut.ite ((setLocal_sameBut s l p _).comp (giveNotice_sameBut _) (by decide) (by decide)) (SameBut.refl _ s)

theorem queueUnclaimed_sameBut (pos : PosRef) (s : State) : SameBut admitting s (queueUnclaimed pos s) :=
  SameBut.ite (SameBut.refl _ s) (request_sameBut _ s)

theorem unclaimedExpired_sameBut (l : LineId) (p : PosId) (s : State) :
    SameBut (.locals :: admitting) s (unclaimedExpired l p s) := by
  unfold unclaimedExpired
  dsimp only
  exact SameBut.ite (SameBut.ite ((setLocal_sameBut s l p _).comp (queueUnclaimed_sameBut _ _) (by decide) (by decide))
    ((setLocal_sameBut s l p _).mono (by decide))) (SameBut.refl _ s)

theorem closeForSilence_sameBut (g : Node) (s : State) : SameBut admitting s (closeForSilence g s) :=
  SameBut.foldl (fun s _ => SameBut.ite (request_sameBut _ s) (SameBut.refl _ s)) _ s

theorem gatewayExpired_sameBut (g : Node) (s : State) : SameBut (.gatewayWatches :: admitting) s (gatewayExpired g s) := by
  unfold gatewayExpired
  exact SameBut.ite (SameBut.ite ((setWatch_sameBut s g _).comp (closeForSilence_sameBut g _) (by decide) (by decide))
    ((setWatch_sameBut s g _).mono (by decide))) (SameBut.refl _ s)

theorem lineDutyGained_sameBut (s : State) : SameBut admitting s (lineDutyGained s) := by
  unfold lineDutyGained
  dsimp only
  refine SameBut.trans (t := (List.finRange 32).foldl (fun s l =>
    if (entryAt s l).state = .free then s
    else (List.finRange 16).foldl (fun s p =>
      if (localAt s l p).deadline = .expired ∧ (positionOf s l p).state = .posted
      then queueUnclaimed (posRefOf (entryAt s l) p) s else s) s) s) ?_ ?_
  · refine SameBut.foldl (fun s l => SameBut.ite (SameBut.refl _ s) ?_) _ s
    exact SameBut.foldl (fun s p => SameBut.ite (queueUnclaimed_sameBut _ s) (SameBut.refl _ s)) _ s
  · exact SameBut.foldl (fun s g => SameBut.ite (closeForSilence_sameBut g s) (SameBut.refl _ s)) _ _

theorem imageTwo_sameBut (s : State) (l : LineId) (e : LineEntry) (x : Vector LocalPos 16) :
    SameBut [.entries, .locals] s { s with lines := { s.lines with
      entries := tset s.lines.entries l e, locals := tset s.lines.locals l x } } := by
  intro q hq
  cases q <;> first | rfl | exact ⟨rfl, rfl⟩ | exact ⟨rfl, rfl, rfl⟩ | exact absurd (by decide) hq

theorem imageLine_sameBut (s : State) (l : LineId) (e : LineEntry) :
    SameBut [.entries, .locals, .gatewayWatches] s (imageLine s l e) := by
  unfold imageLine
  dsimp only
  exact SameBut.ite ((imageTwo_sameBut s l e _).mono (by decide))
    ((imageTwo_sameBut s l e _).comp (setWatch_sameBut _ _ _) (by decide) (by decide))

theorem emptyLines_sameBut (s : State) : SameBut [.entries, .locals, .gatewayWatches, .notice] s (emptyLines s) := by
  intro q hq
  cases q <;> first | rfl | exact ⟨rfl, rfl⟩ | exact ⟨rfl, rfl, rfl⟩ | exact absurd (by decide) hq

end Sys2Proof.Machine
end

