-- ==== Sys2Proof/Laws/Starts.lean ====
section
/-! SUPPORT. Tamper, zeroisation and the start events: the frames of the tamper monitor's operations, and the value of every block
after an operation that empties blocks. -/

namespace Sys2Proof.Machine

/-! ## Frames -/

theorem tamper_sameBut (s : State) (t : Tamper) :
    SameBut [.channels, .maintenance, .causeRecord, .retentionTrip, .storeValid] s { s with tamper := t } := by
  intro q hq
  cases q <;> first | rfl | exact ⟨rfl, rfl⟩ | exact ⟨rfl, rfl, rfl⟩ | exact absurd (by decide) hq

/-- What an operation that may zeroise the station leaves alone. -/
theorem zeroise_keeps (c : CauseRecord) (own : Option ZeroCause) (s : State) :
    (zeroise c own s).straps = s.straps ∧ (zeroise c own s).inputs = s.inputs ∧ (zeroise c own s).wirePlace = s.wirePlace
      ∧ (zeroise c own s).pending = s.pending := by
  unfold zeroise eraseBlocks emptyQueue dropPendingQuery
  dsimp only
  split <;> exact ⟨rfl, rfl, rfl, rfl⟩

theorem zeroise_dir (c : CauseRecord) (own : Option ZeroCause) (s : State) : (zeroise c own s).dir = Directory.erased := rfl
theorem zeroise_rounds (c : CauseRecord) (own : Option ZeroCause) (s : State) : (zeroise c own s).rounds = RoundControl.empty := rfl
theorem zeroise_cust (c : CauseRecord) (own : Option ZeroCause) (s : State) : (zeroise c own s).cust = Custody.empty := rfl
theorem zeroise_lines (c : CauseRecord) (own : Option ZeroCause) (s : State) : (zeroise c own s).lines = LineTable.empty := rfl
theorem zeroise_pool (c : CauseRecord) (own : Option ZeroCause) (s : State) : (zeroise c own s).pool = Pool.empty := rfl
theorem zeroise_state (c : CauseRecord) (own : Option ZeroCause) (s : State) : (zeroise c own s).memb.state = .zeroised := rfl
theorem zeroise_cause (c : CauseRecord) (own : Option ZeroCause) (s : State) : (zeroise c own s).tamper.cause = c := rfl

/-- What the emptying of the volatile blocks leaves alone. -/
theorem clearVolatile_keeps (s : State) :
    (clearVolatile s).straps = s.straps ∧ (clearVolatile s).inputs = s.inputs ∧ (clearVolatile s).memb = s.memb
      ∧ (clearVolatile s).dir = s.dir ∧ (clearVolatile s).tamper = s.tamper ∧ (clearVolatile s).cust.record = s.cust.record
      ∧ (clearVolatile s).wirePlace = s.wirePlace ∧ (clearVolatile s).pending = s.pending := by
  unfold clearVolatile emptyQueue dropPendingQuery
  dsimp only
  split <;> exact ⟨rfl, rfl, rfl, rfl, rfl, rfl, rfl, rfl⟩

/-- Entry to a state that holds no rounds, lines or assemblies (R61, R87, R104, R140). -/
def leavingCabinet : List Part :=
  [.entries, .locals, .gatewayWatches, .notice, .usage, .roundList, .areas, .pulling, .serve]

theorem leaveCabinetState_sameBut (s : State) : SameBut leavingCabinet s (leaveCabinetState s) := by
  intro q hq
  cases q <;> first | rfl | exact ⟨rfl, rfl⟩ | exact ⟨rfl, rfl, rfl⟩ | exact absurd (by decide) hq

theorem enterListening_sameBut (s : State) :
    SameBut (.station :: .live :: .heard :: .windowOpen :: .watches :: leavingCabinet) s (enterListening s) := by
  intro q hq
  cases q <;> first | rfl | exact ⟨rfl, rfl⟩ | exact ⟨rfl, rfl, rfl⟩ | exact absurd (by decide) hq

theorem enterDetached_sameBut (c : DetachedCause) (s : State) :
    SameBut (.station :: .live :: .windowOpen :: .watches :: leavingCabinet) s (enterDetached c s) := by
  intro q hq
  cases q <;> first | rfl | exact ⟨rfl, rfl⟩ | exact ⟨rfl, rfl, rfl⟩ | exact absurd (by decide) hq

theorem enterListening_state (s : State) :
    (enterListening s).memb.state = .listening ∧ (enterListening s).memb.windowOpen = true ∧ (enterListening s).memb.live = 0#8
      ∧ (enterListening s).lines = LineTable.empty ∧ (enterListening s).rounds.list = []
      ∧ (enterListening s).catchUp.phase = .idle := ⟨rfl, rfl, rfl, rfl, rfl, rfl⟩

theorem enterDetached_state (c : DetachedCause) (s : State) :
    (enterDetached c s).memb.state = .detached ∧ (enterDetached c s).memb.cause = some c ∧ (enterDetached c s).memb.live = 0#8
      ∧ (enterDetached c s).lines = LineTable.empty ∧ (enterDetached c s).rounds.list = []
      ∧ (enterDetached c s).catchUp.phase = .idle := ⟨rfl, rfl, rfl, rfl, rfl, rfl⟩

/-! ## The maintenance window (R178, R179) -/

theorem closeWindow_closed {s : State} (h : s.tamper.window = none) : closeWindow s = s := by
  unfold closeWindow
  rw [h]

theorem openWindow_window (n : Nat) (t : Tamper) : (openWindow n t).window = some n := by
  unfold openWindow
  split <;> rfl

theorem shutWindow_window (t : Tamper) : (shutWindow t).window = none := by
  unfold shutWindow
  split
  · assumption
  · rfl

/-- A judged sample moves the trip count, the step counters and the baseline only (R176, R177). -/
theorem takeSample_disarmed {ch : Channel} {v : Nat} {c : ChannelRecord} (h : c.state = .disarmed) :
    takeSample ch v c = ({ c with last := v }, false) := by
  unfold takeSample
  rw [h]

theorem takeSample_digital {ch : Channel} {v : Nat} {c : ChannelRecord} (h : c.state = .armed) (hd : isDigital ch = true) :
    takeSample ch v c = ({ c with last := v }, v != 0) := by
  unfold takeSample
  rw [h]
  simp [hd]

theorem takeSample_analog {ch : Channel} {v : Nat} {c : ChannelRecord} (h : c.state = .armed) (hd : isDigital ch = false) :
    takeSample ch v c = judgeAnalog ch v c := by
  unfold takeSample
  rw [h]
  simp [hd]

end Sys2Proof.Machine
end

