-- ==== Sys2Proof/Laws/Rounds.lean ====
section
/-! SUPPORT. Rounds and custody: the frame of every operation of chapters 4 and 5, and what an outcome does to the queue. -/

namespace Sys2Proof.Machine

/-! ## The round list and the own round -/

theorem setRounds_sameBut (s : State) (l : List (Option RoundEntry)) : SameBut [.roundList] s (setRounds s l) := by
  intro q hq
  cases q <;> first | rfl | exact ⟨rfl, rfl⟩ | exact ⟨rfl, rfl, rfl⟩ | exact absurd (by decide) hq

theorem modRound_sameBut (n : Node) (k : Byte) (s : State) (f : RoundEntry → RoundEntry) :
    SameBut [.roundList] s (modRound s n k f) := setRounds_sameBut s _

theorem changeRounds_sameBut (s : State) (l : List (Option RoundEntry)) :
    SameBut [.roundList, .notice] s (changeRounds s l) :=
  (setRounds_sameBut s l).comp (openRoundNotice_sameBut s _) (by decide) (by decide)

theorem dropRound_sameBut (n : Node) (k : Byte) (s : State) : SameBut [.roundList, .notice] s (dropRound n k s) :=
  changeRounds_sameBut s _

/-- A round on slot 255 alone gives no notice (R85, R107): where no slot 0 to 63 gains or loses a round, the notice stands as it
stood. -/
theorem changeRounds_quiet {s : State} {l : List (Option RoundEntry)} (h : openRoundsDiffer s (setRounds s l) = false) :
    changeRounds s l = setRounds s l := by
  unfold changeRounds openRoundNotice
  simp [h]

theorem endPlain_sameBut (o : OrderOutcome) (d : Byte) (s : State) : SameBut ending s (endPlain o d s) := endItem_sameBut o d _ _ s

/-! ## What an outcome does (R63, R86) -/

theorem freeQueuedArea_rounds (x : CustodyItem) (s : State) : (freeQueuedArea x s).rounds = s.rounds := by
  unfold freeQueuedArea
  split <;> rfl

/-- The head item leaves the queue; the own round starts over, HELD when an item is left, NONE when none is (R63, R86). -/
theorem endItem_cons {x : CustodyItem} {rest : List CustodyItem} {s : State} (o : OrderOutcome) (d : Byte) (v : Half) (q : Word)
    (h : s.rounds.queue = x :: rest) :
    (endItem o d v q s).rounds.queue = rest ∧
      (endItem o d v q s).rounds.own = { OwnRound.empty with phase := if rest.isEmpty then .none else .held } := by
  unfold endItem
  rw [h]
  dsimp only
  rw [freeQueuedArea_rounds]
  exact ⟨rfl, rfl⟩

/-- Without an item the own round ends NONE. -/
theorem endItem_nil {s : State} (o : OrderOutcome) (d : Byte) (v : Half) (q : Word) (h : s.rounds.queue = []) :
    endItem o d v q s = setOwn s OwnRound.empty := by
  unfold endItem
  rw [h]

/-! ## Voting and counting -/

/-- What a round's progress may change: the list's votes, the own round, the frames it asks for. -/
def voting : List Part := [.txQueue, .segments, .queries, .ownRound, .roundList]

theorem decisionTest_sameBut (s : State) : SameBut [.txQueue, .segments, .queries, .ownRound] s (decisionTest s) := by
  unfold decisionTest
  dsimp only
  refine SameBut.ite (SameBut.refl _ s) (SameBut.ite ?_ (SameBut.ite ?_ (SameBut.refl _ s)))
  · exact (setOwn_sameBut s _).comp (request_sameBut _ _) (by decide) (by decide)
  · exact (setOwn_sameBut s _).comp (request_sameBut _ _) (by decide) (by decide)

theorem proposerEntry_sameBut (r : Round) (s : State) : SameBut voting s (proposerEntry r s) := by
  unfold proposerEntry
  dsimp only
  split
  · exact (setOwn_sameBut s _).mono (by decide)
  · exact (setOwn_sameBut s _).comp (request_sameBut _ _) (by decide) (by decide)

theorem castVote_sameBut (r : Round) (s : State) : SameBut voting s (castVote r s) := by
  unfold castVote
  dsimp only
  split
  · split
    · exact (modRound_sameBut _ _ s _).comp (request_sameBut _ _) (by decide) (by decide)
    · exact (modRound_sameBut _ _ s _).comp (request_sameBut _ _) (by decide) (by decide)
  · exact SameBut.refl _ s

theorem beginVote_sameBut (r : Round) (s : State) : SameBut voting s (beginVote r s) := by
  unfold beginVote
  split
  · split
    · exact SameBut.ite (proposerEntry_sameBut r s) (SameBut.refl _ s)
    · exact SameBut.ite (proposerEntry_sameBut r s) (SameBut.refl _ s)
    · exact SameBut.refl _ s
  · exact castVote_sameBut r s

theorem onAccept_sameBut (h : Header) (p n : Byte) (s : State) :
    SameBut [.txQueue, .segments, .queries, .ownRound] s (onAccept h p n s) := by
  unfold onAccept
  dsimp only
  exact SameBut.ite ((setOwn_sameBut s _).comp (decisionTest_sameBut _) (by decide) (by decide)) (SameBut.refl _ s)

theorem onRefuse_sameBut (h : Header) (p n r : Byte) (s : State) :
    SameBut [.txQueue, .segments, .queries, .ownRound] s (onRefuse h p n r s) := by
  unfold onRefuse
  dsimp only
  exact SameBut.ite ((setOwn_sameBut s _).comp (decisionTest_sameBut _) (by decide) (by decide)) (SameBut.refl _ s)

theorem onBody_sameBut (h : Header) (n : Byte) (k : Key) (c : Check) (s : State) : SameBut voting s (onBody h n k c s) := by
  unfold onBody
  split
  · exact SameBut.refl _ s
  · dsimp only
    exact SameBut.ite ((modRound_sameBut _ _ s _).comp (beginVote_sameBut _ _) (by decide) (by decide)) (SameBut.refl _ s)

/-- What a PROPOSE, or the end of the own proposal, may change. -/
def proposed : List Part := [.txQueue, .segments, .queries, .ownRound, .roundList, .custodyQueue, .areas, .notice]

theorem ownProposeIgnored_sameBut (c : Option OrderOutcome) (s : State) : SameBut proposed s (ownProposeIgnored c s) := by
  unfold ownProposeIgnored
  split
  · split
    · exact (endPlain_sameBut _ _ s).mono (by decide)
    · exact (setOwn_sameBut s _).mono (by decide)
  · exact SameBut.refl _ s

theorem withdrawForClash_sameBut (s : State) : SameBut proposed s (withdrawForClash s) := by
  unfold withdrawForClash
  split
  · split
    · exact SameBut.refl _ s
    · split
      · exact SameBut.refl _ s
      · dsimp only
        exact SameBut.ite ((retract_sameBut _ s).comp (setOwn_sameBut _ _) (by decide) (by decide))
          ((retract_sameBut _ s).comp (endPlain_sameBut _ _ _) (by decide) (by decide))
  · exact SameBut.refl _ s

theorem proposeWithdrawn_sameBut (s : State) : SameBut proposed s (proposeWithdrawn s) := by
  unfold proposeWithdrawn
  split
  · split
    · exact (endPlain_sameBut _ _ s).mono (by decide)
    · exact (setOwn_sameBut s _).mono (by decide)
  · exact SameBut.refl _ s

theorem ownProposeEntered_sameBut (b : ProposeBody) (s : State) : SameBut proposed s (ownProposeEntered b s) := by
  unfold ownProposeEntered
  dsimp only
  split
  · split
    · split
      · exact ((setOwn_sameBut s _).trans (setOwn_sameBut _ _)).comp (request_sameBut _ _) (by decide) (by decide)
      · exact ((setOwn_sameBut s _).trans (setOwn_sameBut _ _)).mono (by decide)
    · exact (setOwn_sameBut s _).mono (by decide)
  · exact SameBut.refl _ s

theorem onPropose_sameBut (h : Header) (b : ProposeBody) (s : State) : SameBut proposed s (onPropose h b s) := by
  unfold onPropose
  split
  · exact SameBut.refl _ s
  · dsimp only
    refine SameBut.ite (SameBut.refl _ s) (SameBut.ite (SameBut.ite (ownProposeIgnored_sameBut _ s) (SameBut.refl _ s)) ?_)
    have h1 : ∀ l, SameBut proposed s (changeRounds s l) := fun l => (changeRounds_sameBut s l).mono (by decide)
    have h2 : ∀ (own : Prop) [Decidable own] (l),
        SameBut proposed s (if own then ownProposeEntered b (changeRounds s l) else changeRounds s l) := fun own _ l =>
      SameBut.ite ((h1 l).trans (ownProposeEntered_sameBut _ _)) (h1 l)
    have h3 : ∀ (own : Prop) [Decidable own] (l r), SameBut proposed s
        (beginVote r (if own then ownProposeEntered b (changeRounds s l) else changeRounds s l)) := fun own _ l r =>
      (h2 own l).comp (beginVote_sameBut _ _) (by decide) (by decide)
    exact SameBut.ite (SameBut.ite (h2 _ _) (h3 _ _ _))
      ((SameBut.ite (h2 _ _) (h3 _ _ _)).trans (withdrawForClash_sameBut _))

theorem roundDeadline_sameBut (s : State) : SameBut [.txQueue, .segments, .queries, .ownRound] s (roundDeadline s) := by
  unfold roundDeadline
  dsimp only
  refine SameBut.ite (SameBut.ite ?_ ((setOwn_sameBut s _).mono (by decide))) (SameBut.refl _ s)
  refine SameBut.comp (c := [.txQueue, .segments, .queries, .ownRound]) ?_ (retract_sameBut _ _) (by decide) (by decide)
  exact ((setOwn_sameBut s _).trans (setOwn_sameBut _ _)).comp (request_sameBut _ _) (by decide) (by decide)

theorem onAbandon_sameBut (h : Header) (n r : Byte) (s : State) : SameBut proposed s (onAbandon h n r s) := by
  unfold onAbandon
  dsimp only
  have h1 : SameBut proposed s (if (findRound s h.src n).isSome then dropRound h.src n s else s) :=
    SameBut.ite ((dropRound_sameBut _ _ s).mono (by decide)) (SameBut.refl _ s)
  refine SameBut.ite (SameBut.refl _ s) (SameBut.ite ?_ h1)
  split
  · exact h1.comp (endPlain_sameBut _ _ _) (by decide) (by decide)
  · exact h1

theorem expelFromRounds_sameBut (k : StationId) (s : State) :
    SameBut [.roundList, .notice, .txQueue, .segments, .queries, .ownRound] s (expelFromRounds k s) := by
  unfold expelFromRounds
  dsimp only
  have h1 : ∀ l, SameBut [.roundList, .notice] s (changeRounds s l) := fun l => changeRounds_sameBut s l
  refine SameBut.ite ?_ ((h1 _).mono (by decide))
  refine SameBut.comp (c := [.roundList, .notice, .ownRound]) ?_ (decisionTest_sameBut _) (by decide) (by decide)
  exact (h1 _).comp (setOwn_sameBut _ _) (by decide) (by decide)

/-! ## Custody -/

theorem setArea_sameBut (s : State) (a : AreaId) (x : Option Area) : SameBut [.areas] s (setArea s a x) := areas_sameBut s _

theorem refuseOrder_sameBut (h : Header) (k : Byte) (b : OrderBody) (o : OrderOutcome) (d : Byte) (s : State) :
    SameBut admitting s (refuseOrder h k b o d s) := request_sameBut _ s

/-- An order that a test turns away is reported and does nothing else; one that passes is handed to its kind (R90 to R95). -/
theorem orderArrives_sameBut {c : List Part} (k : Byte) (accept : State → State) (h : Header) (b : OrderBody) (s : State)
    (ha : SameBut c s (accept s)) (hc : ∀ p, p ∈ admitting → p ∈ c) : SameBut c s (orderArrives k accept h b s) := by
  have hr : ∀ o d, SameBut c s (refuseOrder h k b o d s) := fun o d => (refuseOrder_sameBut h k b o d s).mono hc
  unfold orderArrives
  exact SameBut.ite (SameBut.refl _ s) (SameBut.ite (hr _ _) (SameBut.ite (hr _ _) (SameBut.ite (hr _ _) ha)))

theorem acceptRoundOrder_sameBut (k : ChangeKind) (h : Header) (b : OrderBody) (s : State) :
    SameBut [.txQueue, .segments, .queries, .custodyQueue, .ownRound] s (acceptRoundOrder k h b s) := by
  unfold acceptRoundOrder
  exact SameBut.ite ((refuseOrder_sameBut _ _ _ _ _ s).mono (by decide)) ((addItem_sameBut _ s).mono (by decide))

theorem refuseComponent_sameBut (h : Header) (b : ComponentBody) (d : AssemblyDetail) (s : State) :
    SameBut admitting s (refuseComponent h b d s) := by
  unfold refuseComponent
  split
  · exact request_sameBut _ s
  · exact request_sameBut _ s

/-- What a slot component may change. -/
def assembling : List Part := [.txQueue, .segments, .queries, .areas]

theorem completeSlot_sameBut (h : Header) (b : ComponentBody) (a : AreaId) (x : Area) (s : State) :
    SameBut assembling s (completeSlot h b a x s) := by
  unfold completeSlot
  dsimp only
  split
  · split
    · exact SameBut.refl _ s
    · exact (setArea_sameBut s a _).comp (request_sameBut _ _) (by decide) (by decide)
  · exact (setArea_sameBut s a _).comp (request_sameBut _ _) (by decide) (by decide)

theorem takeSlotComponent_sameBut (h : Header) (b : ComponentBody) (a : AreaId) (x : Area) (s : State) :
    SameBut assembling s (takeSlotComponent h b a x s) := by
  unfold takeSlotComponent
  dsimp only
  exact SameBut.ite (completeSlot_sameBut h b a _ s)
    ((setArea_sameBut s a _).comp (request_sameBut _ _) (by decide) (by decide))

theorem onComponentSlot_sameBut (h : Header) (b : ComponentBody) (s : State) : SameBut assembling s (onComponentSlot h b s) := by
  have hr : ∀ d, SameBut assembling s (refuseComponent h b d s) := fun d => (refuseComponent_sameBut h b d s).mono (by decide)
  unfold onComponentSlot
  refine SameBut.ite (hr _) (SameBut.ite (SameBut.refl _ s) (SameBut.ite (hr _) (SameBut.ite (hr _) (SameBut.ite (hr _) ?_))))
  split
  · exact hr _
  · exact SameBut.ite (hr _) (takeSlotComponent_sameBut h b _ _ s)

theorem areaTimeout_sameBut (a : AreaId) (s : State) : SameBut assembling s (areaTimeout a s) := by
  unfold areaTimeout
  split
  · exact SameBut.refl _ s
  · split
    · exact SameBut.refl _ s
    · exact (setArea_sameBut s a _).comp (request_sameBut _ _) (by decide) (by decide)

end Sys2Proof.Machine
end

