-- ==== Sys2Proof/Laws/Members.lean ====
section
/-! SUPPORT. Catch-up and membership: the frame of every operation of chapters 2 and 6. -/

namespace Sys2Proof.Machine

/-! ## Catch-up -/

theorem setCatchUp_pulling (s : State) (c : CatchUp) (ha : c.attempts = s.catchUp.attempts) (hs : c.serve = s.catchUp.serve) :
    SameBut [.pulling] s (setCatchUp s c) := by
  intro q hq
  cases q <;> first | rfl | exact ⟨rfl, rfl⟩ | exact ⟨rfl, rfl, rfl⟩ | exact absurd (by decide) hq | exact ha | exact hs

theorem setCatchUp_sameBut (s : State) (c : CatchUp) : SameBut [.pulling, .attempts, .serve] s (setCatchUp s c) := by
  intro q hq
  cases q <;> first | rfl | exact ⟨rfl, rfl⟩ | exact ⟨rfl, rfl, rfl⟩ | exact absurd (by decide) hq

theorem queuePull_sameBut (s : State) : SameBut admitting s (queuePull s) := by
  unfold queuePull
  split
  · exact SameBut.refl _ s
  · exact request_sameBut _ s

theorem startAttempt_sameBut (k : StationId) (s : State) :
    SameBut [.txQueue, .segments, .queries, .pulling, .attempts] s (startAttempt k s) := by
  unfold startAttempt
  refine SameBut.comp (c := [.pulling, .attempts]) ?_ (queuePull_sameBut _) (by decide) (by decide)
  intro q hq
  cases q <;> first | rfl | exact ⟨rfl, rfl⟩ | exact ⟨rfl, rfl, rfl⟩ | exact absurd (by decide) hq

/-- What the choice of a next attempt, a failure or an AHEAD check may change. -/
def attempting : List Part :=
  [.txQueue, .segments, .queries, .attempts, .station, .live, .heard, .windowOpen, .watches, .entries, .locals, .gatewayWatches,
   .notice, .usage, .roundList, .areas, .pulling, .serve]

theorem nextAttempt_sameBut (f : Option StationId) (s : State) : SameBut attempting s (nextAttempt f s) := by
  unfold nextAttempt
  split
  · exact (enterListening_sameBut s).mono (by decide)
  · exact (startAttempt_sameBut _ s).mono (by decide)

theorem aheadCheck_sameBut (k : StationId) (q : Word) (s : State) : SameBut attempting s (aheadCheck k q s) :=
  SameBut.ite ((enterDetached_sameBut _ s).mono (by decide)) ((startAttempt_sameBut k s).mono (by decide))

theorem toCatchup_sameBut (s : State) :
    SameBut [.station, .windowOpen, .yieldMark] s
      { s with memb := { s.memb with state := .catchup, windowOpen := false, yieldMark := false } } := by
  intro q hq
  cases q <;> first | rfl | exact ⟨rfl, rfl⟩ | exact ⟨rfl, rfl, rfl⟩ | exact absurd (by decide) hq

theorem enterCatchup_sameBut (s : State) : SameBut (.yieldMark :: attempting) s (enterCatchupFromListening s) := by
  unfold enterCatchupFromListening
  split
  · exact (enterListening_sameBut s).mono (by decide)
  · dsimp only
    have h := toCatchup_sameBut s
    refine SameBut.ite (h.comp (startAttempt_sameBut _ _) (by decide) (by decide)) ?_
    split
    · exact h.comp (aheadCheck_sameBut _ _ _) (by decide) (by decide)
    · refine SameBut.comp h (d := [.pulling]) ?_ (by decide) (by decide)
      exact setCatchUp_pulling _ _ rfl rfl

theorem markPullsStale_sameBut (s : State) : SameBut [.txQueue] s (markPullsStale s) := queueUpdate_sameBut s _ _ _

theorem failAttempt_sameBut (s : State) : SameBut attempting s (failAttempt s) := by
  unfold failAttempt
  dsimp only
  have h1 := ((retract_sameBut isPull s).comp (markPullsStale_sameBut _) (e := admitting) (by decide) (by decide)).comp
    (setRounds_sameBut _ (closeUp (markPullsStale (retract isPull s)).rounds.list)) (e := .roundList :: admitting) (by decide)
    (by decide)
  have h : ∀ c, SameBut attempting s (setCatchUp (setRounds (markPullsStale (retract isPull s))
      (closeUp (markPullsStale (retract isPull s)).rounds.list)) c) := fun c =>
    h1.comp (setCatchUp_sameBut _ c) (by decide) (by decide)
  refine SameBut.ite ((h _).comp (enterDetached_sameBut _ _) (by decide) (by decide))
    (SameBut.ite ((h _).comp (enterListening_sameBut _) (by decide) (by decide))
      ((h _).comp (nextAttempt_sameBut _ _) (by decide) (by decide)))

theorem failJoining_sameBut (c : FailCause) (s : State) : SameBut attempting s (failJoining c s) := by
  unfold failJoining
  dsimp only
  exact SameBut.ite ((retract_sameBut _ s).comp (setCatchUp_sameBut _ _) (by decide) (by decide))
    ((retract_sameBut _ s).comp (failAttempt_sameBut _) (by decide) (by decide))

theorem findFailure_sameBut (c : FailCause) (s : State) : SameBut attempting s (findFailure c s) := by
  unfold findFailure
  split
  · exact SameBut.refl _ s
  · exact failJoining_sameBut c s
  · exact failAttempt_sameBut s
  · exact failAttempt_sameBut s
  · exact failAttempt_sameBut s

theorem pullTimedOut_sameBut (s : State) : SameBut attempting s (pullTimedOut s) :=
  SameBut.ite (findFailure_sameBut _ s) (SameBut.refl _ s)

theorem verificationTimedOut_sameBut (s : State) : SameBut attempting s (verificationTimedOut s) :=
  SameBut.ite (findFailure_sameBut _ s) (SameBut.refl _ s)

theorem serveHead_sameBut (s : State) : SameBut admitting s (serveHead s) := by
  unfold serveHead
  split
  · exact SameBut.refl _ s
  · exact SameBut.foldl (fun s _ => request_sameBut _ s) _ s

theorem setServe_sameBut (s : State) (l : List PullEntry) : SameBut [.serve] s (setCatchUp s { s.catchUp with serve := l }) :=
  serve_sameBut s l

theorem onPull_sameBut (h : Header) (a i : Byte) (s : State) : SameBut [.txQueue, .segments, .queries, .serve] s (onPull h a i s) := by
  unfold onPull
  split
  · exact SameBut.refl _ s
  · dsimp only
    exact SameBut.ite (SameBut.ite ((setServe_sameBut s _).comp (serveHead_sameBut _) (by decide) (by decide))
      ((setServe_sameBut s _).mono (by decide))) (SameBut.refl _ s)

theorem imageSent_sameBut (n : Node) (a i : Byte) (s : State) :
    SameBut [.txQueue, .segments, .queries, .serve] s (imageSent n a i s) := by
  unfold imageSent
  split
  · exact SameBut.refl _ s
  · dsimp only
    exact SameBut.ite (SameBut.ite ((setServe_sameBut s _).comp (serveHead_sameBut _) (by decide) (by decide))
      ((setServe_sameBut s _).mono (by decide))) (SameBut.refl _ s)

theorem pullSent_sameBut (b : Bool) (s : State) : SameBut [.pulling] s (pullSent b s) := by
  unfold pullSent
  dsimp only
  exact SameBut.ite (SameBut.refl _ s) (setCatchUp_pulling s _ rfl rfl)

theorem tookItem_sameBut (a i : Byte) (s : State) : SameBut [.pulling] s (tookItem a i s) :=
  SameBut.ite (setCatchUp_pulling s _ rfl rfl) (SameBut.refl _ s)

theorem burstDone_sameBut (s : State) : SameBut [.txQueue, .segments, .queries, .pulling] s (burstDone s) := by
  unfold burstDone
  refine SameBut.ite ?_ ?_
  · have h := setCatchUp_pulling s { s.catchUp with pullTimer := false, pullIndex := s.catchUp.pullIndex + 1 } rfl rfl
    exact h.comp (queuePull_sameBut _) (by decide) (by decide)
  · have h := setCatchUp_pulling s { s.catchUp with pullTimer := false, phase := .verifying, verifyTimer := true } rfl rfl
    exact h.mono (by decide)

theorem liveSet_sameBut (s : State) (l : StationSet) : SameBut [.live] s { s with memb := { s.memb with live := l } } := by
  intro q hq
  cases q <;> first | rfl | exact ⟨rfl, rfl⟩ | exact ⟨rfl, rfl, rfl⟩ | exact absurd (by decide) hq

/-- What an image's contents may change: the live set, a round, a slot with its usage, a line (R116). -/
def imaging : List Part := [.live, .roundList, .notice, .slots, .usage, .entries, .locals, .gatewayWatches]

theorem settlePlaces_sameBut (s : State) : SameBut [.roundList] s (settlePlaces s) :=
  SameBut.ite (SameBut.refl _ s) (setRounds_sameBut s _)

theorem imageSlot_sameBut (s : State) (i : SlotId) (x : Slot) (u : Usage) :
    SameBut [.slots, .usage] s { s with dir := (s.dir.setSlot i x).setUsage i u } := by
  intro q hq
  cases q <;> first | rfl | exact ⟨rfl, rfl⟩ | exact ⟨rfl, rfl, rfl⟩ | exact absurd (by decide) hq

theorem overwriteItem_sameBut (x : ImageItem) (s : State) : SameBut imaging s (overwriteItem x s) := by
  unfold overwriteItem
  split
  · exact (liveSet_sameBut s _).mono (by decide)
  · exact ((setRounds_sameBut s _).trans (settlePlaces_sameBut _)).comp (openRoundNotice_sameBut s _) (by decide) (by decide)
  · exact (imageSlot_sameBut s _ _ _).comp (giveNotice_sameBut _) (by decide) (by decide)
  · exact (imageLine_sameBut s _ _).mono (by decide)

theorem seq_sameBut (s : State) (q : Word) : SameBut [.seq] s { s with dir := { s.dir with seq := q } } := by
  intro q hq
  cases q <;> first | rfl | exact ⟨rfl, rfl⟩ | exact ⟨rfl, rfl, rfl⟩ | exact absurd (by decide) hq

theorem onImage_sameBut (h : Header) (a i : Byte) (q : Word) (bs : List Byte) (s : State) :
    SameBut (.seq :: .slots :: attempting) s (onImage h a i q bs s) := by
  unfold onImage
  split
  · exact SameBut.refl _ s
  · dsimp only
    refine SameBut.ite ?_ (SameBut.refl _ s)
    have h1 : ∀ x, SameBut (.seq :: .pulling :: imaging) s
        (overwriteItem x (tookItem a i { s with dir := { s.dir with seq := q } })) := fun x =>
      ((seq_sameBut s q).comp (tookItem_sameBut a i _) (e := [.seq, .pulling]) (by decide) (by decide)).comp
        (overwriteItem_sameBut x _) (by decide) (by decide)
    exact SameBut.ite ((h1 _).comp (findFailure_sameBut _ _) (by decide) (by decide))
      (SameBut.ite ((h1 _).comp (burstDone_sameBut _) (by decide) (by decide)) ((h1 _).mono (by decide)))

theorem beginJoining_sameBut (s : State) : SameBut [.txQueue, .segments, .queries, .pulling] s (beginJoining s) :=
  SameBut.comp (setCatchUp_pulling s { s.catchUp with phase := .joining, verifyTimer := false } rfl rfl) (request_sameBut _ _)
    (by decide) (by decide)

theorem sourceHeard_sameBut (b : PresenceBody) (k : StationId) (s : State) : SameBut attempting s (sourceHeard b k s) := by
  have hf : ∀ c, SameBut attempting s (findFailure c s) := fun c => findFailure_sameBut c s
  unfold sourceHeard
  dsimp only
  split
  · exact SameBut.refl _ s
  · refine SameBut.ite (SameBut.comp (c := [.pulling]) ?_ (aheadCheck_sameBut _ _ _) (by decide) (by decide)) (hf _)
    exact setCatchUp_pulling s _ rfl rfl
  · exact SameBut.ite (SameBut.refl _ s) (hf _)
  · exact SameBut.ite ((beginJoining_sameBut s).mono (by decide)) (SameBut.ite (hf _) (hf _))
  · exact SameBut.ite (SameBut.refl _ s) (hf _)

theorem catchUpPresence_sameBut (k : StationId) (b : PresenceBody) (s : State) : SameBut attempting s (catchUpPresence k b s) :=
  SameBut.ite (sourceHeard_sameBut b k s) (SameBut.refl _ s)

/-! ## Membership -/

theorem setPeer_sameBut (s : State) (k : StationId) (r : PeerRecord) : SameBut [.peers] s (setPeer s k r) := by
  intro q hq
  cases q <;> first | rfl | exact ⟨rfl, rfl⟩ | exact ⟨rfl, rfl, rfl⟩ | exact absurd (by decide) hq

theorem setSilence_sameBut (s : State) (k : StationId) (t : TimerState) : SameBut [.watches] s (setSilence s k t) := by
  intro q hq
  cases q <;> first | rfl | exact ⟨rfl, rfl⟩ | exact ⟨rfl, rfl, rfl⟩ | exact absurd (by decide) hq

theorem recordPresence_sameBut (k : StationId) (st : StationState) (b : PresenceBody) (s : State) :
    SameBut [.peers] s (recordPresence k st b s) := setPeer_sameBut s k _

theorem recordJoin_sameBut (u : State) (k : StationId) (b : JoinBody) (s : State) :
    SameBut [.peers] s (recordJoin u k b s) := setPeer_sameBut s k _

theorem ensureSilent_sameBut (k : StationId) (s : State) : SameBut admitting s (ensureSilent k s) :=
  SameBut.ite (SameBut.refl _ s) (request_sameBut _ s)

theorem silentUpkeep_sameBut (s : State) : SameBut admitting s (silentUpkeep s) := by
  unfold silentUpkeep
  dsimp only
  refine SameBut.ite ?_ (SameBut.refl _ s)
  split
  · exact SameBut.refl _ s
  · exact SameBut.ite (ensureSilent_sameBut _ s) (retract_sameBut _ s)

theorem silenceExpired_sameBut (k : StationId) (s : State) : SameBut (.watches :: admitting) s (silenceExpired k s) := by
  unfold silenceExpired
  dsimp only
  have h := setSilence_sameBut s k .expired
  exact SameBut.ite (SameBut.ite (h.comp (ensureSilent_sameBut k _) (by decide) (by decide))
    (h.comp (silentUpkeep_sameBut _) (by decide) (by decide))) (SameBut.refl _ s)

theorem dutyGained_sameBut (s : State) : SameBut admitting s (dutyGained s) := by
  unfold dutyGained
  refine SameBut.trans ?_ (lineDutyGained_sameBut _)
  exact SameBut.foldl (fun s k => SameBut.ite (ensureSilent_sameBut k s) (SameBut.refl _ s)) _ s

theorem dutyLost_sameBut (s : State) : SameBut admitting s (dutyLost s) :=
  ((retract_sameBut _ s).trans (retract_sameBut _ _)).trans (retract_sameBut _ _)

/-- What a change of a LIVE station's live set may change. -/
def regrouping : List Part := [.txQueue, .segments, .queries, .ownRound, .notice]

theorem liveSetChanged_sameBut (d : Bool) (s : State) : SameBut regrouping s (liveSetChanged d s) := by
  unfold liveSetChanged
  dsimp only
  refine SameBut.comp (c := regrouping) ?_ (giveNotice_sameBut _) (by decide) (by decide)
  refine SameBut.comp (c := regrouping) ?_ (silentUpkeep_sameBut _) (by decide) (by decide)
  have h1 : SameBut admitting s
      (if (d && !duty s) = true then dutyLost s else if (!d && duty s) = true then dutyGained s else s) :=
    SameBut.ite (dutyLost_sameBut s) (SameBut.ite (dutyGained_sameBut s) (SameBut.refl _ s))
  exact SameBut.ite (h1.mono (by decide)) (h1.comp (withdrawPropose_sameBut _) (by decide) (by decide))

/-- What entry to LIVE may change. -/
def goingLive : List Part :=
  [.station, .windowOpen, .watches, .pulling, .txQueue, .segments, .queries, .notice, .pool, .leaving, .ownRound, .serve]

theorem enterLive_sameBut (s : State) : SameBut goingLive s (enterLive s) := by
  unfold enterLive
  dsimp only
  have h0 : SameBut goingLive s { s with
      memb := { s.memb with
        state := .live, cause := none, windowOpen := false, watches := startedWatches (self s) s.memb.live }
      catchUp := { idleCatchUp s.catchUp with failures := 0 } } := by
    intro q hq
    cases q <;> first | rfl | exact ⟨rfl, rfl⟩ | exact ⟨rfl, rfl, rfl⟩ | exact absurd (by decide) hq
  have h1 : ∀ u, SameBut goingLive s u → SameBut goingLive s (giveNotice (if duty u then dutyGained u else silentUpkeep u)) := fun u hu =>
    SameBut.comp (c := goingLive) (SameBut.ite (hu.comp (dutyGained_sameBut u) (by decide) (by decide))
        (hu.comp (silentUpkeep_sameBut u) (by decide) (by decide)))
      (giveNotice_sameBut _) (by decide) (by decide)
  exact SameBut.ite ((h1 _ h0).comp (selfExpel_sameBut _ _) (by decide) (by decide)) (h1 _ h0)

theorem founderCheck_sameBut (s : State) : SameBut (.yieldMark :: attempting) s (founderCheck s) := by
  unfold founderCheck
  dsimp only
  exact SameBut.ite (SameBut.ite ((retract_sameBut _ s).mono (by decide))
    ((retract_sameBut _ s).comp (enterCatchup_sameBut _) (by decide) (by decide))) (SameBut.refl _ s)

theorem heard_sameBut (s : State) (v : Vector (Option HeardRecord) 8) :
    SameBut [.heard] s { s with memb := { s.memb with heard := v } } := by
  intro q hq
  cases q <;> first | rfl | exact ⟨rfl, rfl⟩ | exact ⟨rfl, rfl, rfl⟩ | exact absurd (by decide) hq

theorem windowShut_sameBut (s : State) : SameBut [.windowOpen] s { s with memb := { s.memb with windowOpen := false } } := by
  intro q hq
  cases q <;> first | rfl | exact ⟨rfl, rfl⟩ | exact ⟨rfl, rfl, rfl⟩ | exact absurd (by decide) hq

theorem listeningExpired_sameBut (s : State) : SameBut (.yieldMark :: attempting) s (listeningExpired s) := by
  unfold listeningExpired
  dsimp only
  exact SameBut.ite (SameBut.ite (enterCatchup_sameBut s) (SameBut.ite
    ((windowShut_sameBut s).comp (request_sameBut _ _) (by decide) (by decide)) ((heard_sameBut s _).mono (by decide))))
    (SameBut.refl _ s)

theorem listeningPresence_sameBut (k : StationId) (st : StationState) (b : PresenceBody) (s : State) :
    SameBut (.yieldMark :: attempting) s (listeningPresence k st b s) := by
  unfold listeningPresence
  dsimp only
  have h1 : SameBut [.heard] s (if (s.memb.windowOpen && k != self s) = true then
      { s with memb := { s.memb with heard := tset s.memb.heard k (some ⟨st, b.seq, b.yield, b.check⟩) } } else s) :=
    SameBut.ite (heard_sameBut s _) (SameBut.refl _ s)
  refine SameBut.ite ?_ (h1.mono (by decide))
  exact (h1.comp (liveSet_sameBut _ _) (e := [.heard, .live]) (by decide) (by decide)).comp (founderCheck_sameBut _)
    (by decide) (by decide)

theorem watchPresence_sameBut (k : StationId) (st : StationState) (s : State) :
    SameBut (.watches :: admitting) s (watchPresence k st s) := by
  unfold watchPresence
  dsimp only
  have h := setSilence_sameBut s k .running
  exact SameBut.ite (h.comp ((retract_sameBut _ _).trans (silentUpkeep_sameBut _)) (by decide) (by decide))
    (SameBut.ite (h.comp (ensureSilent_sameBut k _) (by decide) (by decide))
      (h.comp (silentUpkeep_sameBut _) (by decide) (by decide)))

theorem presenceCauses_sameBut (k : StationId) (b : PresenceBody) (s : State) : SameBut departing s (presenceCauses k b s) := by
  unfold presenceCauses
  split
  · exact selfExpel_sameBut _ s
  · split
    · exact SameBut.ite (selfExpel_sameBut _ s) (SameBut.refl _ s)
    · exact SameBut.refl _ s

theorem livePresence_sameBut (k : StationId) (st : StationState) (b : PresenceBody) (s : State) :
    SameBut (.watches :: departing) s (livePresence k st b s) := by
  unfold livePresence
  dsimp only
  have h := watchPresence_sameBut k st s
  exact SameBut.ite (SameBut.ite (h.comp (presenceCauses_sameBut k b _) (by decide) (by decide)) (h.mono (by decide)))
    (SameBut.refl _ s)

/-- What a PRESENCE or a JOIN may change, whatever the station state. -/
def meeting : List Part := .yieldMark :: .peers :: .pool :: .leaving :: .ownRound :: attempting

theorem onPresence_sameBut (h : Header) (b : PresenceBody) (s : State) : SameBut meeting s (onPresence h b s) := by
  unfold onPresence
  split
  · dsimp only
    refine SameBut.ite ?_ (SameBut.refl _ s)
    rename_i k st _ _
    have h := recordPresence_sameBut k st b s
    split
    · exact h.comp (livePresence_sameBut _ _ _ _) (by decide) (by decide)
    · exact h.comp (listeningPresence_sameBut _ _ _ _) (by decide) (by decide)
    · exact h.comp (catchUpPresence_sameBut _ _ _) (by decide) (by decide)
    · exact h.mono (by decide)
  · exact SameBut.refl _ s

theorem joinTaken_sameBut (k : StationId) (d : Bool) (s : State) : SameBut meeting s (joinTaken k d s) := by
  unfold joinTaken
  split
  · exact (enterLive_sameBut s).mono (by decide)
  · split
    · exact (setSilence_sameBut s k _).comp (liveSetChanged_sameBut d _) (by decide) (by decide)
    · exact (founderCheck_sameBut s).mono (by decide)
    · exact SameBut.refl _ s

theorem onJoin_sameBut (h : Header) (b : JoinBody) (s : State) : SameBut meeting s (onJoin h b s) := by
  unfold onJoin
  split
  · exact SameBut.refl _ s
  · dsimp only
    refine SameBut.ite (SameBut.refl _ s) (SameBut.ite ?_ ?_)
    · refine SameBut.comp (c := [.live, .peers]) ?_ (joinTaken_sameBut _ _ _) (by decide) (by decide)
      exact (liveSet_sameBut s _).comp (recordJoin_sameBut _ _ _ _) (by decide) (by decide)
    · exact SameBut.ite ((failAttempt_sameBut s).mono (by decide)) (SameBut.refl _ s)

theorem onJoinFounding_sameBut (h : Header) (b : JoinBody) (s : State) : SameBut meeting s (onJoinFounding h b s) := by
  unfold onJoinFounding
  split
  · exact SameBut.refl _ s
  · dsimp only
    refine SameBut.ite (SameBut.refl _ s) (SameBut.ite ?_ ?_)
    · refine SameBut.comp (c := [.live, .peers]) ?_ (joinTaken_sameBut _ _ _) (by decide) (by decide)
      exact (liveSet_sameBut s _).comp (recordJoin_sameBut _ _ _ _) (by decide) (by decide)
    · exact SameBut.ite ((enterCatchup_sameBut s).mono (by decide)) (SameBut.refl _ s)

/-- What the removal of a member may change (R30). -/
def removing : List Part :=
  [.live, .watches, .roundList, .notice, .txQueue, .segments, .queries, .ownRound, .usage, .entries, .locals]

theorem removeMember_sameBut (k : StationId) (s : State) : SameBut removing s (removeMember k s) := by
  unfold removeMember
  dsimp only
  refine SameBut.comp (c := removing) ?_ (retract_sameBut _ _) (by decide) (by decide)
  refine SameBut.comp (c := removing) ?_ (setSilence_sameBut _ _ _) (by decide) (by decide)
  refine SameBut.comp (c := removing) ?_ (expelFromLines_sameBut _ _) (by decide) (by decide)
  exact (liveSet_sameBut s _).comp (expelFromRounds_sameBut _ _) (by decide) (by decide)

end Sys2Proof.Machine
end

