-- ==== Sys2Proof/Laws/State.lean ====
section
/-! SUPPORT. Reading every field of State after every named update: true by rfl, so that no proof unfolds a record update. -/

namespace Sys2Proof.Machine

/-! ### setBus -/

@[simp] theorem setBus_inputs (s : State) (b : Bus) : (setBus s b).inputs = s.inputs := rfl
@[simp] theorem setBus_straps (s : State) (b : Bus) : (setBus s b).straps = s.straps := rfl
@[simp] theorem setBus_link (s : State) (b : Bus) : (setBus s b).link = { s.link with bus := b } := rfl
@[simp] theorem setBus_memb (s : State) (b : Bus) : (setBus s b).memb = s.memb := rfl
@[simp] theorem setBus_dir (s : State) (b : Bus) : (setBus s b).dir = s.dir := rfl
@[simp] theorem setBus_rounds (s : State) (b : Bus) : (setBus s b).rounds = s.rounds := rfl
@[simp] theorem setBus_cust (s : State) (b : Bus) : (setBus s b).cust = s.cust := rfl
@[simp] theorem setBus_catchUp (s : State) (b : Bus) : (setBus s b).catchUp = s.catchUp := rfl
@[simp] theorem setBus_lines (s : State) (b : Bus) : (setBus s b).lines = s.lines := rfl
@[simp] theorem setBus_pool (s : State) (b : Bus) : (setBus s b).pool = s.pool := rfl
@[simp] theorem setBus_engine (s : State) (b : Bus) : (setBus s b).engine = s.engine := rfl
@[simp] theorem setBus_tamper (s : State) (b : Bus) : (setBus s b).tamper = s.tamper := rfl
@[simp] theorem setBus_rep (s : State) (b : Bus) : (setBus s b).rep = s.rep := rfl
@[simp] theorem setBus_wirePlace (s : State) (b : Bus) : (setBus s b).wirePlace = s.wirePlace := rfl
@[simp] theorem setBus_freeIndex (s : State) (b : Bus) : (setBus s b).freeIndex = s.freeIndex := rfl
@[simp] theorem setBus_pending (s : State) (b : Bus) : (setBus s b).pending = s.pending := rfl

/-! ### setOwn -/

@[simp] theorem setOwn_inputs (s : State) (o : OwnRound) : (setOwn s o).inputs = s.inputs := rfl
@[simp] theorem setOwn_straps (s : State) (o : OwnRound) : (setOwn s o).straps = s.straps := rfl
@[simp] theorem setOwn_link (s : State) (o : OwnRound) : (setOwn s o).link = s.link := rfl
@[simp] theorem setOwn_memb (s : State) (o : OwnRound) : (setOwn s o).memb = s.memb := rfl
@[simp] theorem setOwn_dir (s : State) (o : OwnRound) : (setOwn s o).dir = s.dir := rfl
@[simp] theorem setOwn_rounds (s : State) (o : OwnRound) : (setOwn s o).rounds = { s.rounds with own := o } := rfl
@[simp] theorem setOwn_cust (s : State) (o : OwnRound) : (setOwn s o).cust = s.cust := rfl
@[simp] theorem setOwn_catchUp (s : State) (o : OwnRound) : (setOwn s o).catchUp = s.catchUp := rfl
@[simp] theorem setOwn_lines (s : State) (o : OwnRound) : (setOwn s o).lines = s.lines := rfl
@[simp] theorem setOwn_pool (s : State) (o : OwnRound) : (setOwn s o).pool = s.pool := rfl
@[simp] theorem setOwn_engine (s : State) (o : OwnRound) : (setOwn s o).engine = s.engine := rfl
@[simp] theorem setOwn_tamper (s : State) (o : OwnRound) : (setOwn s o).tamper = s.tamper := rfl
@[simp] theorem setOwn_rep (s : State) (o : OwnRound) : (setOwn s o).rep = s.rep := rfl
@[simp] theorem setOwn_wirePlace (s : State) (o : OwnRound) : (setOwn s o).wirePlace = s.wirePlace := rfl
@[simp] theorem setOwn_freeIndex (s : State) (o : OwnRound) : (setOwn s o).freeIndex = s.freeIndex := rfl
@[simp] theorem setOwn_pending (s : State) (o : OwnRound) : (setOwn s o).pending = s.pending := rfl

/-! ### setRounds -/

@[simp] theorem setRounds_inputs (s : State) (l : List (Option RoundEntry)) : (setRounds s l).inputs = s.inputs := rfl
@[simp] theorem setRounds_straps (s : State) (l : List (Option RoundEntry)) : (setRounds s l).straps = s.straps := rfl
@[simp] theorem setRounds_link (s : State) (l : List (Option RoundEntry)) : (setRounds s l).link = s.link := rfl
@[simp] theorem setRounds_memb (s : State) (l : List (Option RoundEntry)) : (setRounds s l).memb = s.memb := rfl
@[simp] theorem setRounds_dir (s : State) (l : List (Option RoundEntry)) : (setRounds s l).dir = s.dir := rfl
@[simp] theorem setRounds_rounds (s : State) (l : List (Option RoundEntry)) : (setRounds s l).rounds = { s.rounds with list := l } := rfl
@[simp] theorem setRounds_cust (s : State) (l : List (Option RoundEntry)) : (setRounds s l).cust = s.cust := rfl
@[simp] theorem setRounds_catchUp (s : State) (l : List (Option RoundEntry)) : (setRounds s l).catchUp = s.catchUp := rfl
@[simp] theorem setRounds_lines (s : State) (l : List (Option RoundEntry)) : (setRounds s l).lines = s.lines := rfl
@[simp] theorem setRounds_pool (s : State) (l : List (Option RoundEntry)) : (setRounds s l).pool = s.pool := rfl
@[simp] theorem setRounds_engine (s : State) (l : List (Option RoundEntry)) : (setRounds s l).engine = s.engine := rfl
@[simp] theorem setRounds_tamper (s : State) (l : List (Option RoundEntry)) : (setRounds s l).tamper = s.tamper := rfl
@[simp] theorem setRounds_rep (s : State) (l : List (Option RoundEntry)) : (setRounds s l).rep = s.rep := rfl
@[simp] theorem setRounds_wirePlace (s : State) (l : List (Option RoundEntry)) : (setRounds s l).wirePlace = s.wirePlace := rfl
@[simp] theorem setRounds_freeIndex (s : State) (l : List (Option RoundEntry)) : (setRounds s l).freeIndex = s.freeIndex := rfl
@[simp] theorem setRounds_pending (s : State) (l : List (Option RoundEntry)) : (setRounds s l).pending = s.pending := rfl

/-! ### setCatchUp -/

@[simp] theorem setCatchUp_inputs (s : State) (c : CatchUp) : (setCatchUp s c).inputs = s.inputs := rfl
@[simp] theorem setCatchUp_straps (s : State) (c : CatchUp) : (setCatchUp s c).straps = s.straps := rfl
@[simp] theorem setCatchUp_link (s : State) (c : CatchUp) : (setCatchUp s c).link = s.link := rfl
@[simp] theorem setCatchUp_memb (s : State) (c : CatchUp) : (setCatchUp s c).memb = s.memb := rfl
@[simp] theorem setCatchUp_dir (s : State) (c : CatchUp) : (setCatchUp s c).dir = s.dir := rfl
@[simp] theorem setCatchUp_rounds (s : State) (c : CatchUp) : (setCatchUp s c).rounds = s.rounds := rfl
@[simp] theorem setCatchUp_cust (s : State) (c : CatchUp) : (setCatchUp s c).cust = s.cust := rfl
@[simp] theorem setCatchUp_catchUp (s : State) (c : CatchUp) : (setCatchUp s c).catchUp = c := rfl
@[simp] theorem setCatchUp_lines (s : State) (c : CatchUp) : (setCatchUp s c).lines = s.lines := rfl
@[simp] theorem setCatchUp_pool (s : State) (c : CatchUp) : (setCatchUp s c).pool = s.pool := rfl
@[simp] theorem setCatchUp_engine (s : State) (c : CatchUp) : (setCatchUp s c).engine = s.engine := rfl
@[simp] theorem setCatchUp_tamper (s : State) (c : CatchUp) : (setCatchUp s c).tamper = s.tamper := rfl
@[simp] theorem setCatchUp_rep (s : State) (c : CatchUp) : (setCatchUp s c).rep = s.rep := rfl
@[simp] theorem setCatchUp_wirePlace (s : State) (c : CatchUp) : (setCatchUp s c).wirePlace = s.wirePlace := rfl
@[simp] theorem setCatchUp_freeIndex (s : State) (c : CatchUp) : (setCatchUp s c).freeIndex = s.freeIndex := rfl
@[simp] theorem setCatchUp_pending (s : State) (c : CatchUp) : (setCatchUp s c).pending = s.pending := rfl

/-! ### setSilence -/

@[simp] theorem setSilence_inputs (s : State) (k : StationId) (t : TimerState) : (setSilence s k t).inputs = s.inputs := rfl
@[simp] theorem setSilence_straps (s : State) (k : StationId) (t : TimerState) : (setSilence s k t).straps = s.straps := rfl
@[simp] theorem setSilence_link (s : State) (k : StationId) (t : TimerState) : (setSilence s k t).link = s.link := rfl
@[simp] theorem setSilence_memb (s : State) (k : StationId) (t : TimerState) : (setSilence s k t).memb = { s.memb with watches := tset s.memb.watches k t } := rfl
@[simp] theorem setSilence_dir (s : State) (k : StationId) (t : TimerState) : (setSilence s k t).dir = s.dir := rfl
@[simp] theorem setSilence_rounds (s : State) (k : StationId) (t : TimerState) : (setSilence s k t).rounds = s.rounds := rfl
@[simp] theorem setSilence_cust (s : State) (k : StationId) (t : TimerState) : (setSilence s k t).cust = s.cust := rfl
@[simp] theorem setSilence_catchUp (s : State) (k : StationId) (t : TimerState) : (setSilence s k t).catchUp = s.catchUp := rfl
@[simp] theorem setSilence_lines (s : State) (k : StationId) (t : TimerState) : (setSilence s k t).lines = s.lines := rfl
@[simp] theorem setSilence_pool (s : State) (k : StationId) (t : TimerState) : (setSilence s k t).pool = s.pool := rfl
@[simp] theorem setSilence_engine (s : State) (k : StationId) (t : TimerState) : (setSilence s k t).engine = s.engine := rfl
@[simp] theorem setSilence_tamper (s : State) (k : StationId) (t : TimerState) : (setSilence s k t).tamper = s.tamper := rfl
@[simp] theorem setSilence_rep (s : State) (k : StationId) (t : TimerState) : (setSilence s k t).rep = s.rep := rfl
@[simp] theorem setSilence_wirePlace (s : State) (k : StationId) (t : TimerState) : (setSilence s k t).wirePlace = s.wirePlace := rfl
@[simp] theorem setSilence_freeIndex (s : State) (k : StationId) (t : TimerState) : (setSilence s k t).freeIndex = s.freeIndex := rfl
@[simp] theorem setSilence_pending (s : State) (k : StationId) (t : TimerState) : (setSilence s k t).pending = s.pending := rfl

/-! ### setPeer -/

@[simp] theorem setPeer_inputs (s : State) (k : StationId) (r : PeerRecord) : (setPeer s k r).inputs = s.inputs := rfl
@[simp] theorem setPeer_straps (s : State) (k : StationId) (r : PeerRecord) : (setPeer s k r).straps = s.straps := rfl
@[simp] theorem setPeer_link (s : State) (k : StationId) (r : PeerRecord) : (setPeer s k r).link = s.link := rfl
@[simp] theorem setPeer_memb (s : State) (k : StationId) (r : PeerRecord) : (setPeer s k r).memb = { s.memb with peers := tset s.memb.peers k (some r) } := rfl
@[simp] theorem setPeer_dir (s : State) (k : StationId) (r : PeerRecord) : (setPeer s k r).dir = s.dir := rfl
@[simp] theorem setPeer_rounds (s : State) (k : StationId) (r : PeerRecord) : (setPeer s k r).rounds = s.rounds := rfl
@[simp] theorem setPeer_cust (s : State) (k : StationId) (r : PeerRecord) : (setPeer s k r).cust = s.cust := rfl
@[simp] theorem setPeer_catchUp (s : State) (k : StationId) (r : PeerRecord) : (setPeer s k r).catchUp = s.catchUp := rfl
@[simp] theorem setPeer_lines (s : State) (k : StationId) (r : PeerRecord) : (setPeer s k r).lines = s.lines := rfl
@[simp] theorem setPeer_pool (s : State) (k : StationId) (r : PeerRecord) : (setPeer s k r).pool = s.pool := rfl
@[simp] theorem setPeer_engine (s : State) (k : StationId) (r : PeerRecord) : (setPeer s k r).engine = s.engine := rfl
@[simp] theorem setPeer_tamper (s : State) (k : StationId) (r : PeerRecord) : (setPeer s k r).tamper = s.tamper := rfl
@[simp] theorem setPeer_rep (s : State) (k : StationId) (r : PeerRecord) : (setPeer s k r).rep = s.rep := rfl
@[simp] theorem setPeer_wirePlace (s : State) (k : StationId) (r : PeerRecord) : (setPeer s k r).wirePlace = s.wirePlace := rfl
@[simp] theorem setPeer_freeIndex (s : State) (k : StationId) (r : PeerRecord) : (setPeer s k r).freeIndex = s.freeIndex := rfl
@[simp] theorem setPeer_pending (s : State) (k : StationId) (r : PeerRecord) : (setPeer s k r).pending = s.pending := rfl

/-! ### setWatch -/

@[simp] theorem setWatch_inputs (s : State) (g : Node) (t : TimerState) : (setWatch s g t).inputs = s.inputs := rfl
@[simp] theorem setWatch_straps (s : State) (g : Node) (t : TimerState) : (setWatch s g t).straps = s.straps := rfl
@[simp] theorem setWatch_link (s : State) (g : Node) (t : TimerState) : (setWatch s g t).link = s.link := rfl
@[simp] theorem setWatch_memb (s : State) (g : Node) (t : TimerState) : (setWatch s g t).memb = s.memb := rfl
@[simp] theorem setWatch_dir (s : State) (g : Node) (t : TimerState) : (setWatch s g t).dir = s.dir := rfl
@[simp] theorem setWatch_rounds (s : State) (g : Node) (t : TimerState) : (setWatch s g t).rounds = s.rounds := rfl
@[simp] theorem setWatch_cust (s : State) (g : Node) (t : TimerState) : (setWatch s g t).cust = s.cust := rfl
@[simp] theorem setWatch_catchUp (s : State) (g : Node) (t : TimerState) : (setWatch s g t).catchUp = s.catchUp := rfl
@[simp] theorem setWatch_lines (s : State) (g : Node) (t : TimerState) : (setWatch s g t).lines = { s.lines with watches := tset s.lines.watches g t } := rfl
@[simp] theorem setWatch_pool (s : State) (g : Node) (t : TimerState) : (setWatch s g t).pool = s.pool := rfl
@[simp] theorem setWatch_engine (s : State) (g : Node) (t : TimerState) : (setWatch s g t).engine = s.engine := rfl
@[simp] theorem setWatch_tamper (s : State) (g : Node) (t : TimerState) : (setWatch s g t).tamper = s.tamper := rfl
@[simp] theorem setWatch_rep (s : State) (g : Node) (t : TimerState) : (setWatch s g t).rep = s.rep := rfl
@[simp] theorem setWatch_wirePlace (s : State) (g : Node) (t : TimerState) : (setWatch s g t).wirePlace = s.wirePlace := rfl
@[simp] theorem setWatch_freeIndex (s : State) (g : Node) (t : TimerState) : (setWatch s g t).freeIndex = s.freeIndex := rfl
@[simp] theorem setWatch_pending (s : State) (g : Node) (t : TimerState) : (setWatch s g t).pending = s.pending := rfl

/-! ### setEntry -/

@[simp] theorem setEntry_inputs (s : State) (l : LineId) (e : LineEntry) : (setEntry s l e).inputs = s.inputs := rfl
@[simp] theorem setEntry_straps (s : State) (l : LineId) (e : LineEntry) : (setEntry s l e).straps = s.straps := rfl
@[simp] theorem setEntry_link (s : State) (l : LineId) (e : LineEntry) : (setEntry s l e).link = s.link := rfl
@[simp] theorem setEntry_memb (s : State) (l : LineId) (e : LineEntry) : (setEntry s l e).memb = s.memb := rfl
@[simp] theorem setEntry_dir (s : State) (l : LineId) (e : LineEntry) : (setEntry s l e).dir = s.dir := rfl
@[simp] theorem setEntry_rounds (s : State) (l : LineId) (e : LineEntry) : (setEntry s l e).rounds = s.rounds := rfl
@[simp] theorem setEntry_cust (s : State) (l : LineId) (e : LineEntry) : (setEntry s l e).cust = s.cust := rfl
@[simp] theorem setEntry_catchUp (s : State) (l : LineId) (e : LineEntry) : (setEntry s l e).catchUp = s.catchUp := rfl
@[simp] theorem setEntry_lines (s : State) (l : LineId) (e : LineEntry) : (setEntry s l e).lines = { s.lines with entries := tset s.lines.entries l e } := rfl
@[simp] theorem setEntry_pool (s : State) (l : LineId) (e : LineEntry) : (setEntry s l e).pool = s.pool := rfl
@[simp] theorem setEntry_engine (s : State) (l : LineId) (e : LineEntry) : (setEntry s l e).engine = s.engine := rfl
@[simp] theorem setEntry_tamper (s : State) (l : LineId) (e : LineEntry) : (setEntry s l e).tamper = s.tamper := rfl
@[simp] theorem setEntry_rep (s : State) (l : LineId) (e : LineEntry) : (setEntry s l e).rep = s.rep := rfl
@[simp] theorem setEntry_wirePlace (s : State) (l : LineId) (e : LineEntry) : (setEntry s l e).wirePlace = s.wirePlace := rfl
@[simp] theorem setEntry_freeIndex (s : State) (l : LineId) (e : LineEntry) : (setEntry s l e).freeIndex = s.freeIndex := rfl
@[simp] theorem setEntry_pending (s : State) (l : LineId) (e : LineEntry) : (setEntry s l e).pending = s.pending := rfl

/-! ### setLocal -/

@[simp] theorem setLocal_inputs (s : State) (l : LineId) (p : PosId) (x : LocalPos) : (setLocal s l p x).inputs = s.inputs := rfl
@[simp] theorem setLocal_straps (s : State) (l : LineId) (p : PosId) (x : LocalPos) : (setLocal s l p x).straps = s.straps := rfl
@[simp] theorem setLocal_link (s : State) (l : LineId) (p : PosId) (x : LocalPos) : (setLocal s l p x).link = s.link := rfl
@[simp] theorem setLocal_memb (s : State) (l : LineId) (p : PosId) (x : LocalPos) : (setLocal s l p x).memb = s.memb := rfl
@[simp] theorem setLocal_dir (s : State) (l : LineId) (p : PosId) (x : LocalPos) : (setLocal s l p x).dir = s.dir := rfl
@[simp] theorem setLocal_rounds (s : State) (l : LineId) (p : PosId) (x : LocalPos) : (setLocal s l p x).rounds = s.rounds := rfl
@[simp] theorem setLocal_cust (s : State) (l : LineId) (p : PosId) (x : LocalPos) : (setLocal s l p x).cust = s.cust := rfl
@[simp] theorem setLocal_catchUp (s : State) (l : LineId) (p : PosId) (x : LocalPos) : (setLocal s l p x).catchUp = s.catchUp := rfl
@[simp] theorem setLocal_lines (s : State) (l : LineId) (p : PosId) (x : LocalPos) : (setLocal s l p x).lines = { s.lines with locals := tset s.lines.locals l (tset (tget s.lines.locals l) p x) } := rfl
@[simp] theorem setLocal_pool (s : State) (l : LineId) (p : PosId) (x : LocalPos) : (setLocal s l p x).pool = s.pool := rfl
@[simp] theorem setLocal_engine (s : State) (l : LineId) (p : PosId) (x : LocalPos) : (setLocal s l p x).engine = s.engine := rfl
@[simp] theorem setLocal_tamper (s : State) (l : LineId) (p : PosId) (x : LocalPos) : (setLocal s l p x).tamper = s.tamper := rfl
@[simp] theorem setLocal_rep (s : State) (l : LineId) (p : PosId) (x : LocalPos) : (setLocal s l p x).rep = s.rep := rfl
@[simp] theorem setLocal_wirePlace (s : State) (l : LineId) (p : PosId) (x : LocalPos) : (setLocal s l p x).wirePlace = s.wirePlace := rfl
@[simp] theorem setLocal_freeIndex (s : State) (l : LineId) (p : PosId) (x : LocalPos) : (setLocal s l p x).freeIndex = s.freeIndex := rfl
@[simp] theorem setLocal_pending (s : State) (l : LineId) (p : PosId) (x : LocalPos) : (setLocal s l p x).pending = s.pending := rfl

/-! ### giveNotice -/

@[simp] theorem giveNotice_inputs (s : State) : (giveNotice s).inputs = s.inputs := rfl
@[simp] theorem giveNotice_straps (s : State) : (giveNotice s).straps = s.straps := rfl
@[simp] theorem giveNotice_link (s : State) : (giveNotice s).link = s.link := rfl
@[simp] theorem giveNotice_memb (s : State) : (giveNotice s).memb = s.memb := rfl
@[simp] theorem giveNotice_dir (s : State) : (giveNotice s).dir = s.dir := rfl
@[simp] theorem giveNotice_rounds (s : State) : (giveNotice s).rounds = s.rounds := rfl
@[simp] theorem giveNotice_cust (s : State) : (giveNotice s).cust = s.cust := rfl
@[simp] theorem giveNotice_catchUp (s : State) : (giveNotice s).catchUp = s.catchUp := rfl
@[simp] theorem giveNotice_lines (s : State) : (giveNotice s).lines = { s.lines with notice := true } := rfl
@[simp] theorem giveNotice_pool (s : State) : (giveNotice s).pool = s.pool := rfl
@[simp] theorem giveNotice_engine (s : State) : (giveNotice s).engine = s.engine := rfl
@[simp] theorem giveNotice_tamper (s : State) : (giveNotice s).tamper = s.tamper := rfl
@[simp] theorem giveNotice_rep (s : State) : (giveNotice s).rep = s.rep := rfl
@[simp] theorem giveNotice_wirePlace (s : State) : (giveNotice s).wirePlace = s.wirePlace := rfl
@[simp] theorem giveNotice_freeIndex (s : State) : (giveNotice s).freeIndex = s.freeIndex := rfl
@[simp] theorem giveNotice_pending (s : State) : (giveNotice s).pending = s.pending := rfl

/-! ### setArea -/

@[simp] theorem setArea_inputs (s : State) (a : AreaId) (x : Option Area) : (setArea s a x).inputs = s.inputs := rfl
@[simp] theorem setArea_straps (s : State) (a : AreaId) (x : Option Area) : (setArea s a x).straps = s.straps := rfl
@[simp] theorem setArea_link (s : State) (a : AreaId) (x : Option Area) : (setArea s a x).link = s.link := rfl
@[simp] theorem setArea_memb (s : State) (a : AreaId) (x : Option Area) : (setArea s a x).memb = s.memb := rfl
@[simp] theorem setArea_dir (s : State) (a : AreaId) (x : Option Area) : (setArea s a x).dir = s.dir := rfl
@[simp] theorem setArea_rounds (s : State) (a : AreaId) (x : Option Area) : (setArea s a x).rounds = s.rounds := rfl
@[simp] theorem setArea_cust (s : State) (a : AreaId) (x : Option Area) : (setArea s a x).cust = { s.cust with areas := tset s.cust.areas a x } := rfl
@[simp] theorem setArea_catchUp (s : State) (a : AreaId) (x : Option Area) : (setArea s a x).catchUp = s.catchUp := rfl
@[simp] theorem setArea_lines (s : State) (a : AreaId) (x : Option Area) : (setArea s a x).lines = s.lines := rfl
@[simp] theorem setArea_pool (s : State) (a : AreaId) (x : Option Area) : (setArea s a x).pool = s.pool := rfl
@[simp] theorem setArea_engine (s : State) (a : AreaId) (x : Option Area) : (setArea s a x).engine = s.engine := rfl
@[simp] theorem setArea_tamper (s : State) (a : AreaId) (x : Option Area) : (setArea s a x).tamper = s.tamper := rfl
@[simp] theorem setArea_rep (s : State) (a : AreaId) (x : Option Area) : (setArea s a x).rep = s.rep := rfl
@[simp] theorem setArea_wirePlace (s : State) (a : AreaId) (x : Option Area) : (setArea s a x).wirePlace = s.wirePlace := rfl
@[simp] theorem setArea_freeIndex (s : State) (a : AreaId) (x : Option Area) : (setArea s a x).freeIndex = s.freeIndex := rfl
@[simp] theorem setArea_pending (s : State) (a : AreaId) (x : Option Area) : (setArea s a x).pending = s.pending := rfl

/-! ### withPool -/

@[simp] theorem withPool_inputs (s : State) (p : Pool) : (withPool s p).inputs = s.inputs := rfl
@[simp] theorem withPool_straps (s : State) (p : Pool) : (withPool s p).straps = s.straps := rfl
@[simp] theorem withPool_link (s : State) (p : Pool) : (withPool s p).link = s.link := rfl
@[simp] theorem withPool_memb (s : State) (p : Pool) : (withPool s p).memb = s.memb := rfl
@[simp] theorem withPool_dir (s : State) (p : Pool) : (withPool s p).dir = s.dir := rfl
@[simp] theorem withPool_rounds (s : State) (p : Pool) : (withPool s p).rounds = s.rounds := rfl
@[simp] theorem withPool_cust (s : State) (p : Pool) : (withPool s p).cust = s.cust := rfl
@[simp] theorem withPool_catchUp (s : State) (p : Pool) : (withPool s p).catchUp = s.catchUp := rfl
@[simp] theorem withPool_lines (s : State) (p : Pool) : (withPool s p).lines = s.lines := rfl
@[simp] theorem withPool_pool (s : State) (p : Pool) : (withPool s p).pool = p := rfl
@[simp] theorem withPool_engine (s : State) (p : Pool) : (withPool s p).engine = s.engine := rfl
@[simp] theorem withPool_tamper (s : State) (p : Pool) : (withPool s p).tamper = s.tamper := rfl
@[simp] theorem withPool_rep (s : State) (p : Pool) : (withPool s p).rep = s.rep := rfl
@[simp] theorem withPool_wirePlace (s : State) (p : Pool) : (withPool s p).wirePlace = s.wirePlace := rfl
@[simp] theorem withPool_freeIndex (s : State) (p : Pool) : (withPool s p).freeIndex = s.freeIndex := rfl
@[simp] theorem withPool_pending (s : State) (p : Pool) : (withPool s p).pending = s.pending := rfl

/-! ### modDesc -/

@[simp] theorem modDesc_inputs (s : State) (d : DescId) (f : Descriptor → Descriptor) : (modDesc s d f).inputs = s.inputs := rfl
@[simp] theorem modDesc_straps (s : State) (d : DescId) (f : Descriptor → Descriptor) : (modDesc s d f).straps = s.straps := rfl
@[simp] theorem modDesc_link (s : State) (d : DescId) (f : Descriptor → Descriptor) : (modDesc s d f).link = s.link := rfl
@[simp] theorem modDesc_memb (s : State) (d : DescId) (f : Descriptor → Descriptor) : (modDesc s d f).memb = s.memb := rfl
@[simp] theorem modDesc_dir (s : State) (d : DescId) (f : Descriptor → Descriptor) : (modDesc s d f).dir = s.dir := rfl
@[simp] theorem modDesc_rounds (s : State) (d : DescId) (f : Descriptor → Descriptor) : (modDesc s d f).rounds = s.rounds := rfl
@[simp] theorem modDesc_cust (s : State) (d : DescId) (f : Descriptor → Descriptor) : (modDesc s d f).cust = s.cust := rfl
@[simp] theorem modDesc_catchUp (s : State) (d : DescId) (f : Descriptor → Descriptor) : (modDesc s d f).catchUp = s.catchUp := rfl
@[simp] theorem modDesc_lines (s : State) (d : DescId) (f : Descriptor → Descriptor) : (modDesc s d f).lines = s.lines := rfl
@[simp] theorem modDesc_pool (s : State) (d : DescId) (f : Descriptor → Descriptor) : (modDesc s d f).pool = { s.pool with descs := tmod s.pool.descs d f } := rfl
@[simp] theorem modDesc_engine (s : State) (d : DescId) (f : Descriptor → Descriptor) : (modDesc s d f).engine = s.engine := rfl
@[simp] theorem modDesc_tamper (s : State) (d : DescId) (f : Descriptor → Descriptor) : (modDesc s d f).tamper = s.tamper := rfl
@[simp] theorem modDesc_rep (s : State) (d : DescId) (f : Descriptor → Descriptor) : (modDesc s d f).rep = s.rep := rfl
@[simp] theorem modDesc_wirePlace (s : State) (d : DescId) (f : Descriptor → Descriptor) : (modDesc s d f).wirePlace = s.wirePlace := rfl
@[simp] theorem modDesc_freeIndex (s : State) (d : DescId) (f : Descriptor → Descriptor) : (modDesc s d f).freeIndex = s.freeIndex := rfl
@[simp] theorem modDesc_pending (s : State) (d : DescId) (f : Descriptor → Descriptor) : (modDesc s d f).pending = s.pending := rfl

/-! ### setSegmentPhase -/

@[simp] theorem setSegmentPhase_inputs (s : State) (d : DescId) (n : Nat) (x : SegPhase) : (setSegmentPhase s d n x).inputs = s.inputs := rfl
@[simp] theorem setSegmentPhase_straps (s : State) (d : DescId) (n : Nat) (x : SegPhase) : (setSegmentPhase s d n x).straps = s.straps := rfl
@[simp] theorem setSegmentPhase_link (s : State) (d : DescId) (n : Nat) (x : SegPhase) : (setSegmentPhase s d n x).link = s.link := rfl
@[simp] theorem setSegmentPhase_memb (s : State) (d : DescId) (n : Nat) (x : SegPhase) : (setSegmentPhase s d n x).memb = s.memb := rfl
@[simp] theorem setSegmentPhase_dir (s : State) (d : DescId) (n : Nat) (x : SegPhase) : (setSegmentPhase s d n x).dir = s.dir := rfl
@[simp] theorem setSegmentPhase_rounds (s : State) (d : DescId) (n : Nat) (x : SegPhase) : (setSegmentPhase s d n x).rounds = s.rounds := rfl
@[simp] theorem setSegmentPhase_cust (s : State) (d : DescId) (n : Nat) (x : SegPhase) : (setSegmentPhase s d n x).cust = s.cust := rfl
@[simp] theorem setSegmentPhase_catchUp (s : State) (d : DescId) (n : Nat) (x : SegPhase) : (setSegmentPhase s d n x).catchUp = s.catchUp := rfl
@[simp] theorem setSegmentPhase_lines (s : State) (d : DescId) (n : Nat) (x : SegPhase) : (setSegmentPhase s d n x).lines = s.lines := rfl
@[simp] theorem setSegmentPhase_pool (s : State) (d : DescId) (n : Nat) (x : SegPhase) : (setSegmentPhase s d n x).pool = s.pool := rfl
@[simp] theorem setSegmentPhase_engine (s : State) (d : DescId) (n : Nat) (x : SegPhase) : (setSegmentPhase s d n x).engine = { s.engine with segs := tmod s.engine.segs d (fun l => l.map (fun g => if g.number == n then { g with phase := x } else g)) } := rfl
@[simp] theorem setSegmentPhase_tamper (s : State) (d : DescId) (n : Nat) (x : SegPhase) : (setSegmentPhase s d n x).tamper = s.tamper := rfl
@[simp] theorem setSegmentPhase_rep (s : State) (d : DescId) (n : Nat) (x : SegPhase) : (setSegmentPhase s d n x).rep = s.rep := rfl
@[simp] theorem setSegmentPhase_wirePlace (s : State) (d : DescId) (n : Nat) (x : SegPhase) : (setSegmentPhase s d n x).wirePlace = s.wirePlace := rfl
@[simp] theorem setSegmentPhase_freeIndex (s : State) (d : DescId) (n : Nat) (x : SegPhase) : (setSegmentPhase s d n x).freeIndex = s.freeIndex := rfl
@[simp] theorem setSegmentPhase_pending (s : State) (d : DescId) (n : Nat) (x : SegPhase) : (setSegmentPhase s d n x).pending = s.pending := rfl

/-! ### dropPending -/

@[simp] theorem dropPending_inputs (p : TxFrame → Bool) (s : State) : (dropPending p s).inputs = s.inputs := rfl
@[simp] theorem dropPending_straps (p : TxFrame → Bool) (s : State) : (dropPending p s).straps = s.straps := rfl
@[simp] theorem dropPending_link (p : TxFrame → Bool) (s : State) : (dropPending p s).link = { s.link with admissions := s.link.admissions.filter (fun f => !p f) } := rfl
@[simp] theorem dropPending_memb (p : TxFrame → Bool) (s : State) : (dropPending p s).memb = s.memb := rfl
@[simp] theorem dropPending_dir (p : TxFrame → Bool) (s : State) : (dropPending p s).dir = s.dir := rfl
@[simp] theorem dropPending_rounds (p : TxFrame → Bool) (s : State) : (dropPending p s).rounds = s.rounds := rfl
@[simp] theorem dropPending_cust (p : TxFrame → Bool) (s : State) : (dropPending p s).cust = s.cust := rfl
@[simp] theorem dropPending_catchUp (p : TxFrame → Bool) (s : State) : (dropPending p s).catchUp = s.catchUp := rfl
@[simp] theorem dropPending_lines (p : TxFrame → Bool) (s : State) : (dropPending p s).lines = s.lines := rfl
@[simp] theorem dropPending_pool (p : TxFrame → Bool) (s : State) : (dropPending p s).pool = s.pool := rfl
@[simp] theorem dropPending_engine (p : TxFrame → Bool) (s : State) : (dropPending p s).engine = s.engine := rfl
@[simp] theorem dropPending_tamper (p : TxFrame → Bool) (s : State) : (dropPending p s).tamper = s.tamper := rfl
@[simp] theorem dropPending_rep (p : TxFrame → Bool) (s : State) : (dropPending p s).rep = s.rep := rfl
@[simp] theorem dropPending_wirePlace (p : TxFrame → Bool) (s : State) : (dropPending p s).wirePlace = s.wirePlace := rfl
@[simp] theorem dropPending_freeIndex (p : TxFrame → Bool) (s : State) : (dropPending p s).freeIndex = s.freeIndex := rfl
@[simp] theorem dropPending_pending (p : TxFrame → Bool) (s : State) : (dropPending p s).pending = s.pending := rfl

/-! ### takePins -/

@[simp] theorem takePins_inputs (p : Pins) (s : State) : (takePins p s).inputs = { s.inputs with pins := p } := rfl
@[simp] theorem takePins_straps (p : Pins) (s : State) : (takePins p s).straps = s.straps := rfl
@[simp] theorem takePins_link (p : Pins) (s : State) : (takePins p s).link = s.link := rfl
@[simp] theorem takePins_memb (p : Pins) (s : State) : (takePins p s).memb = s.memb := rfl
@[simp] theorem takePins_dir (p : Pins) (s : State) : (takePins p s).dir = s.dir := rfl
@[simp] theorem takePins_rounds (p : Pins) (s : State) : (takePins p s).rounds = s.rounds := rfl
@[simp] theorem takePins_cust (p : Pins) (s : State) : (takePins p s).cust = s.cust := rfl
@[simp] theorem takePins_catchUp (p : Pins) (s : State) : (takePins p s).catchUp = s.catchUp := rfl
@[simp] theorem takePins_lines (p : Pins) (s : State) : (takePins p s).lines = s.lines := rfl
@[simp] theorem takePins_pool (p : Pins) (s : State) : (takePins p s).pool = s.pool := rfl
@[simp] theorem takePins_engine (p : Pins) (s : State) : (takePins p s).engine = s.engine := rfl
@[simp] theorem takePins_tamper (p : Pins) (s : State) : (takePins p s).tamper = s.tamper := rfl
@[simp] theorem takePins_rep (p : Pins) (s : State) : (takePins p s).rep = s.rep := rfl
@[simp] theorem takePins_wirePlace (p : Pins) (s : State) : (takePins p s).wirePlace = s.wirePlace := rfl
@[simp] theorem takePins_freeIndex (p : Pins) (s : State) : (takePins p s).freeIndex = s.freeIndex := rfl
@[simp] theorem takePins_pending (p : Pins) (s : State) : (takePins p s).pending = s.pending := rfl

/-! ### slotUndriven -/

@[simp] theorem slotUndriven_link (s : State) : (slotUndriven s).link = { s.link with slotDriven := false } := rfl
@[simp] theorem slotUndriven_inputs (s : State) : (slotUndriven s).inputs = s.inputs := rfl
@[simp] theorem slotUndriven_straps (s : State) : (slotUndriven s).straps = s.straps := rfl
@[simp] theorem slotUndriven_memb (s : State) : (slotUndriven s).memb = s.memb := rfl
@[simp] theorem slotUndriven_dir (s : State) : (slotUndriven s).dir = s.dir := rfl
@[simp] theorem slotUndriven_rounds (s : State) : (slotUndriven s).rounds = s.rounds := rfl
@[simp] theorem slotUndriven_cust (s : State) : (slotUndriven s).cust = s.cust := rfl
@[simp] theorem slotUndriven_catchUp (s : State) : (slotUndriven s).catchUp = s.catchUp := rfl
@[simp] theorem slotUndriven_lines (s : State) : (slotUndriven s).lines = s.lines := rfl
@[simp] theorem slotUndriven_pool (s : State) : (slotUndriven s).pool = s.pool := rfl
@[simp] theorem slotUndriven_engine (s : State) : (slotUndriven s).engine = s.engine := rfl
@[simp] theorem slotUndriven_tamper (s : State) : (slotUndriven s).tamper = s.tamper := rfl
@[simp] theorem slotUndriven_rep (s : State) : (slotUndriven s).rep = s.rep := rfl
@[simp] theorem slotUndriven_wirePlace (s : State) : (slotUndriven s).wirePlace = s.wirePlace := rfl
@[simp] theorem slotUndriven_freeIndex (s : State) : (slotUndriven s).freeIndex = s.freeIndex := rfl
@[simp] theorem slotUndriven_pending (s : State) : (slotUndriven s).pending = s.pending := rfl

/-! ### receivedIntact -/

@[simp] theorem receivedIntact_inputs (s : State) : (receivedIntact s).inputs = s.inputs := rfl
@[simp] theorem receivedIntact_straps (s : State) : (receivedIntact s).straps = s.straps := rfl
@[simp] theorem receivedIntact_link (s : State) : (receivedIntact s).link = { s.link with slotDriven := true } := rfl
@[simp] theorem receivedIntact_memb (s : State) : (receivedIntact s).memb = s.memb := rfl
@[simp] theorem receivedIntact_dir (s : State) : (receivedIntact s).dir = s.dir := rfl
@[simp] theorem receivedIntact_rounds (s : State) : (receivedIntact s).rounds = s.rounds := rfl
@[simp] theorem receivedIntact_cust (s : State) : (receivedIntact s).cust = s.cust := rfl
@[simp] theorem receivedIntact_catchUp (s : State) : (receivedIntact s).catchUp = s.catchUp := rfl
@[simp] theorem receivedIntact_lines (s : State) : (receivedIntact s).lines = s.lines := rfl
@[simp] theorem receivedIntact_pool (s : State) : (receivedIntact s).pool = s.pool := rfl
@[simp] theorem receivedIntact_engine (s : State) : (receivedIntact s).engine = s.engine := rfl
@[simp] theorem receivedIntact_tamper (s : State) : (receivedIntact s).tamper = s.tamper := rfl
@[simp] theorem receivedIntact_rep (s : State) : (receivedIntact s).rep = s.rep := rfl
@[simp] theorem receivedIntact_wirePlace (s : State) : (receivedIntact s).wirePlace = s.wirePlace + 1 := rfl
@[simp] theorem receivedIntact_freeIndex (s : State) : (receivedIntact s).freeIndex = s.freeIndex := rfl
@[simp] theorem receivedIntact_pending (s : State) : (receivedIntact s).pending = s.pending := rfl

/-! ### countMisplaced -/

@[simp] theorem countMisplaced_inputs (s : State) : (countMisplaced s).inputs = s.inputs := rfl
@[simp] theorem countMisplaced_straps (s : State) : (countMisplaced s).straps = s.straps := rfl
@[simp] theorem countMisplaced_link (s : State) : (countMisplaced s).link = { s.link with misplaced := raise16 s.link.misplaced } := rfl
@[simp] theorem countMisplaced_memb (s : State) : (countMisplaced s).memb = s.memb := rfl
@[simp] theorem countMisplaced_dir (s : State) : (countMisplaced s).dir = s.dir := rfl
@[simp] theorem countMisplaced_rounds (s : State) : (countMisplaced s).rounds = s.rounds := rfl
@[simp] theorem countMisplaced_cust (s : State) : (countMisplaced s).cust = s.cust := rfl
@[simp] theorem countMisplaced_catchUp (s : State) : (countMisplaced s).catchUp = s.catchUp := rfl
@[simp] theorem countMisplaced_lines (s : State) : (countMisplaced s).lines = s.lines := rfl
@[simp] theorem countMisplaced_pool (s : State) : (countMisplaced s).pool = s.pool := rfl
@[simp] theorem countMisplaced_engine (s : State) : (countMisplaced s).engine = s.engine := rfl
@[simp] theorem countMisplaced_tamper (s : State) : (countMisplaced s).tamper = s.tamper := rfl
@[simp] theorem countMisplaced_rep (s : State) : (countMisplaced s).rep = s.rep := rfl
@[simp] theorem countMisplaced_wirePlace (s : State) : (countMisplaced s).wirePlace = s.wirePlace := rfl
@[simp] theorem countMisplaced_freeIndex (s : State) : (countMisplaced s).freeIndex = s.freeIndex := rfl
@[simp] theorem countMisplaced_pending (s : State) : (countMisplaced s).pending = s.pending := rfl

/-! ### countNonMember -/

@[simp] theorem countNonMember_inputs (s : State) : (countNonMember s).inputs = s.inputs := rfl
@[simp] theorem countNonMember_straps (s : State) : (countNonMember s).straps = s.straps := rfl
@[simp] theorem countNonMember_link (s : State) : (countNonMember s).link = { s.link with nonMember := raise16 s.link.nonMember } := rfl
@[simp] theorem countNonMember_memb (s : State) : (countNonMember s).memb = s.memb := rfl
@[simp] theorem countNonMember_dir (s : State) : (countNonMember s).dir = s.dir := rfl
@[simp] theorem countNonMember_rounds (s : State) : (countNonMember s).rounds = s.rounds := rfl
@[simp] theorem countNonMember_cust (s : State) : (countNonMember s).cust = s.cust := rfl
@[simp] theorem countNonMember_catchUp (s : State) : (countNonMember s).catchUp = s.catchUp := rfl
@[simp] theorem countNonMember_lines (s : State) : (countNonMember s).lines = s.lines := rfl
@[simp] theorem countNonMember_pool (s : State) : (countNonMember s).pool = s.pool := rfl
@[simp] theorem countNonMember_engine (s : State) : (countNonMember s).engine = s.engine := rfl
@[simp] theorem countNonMember_tamper (s : State) : (countNonMember s).tamper = s.tamper := rfl
@[simp] theorem countNonMember_rep (s : State) : (countNonMember s).rep = s.rep := rfl
@[simp] theorem countNonMember_wirePlace (s : State) : (countNonMember s).wirePlace = s.wirePlace := rfl
@[simp] theorem countNonMember_freeIndex (s : State) : (countNonMember s).freeIndex = s.freeIndex := rfl
@[simp] theorem countNonMember_pending (s : State) : (countNonMember s).pending = s.pending := rfl

end Sys2Proof.Machine
end

