-- ==== Sys2Proof/Tests/Slice0.lean ====
section
/-! SUPPORT. The model's own tests: terms that spell no command are refused, what single commands do on small states, and for each
statement with hypotheses a state and operands that meet them, clause by clause. -/

namespace Sys2Proof.Tests

-- One theorem after another: each evaluation has the memory to itself.
set_option Elab.async false
set_option linter.unusedVariables false

open Sys2Proof Sys2Proof.Machine

/-! ## Terms that spell no command (WellFormed.lean) -/

/-- A body above 96 bytes is no frame that a station can take as misplaced. -/
theorem test_misplaced_body_too_long : Instr.wellFormed (.misplacedFrame ⟨0#2, 0#5, 0, 0#8, List.replicate 97 0#8⟩) = false := by decide

/-- A broadcast frame with an addressed header. -/
theorem test_broadcast_kinds_are_broadcast :
    let h : Header := ⟨1, ⟨false, 0⟩⟩
    let j : JoinBody := ⟨0#32, 0#32, 0#32, 0#24⟩
    let p : PosRef := ⟨15#8, 0#8, 0#8⟩
    let l : Label := ⟨1#24, 0#8⟩
    let a : ApprovalList := ⟨0#8, []⟩
    let c : CardRecord := ⟨0#80, 0#8, 0#16⟩
    ([.zero h 1#8, .presence h ⟨1#8, false, false, 0#32, 0#32, 0#32, 0#16, 0#24, 0#8, 0#8⟩, .join h j, .joinFounding h j,
      .expel h 0#8 1#8 ⟨0#4, 1#3, 1#3, false⟩, .claim h ⟨p, 1#8, 0#8, 0#8⟩, .decline h p 1#8, .unclaimed h p, .cancel h 0#8 0#8,
      .propose h ⟨0#8, 0#8, 2#8, 0#8, 0#16, l, 0#8, 0#8, 0#32, 0#16, false, a⟩, .roundBody h 0#8 0#256 0#24, .accept h 0#8 0#8,
      .refuse h 0#8 0#8 1#8, .commit h 0#8 0#32 0#16 ⟨0#4, 1#3, 1#3, false⟩, .abandon h 0#8 1#8,
      .componentCabinet h ⟨0#16, 255#8, l, 0#8, 0#8, 0#32, 1#8, 2#8, 0#256, 0#24, 0#24, a⟩, .openLine h 0#8,
      .close h (.gateway 0#8), .cleared h ⟨15#8, 0#8, 0#8, []⟩, .job h ⟨0#8, 0#8, 3#8, l, none, c⟩,
      .batch h ⟨0#8, 0#8, 1#8, l, l, 1#8, 1#8, 1#8⟩, .cards h ⟨0#8, 0#8, 0#8, [c]⟩, .final h ⟨p, 1#8, 1#8, 1#8, 0#8, 0#8, 0#8⟩]
      : List Instr).all (fun i => !i.wellFormed) = true := by decide

/-- An addressed frame with a broadcast header. -/
theorem test_addressed_kinds_are_addressed :
    let h : Header := ⟨15, ⟨true, 0⟩⟩
    let l : Label := ⟨1#24, 0#8⟩
    let a : ApprovalList := ⟨0#8, []⟩
    let b : OrderBody := ⟨0#16, 0#8, l, 0#8, 0#8, 0#32, 0#16, a⟩
    let x : Pins := ⟨0#4, 1#3, 1#3, false⟩
    ([.orderActivate h b, .orderSuspend h b, .orderResume h b, .orderRetire h b, .orderDestroy h b, .orderEdit h b,
      .orderWindowOpen h b, .orderWindowClose h b, .orderRestart h b x, .orderYield h b x, .orderErase h b,
      .orderUnknownKind h 0#8 b, .componentSlot h ⟨0#16, 0#8, l, 1#8, 0#8, 0#32, 1#8, 2#8, 0#256, 0#24, 0#24, a⟩,
      .answer h (List.replicate 32 0#8), .pull h 1#8 0#8, .image h 1#8 0#8 0#32 (List.replicate 5 0#8), .queryIdentity h 0#16,
      .queryStatus h 0#16, .querySlot h 0#16 (.byNumber 0#8), .queryLine h 0#16 15#8 0#8, .querySensors h 0#16,
      .report h (List.replicate 12 0#8)] : List Instr).all (fun i => !i.wellFormed) = true := by decide

/-- Approval lists that are miscounted or too long: two in a PROPOSE and an ORDER, one in a COMPONENT. -/
theorem test_approval_counts :
    let three : ApprovalList := ⟨3#8, [⟨0#8, 0#64⟩, ⟨1#8, 0#64⟩, ⟨2#8, 0#64⟩]⟩
    let two : ApprovalList := ⟨2#8, [⟨0#8, 0#64⟩, ⟨1#8, 0#64⟩]⟩
    let miscounted : ApprovalList := ⟨1#8, []⟩
    let propose (a : ApprovalList) : Instr :=
      .propose ⟨1, ⟨true, 0⟩⟩ ⟨0#8, 0#8, 2#8, 0#8, 0#16, ⟨1#24, 0#8⟩, 0#8, 0#8, 0#32, 0#16, false, a⟩
    let order (a : ApprovalList) : Instr := .orderActivate ⟨15, ⟨false, 0⟩⟩ ⟨0#16, 0#8, ⟨1#24, 0#8⟩, 0#8, 0#8, 0#32, 0#16, a⟩
    let component (a : ApprovalList) : Instr :=
      .componentSlot ⟨15, ⟨false, 0⟩⟩ ⟨0#16, 0#8, ⟨1#24, 0#8⟩, 1#8, 0#8, 0#32, 1#8, 2#8, 0#256, 0#24, 0#24, a⟩
    (propose three).wellFormed = false ∧ (propose miscounted).wellFormed = false ∧ (propose two).wellFormed = true
    ∧ (order three).wellFormed = false ∧ (order miscounted).wellFormed = false ∧ (order two).wellFormed = true
    ∧ (component two).wellFormed = false ∧ (component miscounted).wellFormed = false := by decide

/-- ORDER_UNKNOWN_KIND with a listed kind; COMPONENT_SLOT for target 255; COMPONENT_CABINET for another target. -/
theorem test_rows_of_one_frame_kind_exclude_each_other :
    let a : ApprovalList := ⟨0#8, []⟩
    let order (kind : Byte) : Instr := .orderUnknownKind ⟨15, ⟨false, 0⟩⟩ kind ⟨0#16, 0#8, ⟨1#24, 0#8⟩, 0#8, 0#8, 0#32, 0#16, a⟩
    let body (target : Byte) : ComponentBody := ⟨0#16, target, ⟨1#24, 0#8⟩, 1#8, 0#8, 0#32, 1#8, 2#8, 0#256, 0#24, 0#24, a⟩
    (order 2#8).wellFormed = false ∧ (order 12#8).wellFormed = false ∧ (order 1#8).wellFormed = true
    ∧ (order 13#8).wellFormed = true ∧ (Instr.componentSlot ⟨15, ⟨false, 0⟩⟩ (body 255#8)).wellFormed = false
    ∧ (Instr.componentCabinet ⟨15, ⟨true, 0⟩⟩ (body 254#8)).wellFormed = false := by decide

/-- Lengths: 16 cleared positions or a wrong count; no card or 7; an ANSWER, an IMAGE and a REPORT of no listed length,
a REPORT of another kind's length. -/
theorem test_lengths :
    let e : ClearedEntry := ⟨0#8, 0#8⟩
    let c : CardRecord := ⟨0#80, 0#8, 0#16⟩
    let b : Header := ⟨1, ⟨true, 0⟩⟩
    let a : Header := ⟨1, ⟨false, 15⟩⟩
    (Instr.cleared b ⟨15#8, 0#8, 16#8, List.replicate 16 e⟩).wellFormed = false
    ∧ (Instr.cleared b ⟨15#8, 0#8, 1#8, []⟩).wellFormed = false
    ∧ (Instr.cards ⟨15, ⟨true, 0⟩⟩ ⟨0#8, 0#8, 0#8, []⟩).wellFormed = false
    ∧ (Instr.cards ⟨15, ⟨true, 0⟩⟩ ⟨0#8, 0#8, 0#8, List.replicate 7 c⟩).wellFormed = false
    ∧ (Instr.answer a (List.replicate 31 0#8)).wellFormed = false ∧ (Instr.report a (List.replicate 11 0#8)).wellFormed = false
    ∧ (Instr.report a ([0#8, 0#8, 2#8] ++ List.replicate 9 0#8)).wellFormed = false
    ∧ (Instr.report a ([0#8, 0#8, 1#8] ++ List.replicate 9 0#8)).wellFormed = true
    ∧ (Instr.image a 1#8 0#8 0#32 (List.replicate 6 0#8)).wellFormed = false
    ∧ (Instr.image a 5#8 0#8 0#32 (List.replicate 5 0#8)).wellFormed = false := by decide

/-- No row of the table gives bits, so no word spells a command. -/
theorem test_no_word_spells_a_command (nbits w : Nat) (s : State) :
    decodeTableWord nbits w = none ∧ State.withFetchWord s nbits w = s := ⟨rfl, rfl⟩

/-! ## Small states and operands -/

/-- Station 0 of 2 in a state, with a live set. -/
def station (st : StationState) (live : StationSet) : State :=
  { State.reset with memb := { State.reset.memb with state := st, live := live } }

/-- A broadcast frame's header. -/
def fromNode (k : Node) : Header := ⟨k, ⟨true, 0⟩⟩

/-- The header of a frame addressed to station 0. -/
def toUs (k : Node) : Header := ⟨k, ⟨false, 0⟩⟩

/-- Pin levels of station 0 of 2 with quorum 2. -/
def pinsAt (doorOpen : Bool) : Pins := ⟨0#4, 1#3, 1#3, doorOpen⟩

def withBus (b : Bus) (s : State) : State := { s with link := { s.link with bus := b } }

/-- Nothing in the presence register, and the queue as given. -/
def withQueue (q : List TxEntry) (s : State) : State :=
  { s with link := { s.link with queue := q, nextAge := 16, presence := ⟨false, false⟩ } }

def withWindow (w : Option Nat) (s : State) : State := { s with tamper := { s.tamper with window := w } }

/-- The last entry of the line table OPEN for line 7 of gateway 15, with its last position as given; P stands at 0, D at 15. -/
def withLine (x : Position) (s : State) : State :=
  setEntry s 31 { LineEntry.zero with
    state := .opened, gateway := 15#8, line := 7#8, d := 15#4, positions := tset LineEntry.zero.positions 15 x }

/-- A position posted for two cards under slots 63 and 62. -/
def posted : Position := ⟨.posted, .batch, .card, 63#8, 62#8, 2#8, .none, 0#4, .none⟩

def claimedFor (owner : BitVec 4) : Position := { posted with state := .claimed, settledBy := .claim, owner := owner }

/-- The position of `withLine`. -/
def lastPos : PosRef := ⟨15#8, 7#8, 15#8⟩

/-- Slots 0 and 1 hold custodians, slot 63 a master and slot 62 a transport, all ACTIVE; the cabinet key is installed. -/
def keyedDirectory : Directory :=
  let slot (c : KeyClass) (f : Byte) (k : Key) : Slot := { Slot.zero with state := .active, cls := c, functions := f, material := k }
  let d := { Directory.erased with key := some ⟨5#256, 9#24⟩ }
  (((d.setSlot 0 (slot .custodian 0#8 1#256)).setSlot 1 (slot .custodian 0#8 2#256)).setSlot 63 (slot .master 7#8 3#256)).setSlot 62
    (slot .transport 0#8 4#256)

def keyed (s : State) : State := { s with dir := keyedDirectory }

/-- An order of a kind with no approvals. -/
def plainOrder (slot : Byte) : OrderBody := ⟨65535#16, slot, Label.zero, 0#8, 0#8, 0#32, 0#16, ⟨0#8, []⟩⟩

/-- The same order with the approvals of the custodians in slots 0 and 1 of `keyedDirectory`. -/
def signedOrder (s : State) (kind slot : Byte) : OrderBody :=
  let msg := orderApprovalMessage s kind (plainOrder slot)
  { plainOrder slot with
    approvals := ⟨2#8, [⟨0#8, codeOf (recovered 5#256 1#256) msg⟩, ⟨1#8, codeOf (recovered 5#256 2#256) msg⟩]⟩ }

/-- With the custodians' approvals an order of `keyed` fails no approval test, whatever the cipher. -/
theorem signedOrder_approved (kind slot : Byte) (s : State) (h : s.dir = keyedDirectory) :
    orderApprovalsFail s kind (signedOrder s kind slot) = false := by
  have hm : orderApprovalMessage s kind (signedOrder s kind slot) = orderApprovalMessage s kind (plainOrder slot) := rfl
  have h0 : keyedDirectory.keyUse 0 .custodian = some (recovered 5#256 1#256) := rfl
  have h1 : keyedDirectory.keyUse 1 .custodian = some (recovered 5#256 2#256) := rfl
  have hr : ∀ d k sl m, approvalsRequired d k sl m ≤ 2 := by
    intro d k sl m
    unfold approvalsRequired
    split <;> (try split) <;> omega
  have hv : ∀ a ∈ (signedOrder s kind slot).approvals.entries,
      s.dir.approvalValid a (orderApprovalMessage s kind (signedOrder s kind slot)) = true := by
    intro a ha
    rw [hm, h]
    simp only [signedOrder, List.mem_cons, List.not_mem_nil, or_false] at ha
    rcases ha with rfl | rfl
    · simp [Directory.approvalValid, slotOf?, indexOf?, h0]
    · simp [Directory.approvalValid, slotOf?, indexOf?, h1]
  have hl : (signedOrder s kind slot).approvals.entries.length = 2 := rfl
  have := hr s.dir kind (signedOrder s kind slot).slot (signedOrder s kind slot).mask
  simp only [orderApprovalsFail, List.all_eq_true.2 hv, hl, Bool.not_true, Bool.or_false, decide_eq_false_iff_not]
  omega

/-- A batch job of the position of `withLine`, waiting for its first group of cards. -/
def batchJob (count : Nat) : Descriptor :=
  { Descriptor.zero with
    pos := lastPos, kind := .batch, function := .card, master := 63#8, transport := 62#8, count := count, segSize := 4,
    policy := policyStream, groupsExpected := (count + 5) / 6, reserve := (count + 5) / 6, gapRunning := true }

/-- The pool with a job in descriptor 47 and no queue set but the free list. -/
def poolWith (x : Descriptor) : Pool :=
  { Pool.empty with descs := tset Pool.empty.descs 47 x, free := (List.finRange 48).take 47 }

def loadingJob (x : Descriptor) (s : State) : State := { s with pool := { poolWith x with loading := [47] } }

def aResult : CardResult := ⟨255#8, .badCard, 0#128, 0#24⟩

/-- The job of descriptor 47 is the current one, its next card as given, and its card is in flight. -/
def currentJob (x : Descriptor) (next : Nat) (s : State) : State :=
  { s with
    pool := { poolWith x with engine := some 47 }
    engine := { s.engine with inFlight := some aResult, ctx := { JobContext.zero with next := next } } }

/-- The job of descriptor 46, a single one, waits in URGENT beside the current one. -/
def withUrgent (s : State) : State :=
  { s with pool := { s.pool with
      descs := tset s.pool.descs 46 { batchJob 1 with kind := .single }, free := (List.finRange 48).take 46, urgent := [46] } }

def oneCard : CardRecord := ⟨0x123456789012FFFFFFFF#80, 0x99#8, 0#16⟩

/-- Station 1's round 255: SUSPEND of slot 63. -/
def aRound : Round := ⟨1, 255#8, 63#8, codeSuspend, 0#8, Label.zero, 0#8, 0#8, 0#32, 0#16, [], 0#16, .voting, none⟩

/-- An IMPORT of station 1 that awaits its body. -/
def anImport : Round := { aRound with slot := 2#8, kind := 1#8, cls := KeyClass.master.code, label := ⟨1#24, 255#8⟩, phase := .awaitingBody }

def withRound (r : Round) (s : State) : State := setRounds s [some ⟨r, .accepted⟩]

/-- The own round 255 counts, with station 1 still to vote. -/
def counting (s : State) : State :=
  setOwn s { OwnRound.empty with phase := .counting, number := 255#8, eligible := 2#8, accepts := 1#8, deadline := true }

def propose (number slot : Byte) : ProposeBody :=
  ⟨number, slot, codeSuspend, 0#8, 0#16, Label.zero, 0#8, 0#8, 0#32, 0#16, false, ⟨0#8, []⟩⟩

/-- Four custody items wait. -/
def fullQueue (s : State) : State :=
  { s with rounds := { s.rounds with
      queue := List.replicate 4 (orderItem s.dir (toUs 15) .suspend (plainOrder 63#8)), own := { OwnRound.empty with phase := .decided } } }

def recorded (s : State) : State := { s with cust := { s.cust with record := some ⟨15, 0#16, codeRestart⟩ } }

/-- A component of a custodian key for slot 2, with its check value, whatever the cipher. -/
def component (number : Byte) (whole : Check) : ComponentBody :=
  ⟨65535#16, 2#8, ⟨1#24, 255#8⟩, KeyClass.custodian.code, 0#8, 0#32, number, 2#8, 7#256, checkOf 7#256, whole, ⟨0#8, []⟩⟩

/-- A PRESENCE of station 1 that agrees with `keyed` in the commit sequence and not in the directory digest. -/
def differing : PresenceBody :=
  ⟨StationState.live.code, true, false, 0#32, ownDirDigest (keyed (station .live 3#8)) + 1#32, 0#32, 3#16, 9#24, 0#8, 0#8⟩

theorem differing_differs :
    standingOf (keyed (station .live 3#8)) differing.seq differing.dirDigest differing.workDigest = .differ := by
  have h : ∀ a c w : Word, ¬(a + 1#32 = a ∧ c = w) := by intro a c w; bv_omega
  unfold standingOf
  rw [if_neg (by decide +kernel), if_neg (by decide +kernel)]
  exact if_neg (h _ _ _)

theorem differing_mismatched : mismatched (recordPresence 1 .live differing (keyed (station .live 3#8))) = true := by
  have h : recordPresence 1 .live differing (keyed (station .live 3#8))
      = setPeer (keyed (station .live 3#8)) 1
          ⟨.live, differing.seq, differing.dirDigest, differing.workDigest, .differ⟩ := by
    unfold recordPresence
    rw [if_neg (by decide +kernel), differing_differs]
  rw [h]
  generalize differing.dirDigest = a
  generalize differing.workDigest = c
  with_unfolding_all rfl

/-- The cabinet key is installed and no custodian yet: open custody. -/
def openCabinet (s : State) : State := { s with dir := { Directory.erased with key := some ⟨5#256, 9#24⟩ } }

/-- Area 1 has taken the first of two components of that key, 6, and expects the check value given. -/
def halfArea (whole : Check) : Area :=
  { openedArea (toUs 15) (component 1#8 whole) with phase := .collecting 6#256, received := 1#4 }

def withArea (x : Area) (s : State) : State := { s with cust := { s.cust with areas := tset s.cust.areas 1 (some x) } }

theorem component_checked (number : Byte) (whole : Check) : componentCheckFails (component number whole) = false := by
  simp [componentCheckFails, component]

/-- The second component joins the area that holds the first, whatever the cipher. -/
theorem second_component_joins (whole : Check) (s : State) :
    placeComponent false (toUs 15) (component 2#8 whole) (withArea (halfArea whole) { s with cust := Custody.empty })
      = .ok (1, halfArea whole) := by
  simp [placeComponent, areaOfId, areaAt, tget, tset, withArea, halfArea, Custody.empty, inconsistent, component, openedArea, toUs]

/-- Area 1 has taken the first of two components of a cabinet key. -/
def halfCabinet (whole : Check) : Area := { halfArea whole with target := 255#8, label := Label.zero, cls := 0#8 }

theorem second_cabinet_component_joins (whole : Check) :
    placeComponent true (fromNode 15) (cabinetComponent { component 2#8 whole with target := 255#8 })
      (withArea (halfCabinet whole) State.reset) = .ok (1, halfCabinet whole) := by
  simp [placeComponent, areaOfId, areaAt, tget, tset, withArea, halfCabinet, halfArea, State.reset, Custody.empty, inconsistent,
    cabinetComponent, component, openedArea, toUs, fromNode]

/-- A station that pulls from station 1. -/
def pulling (s : State) : State :=
  { s with catchUp := { s.catchUp with phase := .pulling, source := some 1, pullIndex := 1, awaited := [0#8], pullTimer := true } }

def queries (n : Nat) (s : State) : State := { s with rep := { s.rep with queries := List.replicate n ⟨15, 0#16, .sensors⟩ } }

/-- A PRESENCE of station 1 that agrees with all that its hearer holds. -/
def agreeing (s : State) : PresenceBody :=
  ⟨StationState.live.code, true, false, s.dir.seq, ownDirDigest s, ownWorkDigest s, 3#16, s.dir.cabinetCheck, 0#8, 0#8⟩

/-- A job of descriptor 47 in CLAIMING, another in descriptor 46 that is the current one. -/
def claimingJob (x : Descriptor) (s : State) : State := { s with pool := { poolWith x with claiming := [47] } }

def claimingBeside (x : Descriptor) (s : State) : State :=
  { s with pool := { poolWith x with claiming := [47], free := (List.finRange 48).take 46, engine := some 46 } }

/-- The job of descriptor 47 drains, with its segments. -/
def drainingJob (x : Descriptor) (segs : List Segment) (s : State) : State :=
  { s with pool := { poolWith x with draining := [47] }, engine := { s.engine with segs := tset noSegments 47 segs } }

def atPhase (p : PullPhase) (s : State) : State := { s with catchUp := { s.catchUp with phase := p, source := some 1 } }

/-- The candidate's entry is looked up once. -/
theorem candidateQueued_of (s : State) (h : (match s.link.bus with
    | .contending (.entry a) => (entryOf s.link a).isSome | .sending (.entry a) _ _ => (entryOf s.link a).isSome | _ => true) = true) :
    CandidateQueued s := by
  intro age hb
  rcases hb with hb | ⟨d, f, hb⟩ <;> simp only [hb, Option.isSome_iff_ne_none] at h <;> exact h

theorem notesPlaced_of (s : State)
    (h : ∀ (l : LineId) (p : PosId), ((localAt s l p).note.all (fun n => decide (n.place ≤ s.wirePlace))) = true) : NotesPlaced s := by
  intro l p note hn
  have := h l p
  rw [hn] at this
  exact of_decide_eq_true this

/-- The slot that a SLOT query names. -/
def selected (s : State) (sel : SlotSelector) : Option SlotId :=
  match sel with
  | .byNumber b => slotOf? b
  | .byLabel l => s.dir.lookup l

def allArmed (s : State) : State :=
  { s with tamper := { s.tamper with channels := Vector.replicate 6 { ChannelRecord.zero with state := .armed } } }

/-! ## Single commands on small states -/

/-- The state that a command answers. -/
def after (c : Instr) (s : State) : State := match exec c s with | .next t => t | _ => s

/-- A cold start with five stations strapped, quorum 1 of 2 at most: quorum 1 is no majority of 5, so STRAP_FAULT (R23). -/
theorem test_supply_return_invalid_straps :
    (after (.supplyReturn ⟨0#4, 4#3, 1#3, false⟩)
      { station .retention 0#8 with tamper := { State.reset.tamper with storeValid := false } }).memb.state = .strapFault := by
  decide +kernel

theorem test_power_fail : (after (.powerFail (pinsAt false)) (station .live 3#8)).memb.state = .retention := by decide +kernel

theorem test_clear_takes_zeroised_to_blank : (after .clearAsserted (station .zeroised 0#8)).memb.state = .blank := by decide +kernel

theorem test_contention_offers_presence : (after .contention State.reset).link.bus = .contending .presence := by decide +kernel

theorem test_arbitration_won :
    (after (.arbitrationEnd true) (withBus (.contending (.entry 3)) (withQueue [⟨3, .accept 1#8 7#8, .none⟩] (station .live 3#8)))).link.bus
      = .sending (.entry 3) ⟨true, 0⟩ (.accept 1#8 7#8) := by decide +kernel

theorem test_frame_sent_frees_the_entry :
    (after (.frameSent 0#16 (pinsAt false)) (withBus (.sending (.entry 3) ⟨true, 0⟩ (.accept 1#8 7#8))
      (withQueue [⟨3, .accept 1#8 7#8, .none⟩] (station .live 3#8)))).link.queue = [] := by decide +kernel

theorem test_receive_error_saturates :
    (after .receiveError { State.reset with link := { State.reset.link with receiveErrors := 65535#16 } }).link.receiveErrors
      = 65535#16 := by decide +kernel

theorem test_zero_zeroises :
    let t := after (.zero (fromNode 1) 6#8) (keyed (station .live 3#8))
    t.memb.state = .zeroised ∧ t.dir.key = none ∧ t.tamper.cause = .peer 1 := by decide +kernel

theorem test_expel_removes : (after (.expel (fromNode 0) 1#8 1#8 (pinsAt false)) (station .live 3#8)).memb.live = 1#8 := by
  decide +kernel

theorem test_silence_watch_of_the_duty_station :
    hasFrame (after (.silenceWatchExpiry 1) { State.reset with memb := { State.reset.memb with
      state := .live, live := 3#8, watches := Vector.replicate 8 .running } }) (isSilentExpelOf 1) = true := by decide +kernel

theorem test_open_takes_entry_zero : (entryAt (after (.openLine (fromNode 15) 7#8) (station .live 3#8)) 0).line = 7#8 := by
  decide +kernel

theorem test_job_is_posted :
    let t := after (.job (fromNode 15) ⟨7#8, 0#8, 3#8, ⟨0#24, 0#8⟩, none, oneCard⟩)
      (setEntry (station .live 3#8) 31 { LineEntry.zero with state := .opened, gateway := 15#8, line := 7#8 })
    (positionOf t 31 0).state = .posted ∧ (entryAt t 31).p = 1#4 := by decide +kernel

theorem test_claim_takes_the_reservation :
    let t := after (.claim (fromNode 1) ⟨lastPos, 2#8, 63#8, 62#8⟩) (withLine posted (keyed (station .live 3#8)))
    (positionOf t 31 15).state = .claimed ∧ (t.dir.usageOf 63).reserved = 2#32 := by decide +kernel

theorem test_final_settles :
    let s := withLine (claimedFor 1#4) (keyed (station .live 3#8))
    let t := after (.final (fromNode 1) ⟨lastPos, 1#8, 2#8, 1#8, 1#8, 0#8, 0#8⟩) { s with dir := s.dir.reserve 63 2 }
    (t.dir.usageOf 63) = ⟨1#32, 0#32, false⟩ ∧ (entryAt t 31).d = 0#4 := by decide +kernel

theorem test_cancel_drains_the_job :
    (after (.cancel (fromNode 15) 7#8 15#8) (loadingJob (batchJob 7) (withLine (claimedFor 0#4) (station .live 3#8)))).pool.draining
      = [47] := by decide +kernel

theorem test_cards_take_the_oldest_block :
    let t := after (.cards (fromNode 15) ⟨7#8, 15#8, 0#8, List.replicate 6 oneCard⟩) (loadingJob (batchJob 7) (station .live 3#8))
    (descOf t 47).chain = [some 0] ∧ (descOf t 47).reserve = 1 := by decide +kernel

/-- No key can be used at the first card of a batch: the job drains, and its only block returns at once (R151, R158). -/
theorem test_key_stopped_returns_the_blocks :
    let t := after (.cards (fromNode 15) ⟨7#8, 15#8, 0#8, [oneCard]⟩) (loadingJob (batchJob 1) (station .live 3#8))
    t.pool.draining = [47] ∧ t.pool.freeBlocks.length = 192 ∧ t.pool.loading = [] := by decide +kernel

/-- A settle past the end of the used count: that count is open, the reserved count still falls and EXHAUSTED stays. -/
theorem test_settle_past_the_end :
    ((Directory.erased.setUsage 63 ⟨4294967295#32, 1#32, true⟩).settle 63 1 1).usageOf 63
      = ⟨Config.usedPastEnd 4294967295#32 1#32 1 1, 0#32, true⟩ := by rfl

theorem test_propose_and_refuse :
    hasFrame (after (.propose (fromNode 1) (propose 1#8 2#8)) (keyed (station .live 3#8))) (fun f => f == .refuse 1#8 1#8 3#8)
      = true := by decide +kernel

theorem test_commit_suspends :
    let t := after (.commit (fromNode 1) 255#8 1#32 1#16 (pinsAt false)) (withRound aRound (keyed (station .live 3#8)))
    (t.dir.slot 63).state = .suspended ∧ t.dir.seq = 1#32 ∧ (t.dir.slot 63).version = 1#16 := by decide +kernel

theorem test_order_becomes_a_proposal :
    (after (.orderSuspend (toUs 15) (plainOrder 63#8)) (keyed (station .live 3#8))).rounds.own.phase = .proposed := by decide +kernel

theorem test_pull_is_answered_by_images :
    (after (.pull (toUs 1) 3#8 62#8) (station .live 3#8)).link.queue.map (·.frame)
      = [.image 1 3#8 62#8, .image 1 3#8 63#8, .image 1 3#8 0#8, .image 1 3#8 1#8] := by decide +kernel

theorem test_image_of_a_slot :
    (after (.image (toUs 1) 3#8 63#8 9#32 (slotBytes (keyedDirectory.slot 63) ++ usageBytes ⟨1#32, 2#32, true⟩))
      (pulling (station .catchup 2#8))).dir.usageOf 63 = ⟨1#32, 2#32, true⟩ := by decide +kernel

theorem test_query_is_served : hasFrame (after (.querySensors (toUs 15) 1#16) State.reset) isQueryReport = true := by decide +kernel

theorem test_door_open_zeroises : (after (.channelSample .D 1#10) (allArmed (station .live 3#8))).memb.state = .zeroised := by
  decide +kernel

theorem test_window_expiry_arms_the_door :
    (channelOf (after .windowExpiry (withWindow (some 1) (station .live 3#8))).tamper .D).state = .armed := by decide +kernel

theorem test_card_completion_counts :
    (after .cardCompletion (currentJob (batchJob 7) 0 (keyed (station .live 3#8)))).engine.ctx.bad = 1 := by decide +kernel

/-- The two checks of the manual's parameters on the digits 1 to 9. -/
theorem test_checks_over_bytes :
    let digits : List Byte := [0x31#8, 0x32#8, 0x33#8, 0x34#8, 0x35#8, 0x36#8, 0x37#8, 0x38#8, 0x39#8]
    crc16 digits = 0x29B1#16 ∧ crc32 digits = 0xCBF43926#32 := by decide +kernel

/-! ## Hypotheses that are met -/

theorem witness_StepRunsFrontCommand :
    (∃ (c : Instr) (rest : List Instr) (s : State), s.pending = c :: rest)
    ∧ (∃ (s : State), s.pending = []) := by
  refine ⟨⟨.contention, [], { State.reset with pending := [.contention] }, ?_⟩,
    ⟨State.reset, ?_⟩⟩
  all_goals decide +kernel

theorem witness_SupplyReturnColdStart :
    (∃ (pins : Pins) (s : State), ((s.memb.state = .retention ∧ s.tamper.storeValid = false) ∨ (s.memb.state = .strapFault ∧
      s.inputs.powerFail = true)))
    ∧ (∃ (pins : Pins) (s : State), ((s.memb.state = .retention ∧ s.tamper.storeValid = false) ∨ (s.memb.state = .strapFault ∧
      s.inputs.powerFail = true))) := by
  refine ⟨⟨pinsAt true, { station .retention 0#8 with tamper := { State.reset.tamper with storeValid := false } }, ?_⟩,
    ⟨pinsAt true, { station .strapFault 0#8 with inputs := { State.reset.inputs with powerFail := true } }, ?_⟩⟩
  all_goals decide +kernel

theorem witness_SupplyReturnWarmStart :
    ∃ (pins : Pins) (s : State), s.memb.state = .retention ∧ s.tamper.storeValid = true ∧ s.memb.retainedZeroised = false ∧
      (s.tamper.window = none ∨ pins.doorOpen = false) := by
  refine ⟨pinsAt true, station .retention 0#8, ?_⟩
  all_goals decide +kernel

theorem witness_SupplyReturnElsewhere :
    (∃ (pins : Pins) (s : State), s.memb.state = .retention ∧ s.tamper.storeValid = true ∧ s.memb.retainedZeroised = true)
    ∧ (∃ (pins : Pins) (s : State), s.memb.state = .retention ∧ s.tamper.storeValid = true ∧ s.memb.retainedZeroised = true ∧
      s.tamper.retentionTrip = true ∧ s.tamper.cause = .channel .D ∧ s.link.alarm = none)
    ∧ (∃ (pins : Pins) (s : State), s.memb.state ≠ .retention ∧ (¬(s.memb.state = .strapFault ∧ s.inputs.powerFail = true)))
    ∧ (∃ (pins : Pins) (s : State), s.memb.state ≠ .retention ∧ (¬(s.memb.state = .strapFault ∧ s.inputs.powerFail = true))) := by
  refine ⟨⟨pinsAt true, { State.reset with memb := { State.reset.memb with state := .retention, retainedZeroised := true } }, ?_⟩,
    ⟨pinsAt true,
      { State.reset with memb := { State.reset.memb with state := .retention, retainedZeroised := true }, tamper := { State.reset.tamper with retentionTrip := true, cause := .channel .D } },
      ?_⟩,
    ⟨pinsAt true, State.reset, ?_⟩,
    ⟨pinsAt true, station .strapFault 0#8, ?_⟩⟩
  all_goals decide +kernel

theorem witness_PowerFailEntersRetention :
    (∃ (pins : Pins) (s : State), s.memb.state ≠ .retention ∧ s.memb.state ≠ .strapFault ∧ s.tamper.window ≠ none ∧
      pins.doorOpen = true)
    ∧ (∃ (pins : Pins) (s : State), s.memb.state ≠ .retention ∧ s.memb.state ≠ .strapFault ∧ s.tamper.window ≠ none ∧
      pins.doorOpen = false)
    ∧ (∃ (pins : Pins) (s : State), s.memb.state = .strapFault)
    ∧ (∃ (pins : Pins) (s : State), s.memb.state = .retention) := by
  refine ⟨⟨pinsAt true, withWindow (some 1) (station .live 3#8), ?_⟩,
    ⟨pinsAt false, withWindow (some 65535) (station .zeroised 0#8), ?_⟩,
    ⟨pinsAt true, station .strapFault 0#8, ?_⟩,
    ⟨pinsAt true, station .retention 0#8, ?_⟩⟩
  all_goals decide +kernel

theorem witness_InputLevels :
    (∃ (s : State), s.inputs.clear = true)
    ∧ (∃ (s : State), s.inputs.clear = false ∧ s.memb.state = .zeroised)
    ∧ (∃ (s : State), s.inputs.clear = false ∧ s.memb.state ≠ .zeroised)
    ∧ (∃ (s : State), s.memb.state = .retention)
    ∧ (∃ (s : State), s.memb.state ≠ .retention)
    ∧ (∃ (s : State), s.memb.presenceLoading = true ∧ (∀ d f, s.link.bus ≠ .sending .presence d f))
    ∧ (∃ (s : State) (d : Dest) (f : Frame), s.memb.presenceLoading = true ∧ s.link.bus = .sending .presence d f)
    ∧ (∃ (s : State), s.memb.presenceLoading = false) := by
  refine ⟨⟨{ State.reset with inputs := { State.reset.inputs with clear := true } }, ?_⟩,
    ⟨station .zeroised 0#8, ?_⟩,
    ⟨State.reset, ?_⟩,
    ⟨station .retention 0#8, ?_⟩,
    ⟨State.reset, ?_⟩,
    ⟨State.reset, rfl, nofun⟩,
    ⟨withBus (.sending .presence ⟨true, 0⟩ (.zero 1#8)) State.reset, ⟨true, 0⟩, .zero 1#8, ?_⟩,
    ⟨{ State.reset with memb := { State.reset.memb with presenceLoading := false } }, ?_⟩⟩
  all_goals decide +kernel

theorem witness_ContentionChoosesCandidate :
    (∃ (s : State), s.link.bus = .idle ∧ onLink s = true ∧ s.link.alarm ≠ none)
    ∧ (∃ (s : State), s.link.bus = .idle ∧ onLink s = true ∧ s.link.alarm = none ∧ s.link.presence.held = true)
    ∧ (∃ (s : State) (l1 l2 : List TxEntry) (e : TxEntry), s.link.bus = .idle ∧ onLink s = true ∧ s.link.alarm = none ∧
      s.link.presence.held = false ∧ s.link.queue = l1 ++ e :: l2 ∧ mayChoose s e.frame = true ∧ (∀ x ∈ l1, mayChoose s
      x.frame = true → txClass e.frame < txClass x.frame) ∧ (∀ x ∈ l2, mayChoose s x.frame = true → txClass e.frame ≤
      txClass x.frame))
    ∧ (∃ (s : State), s.link.alarm = none ∧ s.link.presence.held = false ∧ (∀ e ∈ s.link.queue, mayChoose s e.frame = false))
    ∧ (∃ (s : State), (s.link.bus ≠ .idle ∨ onLink s = false))
    ∧ (∃ (s : State), (s.link.bus ≠ .idle ∨ onLink s = false)) := by
  refine ⟨⟨{ State.reset with link := { State.reset.link with alarm := some .order } }, ?_⟩,
    ⟨State.reset, ?_⟩,
    ⟨withQueue [⟨0, .report 15 [], .none⟩, ⟨1, .accept 1#8 255#8, .none⟩, ⟨2, .accept 1#8 0#8, .none⟩] (station .live 3#8),
      [⟨0, .report 15 [], .none⟩], [⟨2, .accept 1#8 0#8, .none⟩], ⟨1, .accept 1#8 255#8, .none⟩, ?_⟩,
    ⟨withQueue [] (station .live 3#8), ?_⟩,
    ⟨withBus (.sending .presence ⟨true, 0⟩ (.zero 1#8)) State.reset, ?_⟩,
    ⟨station .retention 0#8, ?_⟩⟩
  all_goals decide +kernel

theorem witness_ArbitrationEnds :
    (∃ (s : State) (age : Nat) (e : TxEntry), s.link.bus = .contending (.entry age) ∧ entryOf s.link age = some e)
    ∧ (∃ (s : State), s.link.bus = .contending .presence)
    ∧ (∃ (s : State) (c : ZeroCause), s.link.bus = .contending .alarm ∧ s.link.alarm = some c)
    ∧ (∃ (s : State) (age : Nat) (e : TxEntry), s.link.bus = .contending (.entry age) ∧ entryOf s.link age = some e ∧ e.hold =
      .none)
    ∧ (∃ (s : State) (age : Nat) (e : TxEntry), s.link.bus = .contending (.entry age) ∧ entryOf s.link age = some e ∧ e.hold =
      .none ∧ isLive s = false)
    ∧ (∃ (s : State) (age : Nat) (e : TxEntry), QueueOrdered s ∧ s.link.bus = .contending (.entry age) ∧ entryOf s.link age =
      some e ∧ e.hold = .purge)
    ∧ (∃ (s : State) (age : Nat) (e : TxEntry), QueueOrdered s ∧ s.link.bus = .contending (.entry age) ∧ entryOf s.link age =
      some e ∧ e.hold = .withdraw ∧ isJoin e.frame = false)
    ∧ (∃ (s : State) (age : Nat) (e : TxEntry), QueueOrdered s ∧ s.link.bus = .contending (.entry age) ∧ entryOf s.link age =
      some e ∧ e.hold = .withdraw)
    ∧ (∃ (s : State), (s.link.bus = .contending .alarm ∨ s.link.bus = .contending .presence))
    ∧ (∃ (s : State), (s.link.bus = .contending .alarm ∨ s.link.bus = .contending .presence))
    ∧ (∃ (won : Bool) (s : State), (∀ c, s.link.bus ≠ .contending c)) := by
  refine ⟨⟨withBus (.contending (.entry 15)) (withQueue [⟨15, .accept 1#8 255#8, .none⟩] (station .live 3#8)), 15, ⟨15, .accept 1#8
      255#8, .none⟩, ?_⟩,
    ⟨withBus (.contending .presence) State.reset, ?_⟩,
    ⟨withBus (.contending .alarm) { State.reset with link := { State.reset.link with alarm := some (.channel .C) } }, .channel
      .C, ?_⟩,
    ⟨withBus (.contending (.entry 15)) (withQueue [⟨15, .accept 1#8 255#8, .none⟩] (station .live 3#8)), 15, ⟨15, .accept 1#8
      255#8, .none⟩, ?_⟩,
    ⟨withBus (.contending (.entry 15)) (withQueue [⟨15, .accept 1#8 255#8, .none⟩] (station .catchup 2#8)), 15, ⟨15, .accept
      1#8 255#8, .none⟩, ?_⟩,
    ⟨withBus (.contending (.entry 15)) (withQueue [⟨15, .accept 1#8 255#8, .purge⟩] (station .live 3#8)), 15, ⟨15, .accept 1#8
      255#8, .purge⟩, ?_⟩,
    ⟨withBus (.contending (.entry 15)) (withQueue [⟨15, .accept 1#8 255#8, .withdraw⟩] (station .live 3#8)), 15, ⟨15, .accept
      1#8 255#8, .withdraw⟩, ?_⟩,
    ⟨withBus (.contending (.entry 15)) (withQueue [⟨15, .join true, .withdraw⟩] (station .listening 0#8)), 15, ⟨15, .join
      true, .withdraw⟩, ?_⟩,
    ⟨withBus (.contending .alarm) State.reset, ?_⟩,
    ⟨withBus (.contending .presence) State.reset, ?_⟩,
    ⟨true, State.reset, nofun⟩⟩
  all_goals ((try unfold QueueOrdered); decide +kernel)

theorem witness_FrameSentReleases :
    (∃ (receipt : NodeMap) (pins : Pins) (s : State) (age : Nat) (d : Dest) (f : Frame) (e : TxEntry), QueueOrdered s ∧
      s.link.bus = .sending (.entry age) d f ∧ entryOf s.link age = some e)
    ∧ (∃ (receipt : NodeMap) (pins : Pins) (s : State) (age : Nat) (d : Dest) (f : Frame) (e : TxEntry), s.link.bus = .sending
      (.entry age) d f ∧ entryOf s.link age = some e)
    ∧ (∃ (receipt : NodeMap) (pins : Pins) (s : State) (c : Candidate) (d : Dest) (f : Frame), s.link.bus = .sending c d f ∧ (c
      = .alarm ∨ c = .presence))
    ∧ (∃ (receipt : NodeMap) (pins : Pins) (s : State) (c : Candidate) (d : Dest) (f : Frame), s.link.bus = .sending c d f ∧ (c
      = .alarm ∨ c = .presence))
    ∧ (∃ (receipt : NodeMap) (pins : Pins) (s : State) (age : Nat) (d : Dest) (k : StationId) (area start : Byte) (stale : Bool)
      (hold : Hold), s.memb.state = .catchup ∧ s.catchUp.phase = .pulling ∧ s.link.bus = .sending (.entry age) d (.pull
      area start) ∧ entryOf s.link age = some ⟨age, .pull k area start stale, hold⟩)
    ∧ (∃ (receipt : NodeMap) (pins : Pins) (s : State) (age : Nat) (d : Dest) (k : StationId) (area start : Byte) (stale : Bool)
      (hold : Hold), s.memb.state = .catchup ∧ s.catchUp.phase = .pulling ∧ s.link.bus = .sending (.entry age) d (.pull
      area start) ∧ entryOf s.link age = some ⟨age, .pull k area start stale, hold⟩)
    ∧ (∃ (receipt : NodeMap) (pins : Pins) (s : State) (age : Nat) (d : Dest) (puller : Node) (area item : Byte) (seq : Word)
      (contents : List Byte) (hold : Hold) (x : PullEntry) (rest : List PullEntry), s.memb.state = .live ∧ s.link.bus =
      .sending (.entry age) d (.image area item seq contents) ∧ entryOf s.link age = some ⟨age, .image puller area item,
      hold⟩ ∧ s.catchUp.serve = x :: rest ∧ x.puller = puller ∧ x.area = area ∧ item ∈ x.items ∧ x.items.erase item ≠ [])
    ∧ (∃ (receipt : NodeMap) (pins : Pins) (s : State) (age : Nat) (d : Dest) (puller : Node) (area item : Byte) (seq : Word)
      (contents : List Byte) (hold : Hold) (x : PullEntry) (rest : List PullEntry), s.memb.state = .live ∧ s.link.bus =
      .sending (.entry age) d (.image area item seq contents) ∧ entryOf s.link age = some ⟨age, .image puller area item,
      hold⟩ ∧ s.catchUp.serve = x :: rest ∧ x.puller = puller ∧ x.area = area ∧ item ∈ x.items ∧ x.items.erase item = [] ∧
      rest ≠ [])
    ∧ (∃ (receipt : NodeMap) (pins : Pins) (s : State) (age : Nat) (dst : Dest) (d : DescId) (b b' : FinalBody) (hold : Hold),
      s.link.bus = .sending (.entry age) dst (.final b) ∧ entryOf s.link age = some ⟨age, .final (some d) b', hold⟩ ∧ d ∈
      s.pool.draining ∧ (descOf s d).teardownMark = false ∧ OneQueueEach s)
    ∧ (∃ (receipt : NodeMap) (pins : Pins) (s : State) (age number : Nat) (dst : Dest) (d : DescId) (g : Node) (body body' :
      List Byte) (hold : Hold) (x : Segment), s.link.bus = .sending (.entry age) dst (.answer body) ∧ entryOf s.link age =
      some ⟨age, .answer (some d) g number body', hold⟩ ∧ (s.pool.engine = some d ∨ d ∈ s.pool.bulk ∨ d ∈ s.pool.draining)
      ∧ OneQueueEach s ∧ (tget s.engine.segs d).find? (fun y => y.number == number) = some x ∧ isStream (descOf s d) =
      true)
    ∧ (∃ (receipt : NodeMap) (pins : Pins) (s : State) (age number : Nat) (dst : Dest) (d : DescId) (g : Node) (body body' :
      List Byte) (hold : Hold) (x : Segment), s.link.bus = .sending (.entry age) dst (.answer body) ∧ entryOf s.link age =
      some ⟨age, .answer (some d) g number body', hold⟩ ∧ (s.pool.engine = some d ∨ d ∈ s.pool.bulk ∨ d ∈ s.pool.draining)
      ∧ OneQueueEach s ∧ (tget s.engine.segs d).find? (fun y => y.number == number) = some x ∧ isHold (descOf s d) = true)
    ∧ (∃ (l : Link) (i : Nat) (f : TxFrame), nextAdmission l = some i ∧ l.admissions[i]? = some f)
    ∧ (∃ (l : Link) (i : Nat) (f : TxFrame), nextAdmission l = some i ∧ l.admissions[i]? = some f)
    ∧ (∃ (s : State) (g : TxFrame), g ∈ (fillQueue s).link.admissions)
    ∧ (∃ (receipt : NodeMap) (pins : Pins) (s : State) (d : Dest) (b : PresenceBody), s.link.bus = .sending .presence d
      (.presence b))
    ∧ (∃ (receipt : NodeMap) (pins : Pins) (s : State) (c : ZeroCause), onLink s = true ∧ s.straps.valid = true ∧ s.link.bus =
      .sending .alarm ⟨true, 0⟩ (.zero c.code))
    ∧ (∃ (receipt : NodeMap) (pins : Pins) (s : State) (age number : Nat) (job : Option DescId) (g : Node) (body : List Byte)
      (hold : Hold), onLink s = true ∧ s.straps.valid = true ∧ answerLengthOk body.length = true ∧ s.link.bus = .sending
      (.entry age) ⟨false, g⟩ (.answer body) ∧ entryOf s.link age = some ⟨age, .answer job g number body, hold⟩ ∧
      QueueOrdered s)
    ∧ (∃ (receipt : NodeMap) (pins : Pins) (s : State), (∀ c d f, s.link.bus ≠ .sending c d f)) := by
  refine ⟨⟨0#16, pinsAt true, withBus (.sending (.entry 15) ⟨true, 0⟩ (.accept 1#8 255#8))
      (withQueue [⟨15, .accept 1#8 255#8, .none⟩] (station .live 3#8)), 15, ⟨true, 0⟩, .accept 1#8 255#8, ⟨15, .accept 1#8
      255#8, .none⟩, ?_⟩,
    ⟨0#16, pinsAt true, withBus (.sending (.entry 15) ⟨true, 0⟩ (.accept 1#8 255#8))
      (withQueue [⟨14, .report 15 [], .none⟩, ⟨15, .accept 1#8 255#8, .none⟩] (station .live 3#8)), 15, ⟨true, 0⟩, .accept
      1#8 255#8, ⟨15, .accept 1#8 255#8, .none⟩, ?_⟩,
    ⟨0#16, pinsAt true, withBus (.sending .alarm ⟨true, 0⟩ (.zero 7#8))
      { State.reset with link := { State.reset.link with alarm := some .order } }, .alarm, ⟨true, 0⟩, .zero 7#8, ?_⟩,
    ⟨65535#16, pinsAt false, withBus
      (.sending .presence ⟨true, 0⟩ (.presence ⟨StationState.live.code, true, false, 4294967295#32, 0#32, 0#32, 3#16, 9#24, 0#8, 0#8⟩))
      State.reset, .presence, ⟨true, 0⟩, .presence ⟨StationState.live.code, true, false, 4294967295#32, 0#32, 0#32, 3#16,
      9#24, 0#8, 0#8⟩, ?_⟩,
    ⟨0#16, pinsAt false, withBus (.sending (.entry 15) ⟨true, 0⟩ (.pull 3#8 63#8))
      (withQueue [⟨15, .pull 1 3#8 63#8 false, .none⟩] (pulling (station .catchup 2#8))), 15, ⟨true, 0⟩, 1, 3#8, 63#8,
      false, .none, ?_⟩,
    ⟨0#16, pinsAt false, withBus (.sending (.entry 15) ⟨true, 0⟩ (.pull 3#8 63#8))
      (withQueue [⟨15, .pull 1 3#8 63#8 true, .none⟩] (pulling (station .catchup 2#8))), 15, ⟨true, 0⟩, 1, 3#8, 63#8,
      true, .none, ?_⟩,
    ⟨0#16, pinsAt false, withBus (.sending (.entry 15) ⟨false, 1⟩ (.image 3#8 63#8 1#32 []))
      (withQueue [⟨15, .image 1 3#8 63#8, .none⟩] { station .live 3#8 with catchUp := { State.reset.catchUp with serve := ⟨1, 3#8, 62#8, [62#8, 63#8]⟩ :: [] } }),
      15, ⟨false, 1⟩, 1, 3#8, 63#8, 1#32, [], .none, ⟨1, 3#8, 62#8, [62#8, 63#8]⟩, [], ?_⟩,
    ⟨0#16, pinsAt false, withBus (.sending (.entry 15) ⟨false, 1⟩ (.image 3#8 63#8 1#32 []))
      (withQueue [⟨15, .image 1 3#8 63#8, .none⟩] { station .live 3#8 with catchUp := { State.reset.catchUp with serve := ⟨1, 3#8, 62#8, [63#8]⟩ :: [⟨1, 1#8, 0#8, [0#8]⟩] } }),
      15, ⟨false, 1⟩, 1, 3#8, 63#8, 1#32, [], .none, ⟨1, 3#8, 62#8, [63#8]⟩, [⟨1, 1#8, 0#8, [0#8]⟩], ?_⟩,
    ⟨0#16, pinsAt false, withBus (.sending (.entry 15) ⟨true, 0⟩ (.final ⟨lastPos, 1#8, 0#8, 0#8, 0#8, 0#8, 0#8⟩))
      (withQueue [⟨15, .final (some 47) ⟨lastPos, 1#8, 0#8, 0#8, 0#8, 0#8, 0#8⟩, .none⟩] (drainingJob { batchJob 7 with chain := [some 0, none] } [] (station .live 3#8))),
      15, ⟨true, 0⟩, 47, ⟨lastPos, 1#8, 0#8, 0#8, 0#8, 0#8, 0#8⟩, ⟨lastPos, 1#8, 0#8, 0#8, 0#8, 0#8, 0#8⟩, .none, ?_⟩,
    ⟨65535#16, pinsAt false, withBus (.sending (.entry 15) ⟨false, 15⟩ (.answer []))
      (withQueue [⟨15, .answer (some 47) 15 1 [], .none⟩] (drainingJob { batchJob 7 with policy := policyStream, chain := [some 0, some 191] } [⟨1, 0, 4, 0#16, .queued⟩, ⟨2, 4, 3, 0#16, .pending⟩] (station .live 3#8))),
      15, 1, ⟨false, 15⟩, 47, 15, [], [], .none, ⟨1, 0, 4, 0#16, .queued⟩, ?_⟩,
    ⟨65535#16, pinsAt false, withBus (.sending (.entry 15) ⟨false, 15⟩ (.answer []))
      (withQueue [⟨15, .answer (some 47) 15 1 [], .none⟩] (drainingJob { batchJob 7 with policy := policyHold, chain := [some 0, some 191] } [⟨1, 0, 4, 0#16, .queued⟩, ⟨2, 4, 3, 0#16, .pending⟩] (station .live 3#8))),
      15, 1, ⟨false, 15⟩, 47, 15, [], [], .none, ⟨1, 0, 4, 0#16, .queued⟩, ?_⟩,
    ⟨{ State.reset.link with admissions := [.unclaimed lastPos] }, 0, .unclaimed lastPos, ?_⟩,
    ⟨{ State.reset.link with queue := List.replicate 15 ⟨0, .unclaimed lastPos, .none⟩, admissions := [.report 15 [], .unclaimed lastPos] },
      1, .unclaimed lastPos, ?_⟩,
    ⟨{ State.reset with link := { State.reset.link with queue := List.replicate 16 ⟨0, .unclaimed lastPos, .none⟩, admissions := [.unclaimed lastPos] } },
      .unclaimed lastPos, ?_⟩,
    ⟨65535#16, pinsAt false, withBus
      (.sending .presence ⟨true, 0⟩ (.presence ⟨1#8, false, false, 0#32, 0#32, 0#32, 0#16, 0#24, 48#8, 192#8⟩))
      State.reset, ⟨true, 0⟩, ⟨1#8, false, false, 0#32, 0#32, 0#32, 0#16, 0#24, 48#8, 192#8⟩, ?_⟩,
    ⟨0#16, pinsAt false, withBus (.sending .alarm ⟨true, 0⟩ (.zero 7#8)) State.reset, .order, ?_⟩,
    ⟨0#16, pinsAt false, withBus (.sending (.entry 15) ⟨false, 15⟩ (.answer (List.replicate 95 0#8)))
      (withQueue [⟨15, .answer none 15 255 (List.replicate 95 0#8), .purge⟩] (station .live 3#8)), 15, 255, none, 15,
      List.replicate 95 0#8, .purge, ?_⟩,
    ⟨0#16, pinsAt false, State.reset, nofun⟩⟩
  all_goals ((try unfold OneQueueEach); (try unfold QueueOrdered); decide +kernel)

theorem witness_FramesNotReceived :
    (∃ (s : State) (c : Candidate) (d : Dest) (f : Frame), onLink s = true ∧ s.link.bus = .sending c d f)
    ∧ (∃ (s : State), onLink s = true ∧ (∀ c d f, s.link.bus ≠ .sending c d f))
    ∧ (∃ (s : State), onLink s = false)
    ∧ (∃ (s : State), onLink s = true)
    ∧ (∃ (s : State), s.memb.state = .live ∧ s.memb.leaving = false)
    ∧ (∃ (s : State), s.memb.state = .catchup ∧ (s.catchUp.phase = .waitSource ∨ s.catchUp.phase = .pulling ∨ s.catchUp.phase =
      .verifying))
    ∧ (∃ (s : State), s.memb.state = .catchup ∧ (s.catchUp.phase = .waitSource ∨ s.catchUp.phase = .pulling ∨ s.catchUp.phase =
      .verifying))
    ∧ (∃ (s : State), s.memb.state = .catchup ∧ s.catchUp.phase = .joining)
    ∧ (∃ (s : State), onLink s = true ∧ s.memb.state ≠ .live ∧ s.memb.state ≠ .catchup)
    ∧ (∃ (s : State), onLink s = false) := by
  refine ⟨⟨withBus (.sending .presence ⟨true, 0⟩ (.zero 1#8)) State.reset, .presence, ⟨true, 0⟩, .zero 1#8, ?_⟩,
    ⟨State.reset, rfl, nofun⟩,
    ⟨station .retention 0#8, ?_⟩,
    ⟨{ State.reset with link := { State.reset.link with receiveErrors := 65535#16 } }, ?_⟩,
    ⟨station .live 3#8, ?_⟩,
    ⟨{ station .catchup 2#8 with catchUp := { State.reset.catchUp with phase := .waitSource } }, ?_⟩,
    ⟨{ station .catchup 2#8 with catchUp := { State.reset.catchUp with phase := .verifying, failures := 2 } }, ?_⟩,
    ⟨atPhase .joining (station .catchup 2#8), ?_⟩,
    ⟨State.reset, ?_⟩,
    ⟨station .strapFault 0#8, ?_⟩⟩
  all_goals decide +kernel

theorem witness_FilteredFramesAreCounted :
    (∃ (raw : RawFrame) (s : State), onLink s = true ∧ raw.body.length ≤ 96 ∧ (∀ f, rawFrame? raw = some f → frameMisplaced f
      (stationCount s) (rawHeader raw) = true))
    ∧ (∃ (raw : RawFrame) (s : State), onLink s = true ∧ 96 < raw.body.length)
    ∧ (∃ (raw : RawFrame) (s : State), onLink s = false)
    ∧ (∃ (h : Header) (f : Frame) (c : Instr) (pins : Pins) (s : State), memberCommand h f pins = some c ∧ frameMisplaced f
      (stationCount s) h = false ∧ applies s = true ∧ setHas s.memb.live h.src.val = false ∧ roleOf (stationCount s) h.src
      = .station) := by
  refine ⟨⟨⟨3#2, 31#5, 15, 255#8, List.replicate 96 0#8⟩, State.reset, rfl, (by decide), fun f h => nomatch
      (show none = some f from (show rawFrame? ⟨3#2, 31#5, 15, 255#8, List.replicate 96 0#8⟩ = none from by decide +kernel) ▸ h)⟩,
    ⟨⟨3#2, 31#5, 15, 255#8, List.replicate 97 0#8⟩, State.reset, ?_⟩,
    ⟨⟨3#2, 31#5, 15, 255#8, []⟩, station .retention 0#8, ?_⟩,
    ⟨fromNode 1, .accept 0#8 255#8, .accept (fromNode 1) 0#8 255#8, pinsAt false, station .live 1#8, ?_⟩⟩
  all_goals decide +kernel

theorem witness_ZeroisationErases :
    (∃ (h : Header) (cause : Byte) (k : StationId) (s : State), Reaches s h (.zero cause) ∧ stationOf? s h.src = some k ∧ k ≠
      self s ∧ zeroCauseListed cause = true ∧ s.memb.state ≠ .zeroised ∧ s.tamper.window ≠ none)
    ∧ (∃ (h : Header) (cause : Byte) (k : StationId) (s : State), Reaches s h (.zero cause) ∧ stationOf? s h.src = some k ∧ k ≠
      self s ∧ zeroCauseListed cause = true ∧ s.memb.state ≠ .zeroised ∧ s.tamper.window = none)
    ∧ (∃ (h : Header) (cause : Byte) (k : StationId) (s : State), Reaches s h (.zero cause) ∧ stationOf? s h.src = some k ∧ (k =
      self s ∨ s.memb.state = .zeroised))
    ∧ (∃ (h : Header) (cause : Byte) (k : StationId) (s : State), Reaches s h (.zero cause) ∧ stationOf? s h.src = some k ∧ (k =
      self s ∨ s.memb.state = .zeroised))
    ∧ (∃ (h : Header) (b : OrderBody) (s : State), Reaches s h (.order codeErase b) ∧ orderFormFails codeErase b = false ∧
      orderServed s codeErase = true ∧ orderApprovalsFail s codeErase b = false) := by
  refine ⟨⟨fromNode 1, 1#8, 1, withWindow (some 1) (station .live 3#8), ?_⟩,
    ⟨fromNode 1, 7#8, 1, State.reset, ?_⟩,
    ⟨fromNode 0, 7#8, 0, station .live 3#8, ?_⟩,
    ⟨fromNode 1, 7#8, 1, station .zeroised 0#8, ?_⟩,
    ⟨toUs 15, signedOrder (keyed (station .live 3#8)) codeErase 255#8, keyed (station .live 3#8),
      (by unfold Reaches; decide +kernel), (by decide +kernel), (by decide +kernel), signedOrder_approved _ _ _ rfl⟩⟩
  all_goals ((try unfold Reaches); decide +kernel)

theorem witness_PresenceFillsRecord :
    (∃ (h : Header) (b : PresenceBody) (k : StationId) (st : StationState) (s : State), Reaches s h (.presence b) ∧ stationOf?
      s h.src = some k ∧ StationState.ofCode? b.state = some st)
    ∧ (∃ (h : Header) (b : PresenceBody) (k : StationId) (st : StationState) (s : State), Reaches s h (.presence b) ∧ stationOf?
      s h.src = some k ∧ StationState.ofCode? b.state = some st ∧ s.memb.state = .live ∧ isMember s k = true ∧ k ≠ self s
      ∧ st ≠ .live ∧ duty s = true)
    ∧ (∃ (h : Header) (b : PresenceBody) (k : StationId) (st : StationState) (s : State), Reaches s h (.presence b) ∧ stationOf?
      s h.src = some k ∧ StationState.ofCode? b.state = some st ∧ s.memb.state = .live ∧ isMember s k = true ∧ k ≠ self s
      ∧ st = .live ∧ s.dir.seq.toNat < b.seq.toNat ∧ s.memb.leaving = false)
    ∧ (∃ (h : Header) (b : PresenceBody) (k : StationId) (st : StationState) (s : State), Reaches s h (.presence b) ∧ stationOf?
      s h.src = some k ∧ StationState.ofCode? b.state = some st ∧ s.memb.state = .live ∧ isMember s k = true ∧ k ≠ self s
      ∧ st = .live ∧ b.seq = s.dir.seq ∧ standingOf s b.seq b.dirDigest b.workDigest = .differ ∧ mismatched
      (recordPresence k st b s) = true ∧ s.memb.leaving = false)
    ∧ (∃ (h : Header) (b : PresenceBody) (k : StationId) (st : StationState) (s : State), Reaches s h (.presence b) ∧ stationOf?
      s h.src = some k ∧ StationState.ofCode? b.state = some st ∧ s.memb.state = .listening ∧ (st ≠ .live ∨ b.check ≠
      s.dir.cabinetCheck))
    ∧ (∃ (h : Header) (b : PresenceBody) (k : StationId) (st : StationState) (s : State), Reaches s h (.presence b) ∧ stationOf?
      s h.src = some k ∧ StationState.ofCode? b.state = some st ∧ s.memb.state = .listening ∧ (st ≠ .live ∨ b.check ≠
      s.dir.cabinetCheck))
    ∧ (∃ (h : Header) (b : PresenceBody) (k : StationId) (st : StationState) (s : State), Reaches s h (.presence b) ∧ stationOf?
      s h.src = some k ∧ StationState.ofCode? b.state = some st ∧ s.memb.state = .listening ∧ hasFrame s isFoundingJoin =
      false)
    ∧ (∃ (h : Header) (b : PresenceBody) (k : StationId) (st : StationState) (s : State), Reaches s h (.presence b) ∧ stationOf?
      s h.src = some k ∧ StationState.ofCode? b.state = some st ∧ s.memb.state = .listening ∧ hasFrame s isFoundingJoin =
      false ∧ s.memb.windowOpen = true ∧ k ≠ self s)
    ∧ (∃ (h : Header) (b : PresenceBody) (k j : StationId) (s : State), Reaches s h (.presence b) ∧ stationOf? s h.src = some k
      ∧ b.state = StationState.live.code ∧ s.memb.state = .listening ∧ s.memb.windowOpen = false ∧ heardLive s = none ∧
      hasFrame s isFoundingJoin = true ∧ b.check = s.dir.cabinetCheck ∧ setHas (setOfMap (stationCount s) b.live) j.val =
      true ∧ (∀ i : StationId, i < j → setHas (setOfMap (stationCount s) b.live) i.val = false) ∧ (∀ e ∈ s.link.queue,
      isFoundingJoin e.frame = true → isWaiting s.link e = true))
    ∧ (∃ (h : Header) (b : PresenceBody) (k j : StationId) (s : State), Reaches s h (.presence b) ∧ stationOf? s h.src = some k
      ∧ b.state = StationState.live.code ∧ s.memb.state = .listening ∧ s.memb.windowOpen = false ∧ heardLive s = none ∧
      hasFrame s isFoundingJoin = true ∧ b.check = s.dir.cabinetCheck ∧ setHas (setOfMap (stationCount s) b.live) j.val =
      true ∧ (∀ i : StationId, i < j → setHas (setOfMap (stationCount s) b.live) i.val = false) ∧ (∃ e ∈ s.link.queue,
      isFoundingJoin e.frame = true ∧ isWaiting s.link e = false))
    ∧ (∃ (h : Header) (b : PresenceBody) (k : StationId) (s : State), Reaches s h (.presence b) ∧ stationOf? s h.src = some k ∧
      b.state = StationState.live.code ∧ s.memb.state = .catchup ∧ s.catchUp.source = some k ∧ s.catchUp.phase =
      .waitSource ∧ b.seq.toNat < s.dir.seq.toNat)
    ∧ (∃ (h : Header) (b : PresenceBody) (k : StationId) (s : State), Reaches s h (.presence b) ∧ stationOf? s h.src = some k ∧
      b.state = StationState.live.code ∧ s.memb.state = .catchup ∧ s.catchUp.source = some k ∧ s.catchUp.phase =
      .waitSource ∧ s.dir.seq.toNat ≤ b.seq.toNat)
    ∧ (∃ (h : Header) (b : PresenceBody) (k : StationId) (s : State), Reaches s h (.presence b) ∧ stationOf? s h.src = some k ∧
      b.state = StationState.live.code ∧ s.memb.state = .catchup ∧ s.catchUp.source = some k ∧ s.catchUp.phase = .joining)
    ∧ (∃ (h : Header) (b : PresenceBody) (k : StationId) (s : State), Reaches s h (.presence b) ∧ stationOf? s h.src = some k ∧
      b.state = StationState.live.code ∧ s.memb.state = .catchup ∧ s.catchUp.source = some k ∧ s.catchUp.phase =
      .verifying ∧ b.seq = s.dir.seq ∧ b.dirDigest = ownDirDigest s ∧ b.workDigest = ownWorkDigest s ∧ b.check =
      s.dir.cabinetCheck)
    ∧ (∃ (h : Header) (b : PresenceBody) (k : StationId) (s : State), Reaches s h (.presence b) ∧ stationOf? s h.src = some k ∧
      b.state = StationState.live.code ∧ s.memb.state = .catchup ∧ s.catchUp.source = some k ∧ s.catchUp.phase =
      .verifying ∧ (b.seq ≠ s.dir.seq ∨ b.dirDigest ≠ ownDirDigest s ∨ b.workDigest ≠ ownWorkDigest s ∨ b.check ≠
      s.dir.cabinetCheck))
    ∧ (∃ (h : Header) (b : PresenceBody) (k : StationId) (st : StationState) (s : State), Reaches s h (.presence b) ∧ stationOf?
      s h.src = some k ∧ StationState.ofCode? b.state = some st ∧ st ≠ .live ∧ s.memb.state = .catchup ∧ s.catchUp.source
      = some k ∧ s.catchUp.phase = .pulling)
    ∧ (∃ (h : Header) (b : PresenceBody) (k : StationId) (st : StationState) (s : State), Reaches s h (.presence b) ∧ stationOf?
      s h.src = some k ∧ StationState.ofCode? b.state = some st ∧ st ≠ .live ∧ s.memb.state = .catchup ∧ s.catchUp.source
      = some k ∧ s.catchUp.phase = .joining) := by
  refine ⟨⟨fromNode 1, ⟨StationState.live.code, true, false, 4294967295#32, 0#32, 0#32, 3#16, 9#24, 0#8, 0#8⟩, 1, .live,
      State.reset, ?_⟩,
    ⟨fromNode 1, ⟨StationState.listening.code, true, false, 4294967295#32, 0#32, 0#32, 3#16, 9#24, 0#8, 0#8⟩, 1, .listening,
      keyed (station .live 3#8), ?_⟩,
    ⟨fromNode 1, ⟨StationState.live.code, true, false, 4294967295#32, 0#32, 0#32, 3#16, 9#24, 0#8, 0#8⟩, 1, .live, keyed
      (station .live 3#8), ?_⟩,
    ⟨fromNode 1, differing, 1, .live, keyed (station .live 3#8), (by unfold Reaches; decide +kernel), rfl, rfl, rfl,
      (by decide +kernel), (by decide +kernel), rfl, rfl, differing_differs, differing_mismatched, rfl⟩,
    ⟨fromNode 1, ⟨StationState.listening.code, true, false, 4294967295#32, 0#32, 0#32, 3#16, 9#24, 0#8, 0#8⟩, 1, .listening,
      keyed (station .listening 0#8), ?_⟩,
    ⟨fromNode 1, ⟨StationState.live.code, true, false, 4294967295#32, 0#32, 0#32, 3#16, 9#24, 0#8, 0#8⟩, 1, .live, station
      .listening 0#8, ?_⟩,
    ⟨fromNode 1, ⟨StationState.live.code, true, false, 4294967295#32, 0#32, 0#32, 3#16, 9#24, 0#8, 0#8⟩, 1, .live, keyed
      (station .listening 0#8), ?_⟩,
    ⟨fromNode 1, ⟨StationState.listening.code, true, false, 4294967295#32, 0#32, 0#32, 3#16, 9#24, 0#8, 0#8⟩, 1, .listening,
      { State.reset with memb := { State.reset.memb with state := .listening, windowOpen := true } }, ?_⟩,
    ⟨fromNode 1, ⟨StationState.live.code, true, false, 4294967295#32, 0#32, 0#32, 3#16, 9#24, 0#8, 0#8⟩, 1, 0, withQueue [⟨15,
      .join true, .none⟩] (keyed (station .listening 0#8)), ?_⟩,
    ⟨fromNode 1, ⟨StationState.live.code, true, false, 4294967295#32, 0#32, 0#32, 3#16, 9#24, 0#8, 0#8⟩, 1, 0, withBus
      (.contending (.entry 15)) (withQueue [⟨15, .join true, .none⟩] (keyed (station .listening 0#8))), ?_⟩,
    ⟨fromNode 1, ⟨StationState.live.code, true, false, 0#32, 0#32, 0#32, 3#16, 9#24, 0#8, 0#8⟩, 1,
      (let s := atPhase .waitSource (keyed (station .catchup 2#8)); { s with dir := { s.dir with seq := 1#32 } }), ?_⟩,
    ⟨fromNode 1, ⟨StationState.live.code, true, false, 4294967295#32, 0#32, 0#32, 3#16, 9#24, 0#8, 0#8⟩, 1, atPhase
      .waitSource (keyed (station .catchup 2#8)), ?_⟩,
    ⟨fromNode 1, ⟨StationState.live.code, true, false, 4294967295#32, 0#32, 0#32, 3#16, 9#24, 0#8, 0#8⟩, 1, atPhase .joining
      (keyed (station .catchup 2#8)), ?_⟩,
    ⟨fromNode 1, agreeing (atPhase .verifying (keyed (station .catchup 2#8))), 1, atPhase .verifying
      (keyed (station .catchup 2#8)), (by unfold Reaches; decide +kernel), rfl, rfl, rfl, rfl, rfl, rfl, rfl, rfl, rfl⟩,
    ⟨fromNode 1, ⟨StationState.live.code, true, false, 4294967295#32, 0#32, 0#32, 3#16, 9#24, 0#8, 0#8⟩, 1, atPhase .verifying
      (keyed (station .catchup 2#8)), (by unfold Reaches; decide +kernel), rfl, rfl, rfl, rfl, rfl, .inl
      (by decide +kernel)⟩,
    ⟨fromNode 1, ⟨StationState.listening.code, true, false, 4294967295#32, 0#32, 0#32, 3#16, 9#24, 0#8, 0#8⟩, 1, .listening,
      atPhase .pulling (keyed (station .catchup 2#8)), ?_⟩,
    ⟨fromNode 1, ⟨StationState.listening.code, true, false, 4294967295#32, 0#32, 0#32, 3#16, 9#24, 0#8, 0#8⟩, 1, .listening,
      atPhase .joining (keyed (station .catchup 2#8)), ?_⟩⟩
  all_goals ((try unfold Reaches); decide +kernel)

theorem witness_JoinAddsMember :
    (∃ (h : Header) (b : JoinBody) (k : StationId) (s : State), Reaches s h (.join false b) ∧ stationOf? s h.src = some k ∧ k
      ≠ self s ∧ isMember s k = false ∧ b.check = s.dir.cabinetCheck ∧ hasFrame s isFoundingJoin = false)
    ∧ (∃ (h : Header) (b : JoinBody) (s : State), Reaches s h (.join false b) ∧ stationOf? s h.src = some (self s) ∧ isMember s
      (self s) = false ∧ b.check = s.dir.cabinetCheck ∧ s.memb.state = .catchup)
    ∧ (∃ (h : Header) (b : JoinBody) (s : State), Reaches s h (.join false b) ∧ stationOf? s h.src = some (self s) ∧ isMember s
      (self s) = false ∧ b.check = s.dir.cabinetCheck ∧ s.memb.state = .catchup ∧ s.catchUp.joinFailure = some
      .receiveError ∧ s.memb.leaving = false)
    ∧ (∃ (h : Header) (b : JoinBody) (s : State), Reaches s h (.join false b) ∧ stationOf? s h.src = some (self s) ∧
      s.memb.state = .catchup ∧ s.catchUp.phase = .joining ∧ (isMember s (self s) = true ∨ b.check ≠ s.dir.cabinetCheck) ∧
      b.check ≠ s.dir.cabinetCheck)
    ∧ (∃ (h : Header) (b : JoinBody) (s : State), Reaches s h (.join false b) ∧ stationOf? s h.src = some (self s) ∧
      s.memb.state = .catchup ∧ s.catchUp.phase = .joining ∧ (isMember s (self s) = true ∨ b.check ≠ s.dir.cabinetCheck) ∧
      isMember s (self s) = true)
    ∧ (∃ (h : Header) (b : JoinBody) (k : StationId) (s : State), Reaches s h (.join false b) ∧ stationOf? s h.src = some k ∧ k
      ≠ self s ∧ (isMember s k = true ∨ b.check ≠ s.dir.cabinetCheck))
    ∧ (∃ (h : Header) (b : JoinBody) (k : StationId) (s : State), Reaches s h (.join false b) ∧ stationOf? s h.src = some k ∧ k
      ≠ self s ∧ (isMember s k = true ∨ b.check ≠ s.dir.cabinetCheck))
    ∧ (∃ (h : Header) (b : JoinBody) (k : StationId) (s : State), Reaches s h (.join true b) ∧ stationOf? s h.src = some k ∧ k ≠
      self s ∧ s.memb.live = 0#8 ∧ b.check = s.dir.cabinetCheck ∧ (s.memb.state = .listening ∨ s.memb.state = .catchup) ∧
      hasFrame s isFoundingJoin = false)
    ∧ (∃ (h : Header) (b : JoinBody) (s : State), Reaches s h (.join true b) ∧ stationOf? s h.src = some (self s) ∧ s.memb.live
      = 0#8 ∧ b.check = s.dir.cabinetCheck ∧ s.memb.state = .listening ∧ s.catchUp.joinFailure = none)
    ∧ (∃ (h : Header) (b : JoinBody) (k : StationId) (s : State), Reaches s h (.join true b) ∧ stationOf? s h.src = some k ∧ k ≠
      self s ∧ s.memb.live = 0#8 ∧ b.check = s.dir.cabinetCheck ∧ s.memb.state = .listening ∧ hasFrame s isFoundingJoin =
      true ∧ heardLive s = none ∧ (∀ e ∈ s.link.queue, isFoundingJoin e.frame = true → isWaiting s.link e = true))
    ∧ (∃ (h : Header) (b : JoinBody) (k : StationId) (s : State), Reaches s h (.join true b) ∧ stationOf? s h.src = some k ∧ k ≠
      self s ∧ s.memb.live = 0#8 ∧ b.check = s.dir.cabinetCheck ∧ s.memb.state = .listening ∧ hasFrame s isFoundingJoin =
      true ∧ heardLive s = none ∧ (∃ e ∈ s.link.queue, isFoundingJoin e.frame = true ∧ isWaiting s.link e = false))
    ∧ (∃ (h : Header) (b : JoinBody) (k : StationId) (s : State), Reaches s h (.join true b) ∧ stationOf? s h.src = some (self
      s) ∧ s.memb.live ≠ 0#8 ∧ s.memb.state = .listening ∧ listeningSource s = some k)
    ∧ (∃ (h : Header) (b : JoinBody) (k : StationId) (s : State), Reaches s h (.join true b) ∧ stationOf? s h.src = some k ∧ k ≠
      self s ∧ s.memb.live ≠ 0#8) := by
  refine ⟨⟨fromNode 1, ⟨4294967295#32, 0#32, 0#32, 9#24⟩, 1, keyed (station .live 1#8), ?_⟩,
    ⟨fromNode 0, ⟨4294967295#32, 0#32, 0#32, 9#24⟩, keyed (station .catchup 2#8), ?_⟩,
    ⟨fromNode 0, ⟨4294967295#32, 0#32, 0#32, 9#24⟩,
      { keyed (station .catchup 2#8) with catchUp := { State.reset.catchUp with phase := .joining, joinFailure := some .receiveError } },
      ?_⟩,
    ⟨fromNode 0, ⟨4294967295#32, 0#32, 0#32, 9#24⟩, atPhase .joining (station .catchup 2#8), ?_⟩,
    ⟨fromNode 0, ⟨4294967295#32, 0#32, 0#32, 9#24⟩, atPhase .joining (keyed (station .catchup 3#8)), ?_⟩,
    ⟨fromNode 1, ⟨4294967295#32, 0#32, 0#32, 9#24⟩, 1, keyed (station .live 3#8), ?_⟩,
    ⟨fromNode 1, ⟨4294967295#32, 0#32, 0#32, 9#24⟩, 1, station .live 1#8, ?_⟩,
    ⟨fromNode 1, ⟨4294967295#32, 0#32, 0#32, 9#24⟩, 1, keyed (station .listening 0#8), ?_⟩,
    ⟨fromNode 0, ⟨4294967295#32, 0#32, 0#32, 9#24⟩, keyed (station .listening 0#8), ?_⟩,
    ⟨fromNode 1, ⟨4294967295#32, 0#32, 0#32, 9#24⟩, 1, withQueue [⟨15, .join true, .none⟩] (keyed (station .listening 0#8)),
      ?_⟩,
    ⟨fromNode 1, ⟨4294967295#32, 0#32, 0#32, 9#24⟩, 1, withBus (.contending (.entry 15))
      (withQueue [⟨15, .join true, .none⟩] (keyed (station .listening 0#8))), ?_⟩,
    ⟨fromNode 0, ⟨4294967295#32, 0#32, 0#32, 9#24⟩, 1, keyed (station .listening 2#8), ?_⟩,
    ⟨fromNode 1, ⟨4294967295#32, 0#32, 0#32, 9#24⟩, 1, keyed (station .live 1#8), ?_⟩⟩
  all_goals ((try unfold Reaches); decide +kernel)

theorem witness_ExpelRemovesMember :
    (∃ (h : Header) (node reason : Byte) (pins : Pins) (k : StationId) (r : ExpelReason) (s : State), Reaches s h (.expel node
      reason) ∧ (indexOf? 8 node : Option StationId) = some k ∧ ExpelReason.ofCode? reason = some r ∧ isMember s k = true
      ∧ ((s.memb.state = .live ∧ k ≠ self s) ∨ (s.memb.state = .catchup ∧ s.catchUp.source ≠ some k)))
    ∧ (∃ (h : Header) (node reason : Byte) (pins : Pins) (k : StationId) (r : ExpelReason) (s : State), Reaches s h (.expel node
      reason) ∧ (indexOf? 8 node : Option StationId) = some k ∧ ExpelReason.ofCode? reason = some r ∧ isMember s k = true
      ∧ ((s.memb.state = .live ∧ k ≠ self s) ∨ (s.memb.state = .catchup ∧ s.catchUp.source ≠ some k)))
    ∧ (∃ (h : Header) (node reason : Byte) (pins : Pins) (k : StationId) (r : ExpelReason) (s : State), Reaches s h (.expel node
      reason) ∧ (indexOf? 8 node : Option StationId) = some k ∧ ExpelReason.ofCode? reason = some r ∧ isMember s k = true
      ∧ ((s.memb.state = .live ∧ k ≠ self s) ∨ (s.memb.state = .catchup ∧ s.catchUp.source ≠ some k)) ∧ (positionOf s 31
      15).state = .claimed ∧ claimedCards s k 63 = 2)
    ∧ (∃ (h : Header) (node reason : Byte) (pins : Pins) (k : StationId) (r : ExpelReason) (s : State), Reaches s h (.expel node
      reason) ∧ (indexOf? 8 node : Option StationId) = some k ∧ ExpelReason.ofCode? reason = some r ∧ isMember s k = true
      ∧ ((s.memb.state = .live ∧ k ≠ self s) ∨ (s.memb.state = .catchup ∧ s.catchUp.source ≠ some k)) ∧ lostEntry k
      (entryAt s 31) = LineEntry.zero)
    ∧ (∃ (h : Header) (node reason : Byte) (pins : Pins) (k : StationId) (r : ExpelReason) (s : State), Reaches s h (.expel node
      reason) ∧ (indexOf? 8 node : Option StationId) = some k ∧ ExpelReason.ofCode? reason = some r ∧ isMember s k = true
      ∧ s.memb.state = .listening)
    ∧ (∃ (h : Header) (node reason : Byte) (pins : Pins) (k : StationId) (r : ExpelReason) (s : State), Reaches s h (.expel node
      reason) ∧ (indexOf? 8 node : Option StationId) = some k ∧ ExpelReason.ofCode? reason = some r ∧ isMember s k = true
      ∧ s.memb.state = .catchup ∧ s.catchUp.source = some k ∧ s.catchUp.phase ≠ .idle)
    ∧ (∃ (h : Header) (node reason : Byte) (pins : Pins) (s : State), Reaches s h (.expel node reason) ∧ (∀ k, (indexOf? 8 node
      : Option StationId) = some k → isMember s k = false))
    ∧ (∃ (h : Header) (node reason : Byte) (pins : Pins) (s : State), Reaches s h (.expel node reason) ∧ (∀ k, (indexOf? 8 node
      : Option StationId) = some k → isMember s k = false)) := by
  refine ⟨⟨fromNode 0, 1#8, 1#8, pinsAt true, 1, .silent, station .live 3#8, ?_⟩,
    ⟨fromNode 1, 1#8, 9#8, pinsAt true, 1, .restart, station .catchup 2#8, ?_⟩,
    ⟨fromNode 0, 1#8, 1#8, pinsAt true, 1, .silent, withLine (claimedFor 1#4) (keyed (station .live 3#8)), ?_⟩,
    ⟨fromNode 0, 1#8, 1#8, pinsAt true, 1, .silent, setEntry (station .live 3#8) 31
      { LineEntry.zero with state := .closing, gateway := 15#8, line := 7#8, pendingClear := 2#8 }, ?_⟩,
    ⟨fromNode 1, 7#8, 9#8, pinsAt true, 7, .restart, station .listening 128#8, ?_⟩,
    ⟨fromNode 1, 1#8, 9#8, pinsAt true, 1, .restart, pulling (station .catchup 2#8), ?_⟩,
    ⟨fromNode 1, 8#8, 1#8, pinsAt true, station .live 3#8, ?_⟩,
    ⟨fromNode 1, 7#8, 1#8, pinsAt true, station .live 3#8, ?_⟩⟩
  all_goals ((try unfold Reaches); decide +kernel)

theorem witness_OwnExpelLeavesLive :
    (∃ (h : Header) (node reason : Byte) (pins : Pins) (r : ExpelReason) (s : State), Reaches s h (.expel node reason) ∧
      (indexOf? 8 node : Option StationId) = some (self s) ∧ ExpelReason.ofCode? reason = some r ∧ isMember s (self s) =
      true ∧ s.memb.state = .live ∧ r ≠ .restart ∧ s.memb.restartOutstanding = false ∧ (∃ j, isMember s j = true ∧ j ≠
      self s ∧ qualifies s j = true))
    ∧ (∃ (h : Header) (node reason : Byte) (pins : Pins) (r : ExpelReason) (s : State), Reaches s h (.expel node reason) ∧
      (indexOf? 8 node : Option StationId) = some (self s) ∧ ExpelReason.ofCode? reason = some r ∧ isMember s (self s) =
      true ∧ s.memb.state = .live ∧ r ≠ .restart ∧ s.memb.restartOutstanding = false ∧ (∀ j, isMember s j = true → j ≠
      self s → qualifies s j = false))
    ∧ (∃ (h : Header) (node reason : Byte) (pins : Pins) (r : ExpelReason) (s : State), Reaches s h (.expel node reason) ∧
      (indexOf? 8 node : Option StationId) = some (self s) ∧ ExpelReason.ofCode? reason = some r ∧ isMember s (self s) =
      true ∧ s.memb.state = .live ∧ r ≠ .restart ∧ s.memb.restartOutstanding = false ∧ QueueOrdered s ∧ WithinCapacity s ∧
      s.link.queue.map (·.age) = [14, 15] ∧ contendingAge s.link = some 15)
    ∧ (∃ (h : Header) (node reason : Byte) (pins : Pins) (r : ExpelReason) (s : State), Reaches s h (.expel node reason) ∧
      (indexOf? 8 node : Option StationId) = some (self s) ∧ ExpelReason.ofCode? reason = some r ∧ isMember s (self s) =
      true ∧ s.memb.state = .live ∧ (r = .restart ∨ s.memb.restartOutstanding = true) ∧ (s.tamper.window = none ∨
      pins.doorOpen = false))
    ∧ (∃ (h : Header) (node reason : Byte) (pins : Pins) (r : ExpelReason) (s : State), Reaches s h (.expel node reason) ∧
      (indexOf? 8 node : Option StationId) = some (self s) ∧ ExpelReason.ofCode? reason = some r ∧ isMember s (self s) =
      true ∧ s.memb.state = .live ∧ (r = .restart ∨ s.memb.restartOutstanding = true) ∧ (s.tamper.window = none ∨
      pins.doorOpen = false)) := by
  refine ⟨⟨fromNode 1, 0#8, 8#8, pinsAt false, .claimOverrun,
      { State.reset with memb := { State.reset.memb with state := .live, live := 3#8, peers := tset State.reset.memb.peers 1 (some ⟨.live, 4294967295#32, 0#32, 0#32, .higher⟩) } },
      ?_⟩,
    ⟨fromNode 1, 0#8, 1#8, pinsAt true, .silent, station .live 3#8, ?_⟩,
    ⟨fromNode 1, 0#8, 1#8, pinsAt true, .silent, withBus (.contending (.entry 15))
      (withQueue [⟨14, .accept 1#8 255#8, .none⟩, ⟨15, .accept 1#8 0#8, .none⟩] (station .live 3#8)), ?_⟩,
    ⟨fromNode 0, 0#8, 9#8, pinsAt true, .restart, station .live 3#8, ?_⟩,
    ⟨fromNode 0, 0#8, 1#8, pinsAt false, .silent, withWindow (some 65535)
      { State.reset with memb := { State.reset.memb with state := .live, live := 3#8, restartOutstanding := true } }, ?_⟩⟩
  all_goals ((try unfold Reaches); (try unfold WithinCapacity); (try unfold QueueOrdered); decide +kernel)

theorem witness_SilenceWatchExpires :
    (∃ (k : StationId) (s : State), tget s.memb.watches k = .running ∧ duty s = true)
    ∧ (∃ (k : StationId) (s : State), tget s.memb.watches k = .running ∧ isLive s = true ∧ duty s = false ∧ (members s).filter
      (fun j => j.val < (self s).val) = [1] ∧ hasFailed (setSilence s k .expired) 1 = true)
    ∧ (∃ (k : StationId) (s : State), tget s.memb.watches k ≠ .running) := by
  refine ⟨⟨1,
      { State.reset with memb := { State.reset.memb with state := .live, live := 3#8, watches := Vector.replicate 8 .running } },
      ?_⟩,
    ⟨1,
      { State.reset with straps := ⟨2#4, 2#3, 1#3⟩, memb := { State.reset.memb with state := .live, live := 6#8, watches := Vector.replicate 8 .running } },
      ?_⟩,
    ⟨7, State.reset, ?_⟩⟩
  all_goals decide +kernel

theorem witness_ListeningWindowDecides :
    (∃ (s : State), s.memb.state = .listening ∧ s.memb.windowOpen = true ∧ heardLive s = none ∧ s.memb.live = 0#8 ∧ mayFound s
      = true)
    ∧ (∃ (s : State), s.memb.state = .listening ∧ s.memb.windowOpen = true ∧ heardLive s = none ∧ s.memb.live = 0#8 ∧ mayFound s
      = false)
    ∧ (∃ (s : State) (k : StationId), s.memb.state = .listening ∧ s.memb.windowOpen = true ∧ (heardLive s ≠ none ∨ s.memb.live ≠
      0#8) ∧ listeningSource s = some k ∧ s.memb.yieldMark = false ∧ (∃ r, tget s.memb.peers k = some r ∧ r.seq.toNat <
      s.dir.seq.toNat))
    ∧ (∃ (s : State) (k : StationId), s.memb.state = .listening ∧ s.memb.windowOpen = true ∧ (heardLive s ≠ none ∨ s.memb.live ≠
      0#8) ∧ listeningSource s = some k ∧ (∃ r, tget s.memb.peers k = some r ∧ s.dir.seq.toNat ≤ r.seq.toNat))
    ∧ (∃ (s : State) (k : StationId), s.memb.state = .listening ∧ s.memb.windowOpen = true ∧ (heardLive s ≠ none ∨ s.memb.live ≠
      0#8) ∧ listeningSource s = some k ∧ s.memb.yieldMark = true)
    ∧ (∃ (s : State) (k : StationId), s.memb.state = .listening ∧ s.memb.windowOpen = true ∧ (heardLive s ≠ none ∨ s.memb.live ≠
      0#8) ∧ listeningSource s = some k ∧ s.memb.yieldMark = false ∧ tget s.memb.peers k = none)
    ∧ (∃ (s : State), (¬(s.memb.state = .listening ∧ s.memb.windowOpen = true))) := by
  refine ⟨⟨{ State.reset with memb := { State.reset.memb with state := .listening, windowOpen := true, heard := tset State.reset.memb.heard 1 (some ⟨.listening, 0#32, false, 0#24⟩) } },
      ?_⟩,
    ⟨{ State.reset with memb := { State.reset.memb with state := .listening, windowOpen := true } }, ?_⟩,
    ⟨{ State.reset with memb := { State.reset.memb with state := .listening, windowOpen := true, live := 2#8, yieldMark := false, peers := tset State.reset.memb.peers 1 (some ⟨.live, 1#32, 0#32, 0#32, .agree⟩) }, dir := { State.reset.dir with seq := 2#32 } },
      1, (by decide +kernel), (by decide +kernel), (by decide +kernel), (by decide +kernel), rfl, ⟨⟨.live, 1#32, 0#32,
      0#32, .agree⟩, (by decide +kernel)⟩⟩,
    ⟨{ State.reset with memb := { State.reset.memb with state := .listening, windowOpen := true, live := 2#8, yieldMark := false, peers := tset State.reset.memb.peers 1 (some ⟨.live, 1#32, 0#32, 0#32, .agree⟩) }, dir := { State.reset.dir with seq := 1#32 } },
      1, (by decide +kernel), (by decide +kernel), (by decide +kernel), (by decide +kernel), ⟨⟨.live, 1#32, 0#32, 0#32,
      .agree⟩, (by decide +kernel)⟩⟩,
    ⟨{ State.reset with memb := { State.reset.memb with state := .listening, windowOpen := true, live := 2#8, yieldMark := true, peers := tset State.reset.memb.peers 1 (some ⟨.live, 1#32, 0#32, 0#32, .agree⟩) }, dir := { State.reset.dir with seq := 2#32 } },
      1, ?_⟩,
    ⟨{ State.reset with memb := { State.reset.memb with state := .listening, windowOpen := true, heard := tset State.reset.memb.heard 1 (some ⟨.live, 0#32, false, 0#24⟩) } },
      1, ?_⟩,
    ⟨station .live 3#8, ?_⟩⟩
  all_goals decide +kernel

theorem witness_PostedPositionsAreConsidered :
    (∃ (s : State) (e : LineEntry) (p : PosId), s.memb.live ≠ 0#8)
    ∧ (∃ (s : State) (l : LineId) (p : PosId) (reason : DeclineReason), (positionOf s l p).state = .posted ∧ claimConditions s
      (positionOf s l p) (localAt s l p).note = some reason ∧ preferred s (entryAt s l) p = some (self s) ∧ hasFrame s
      (isDeclineFor (posRefOf (entryAt s l) p)) = false)
    ∧ (∃ (s : State) (l : LineId) (p : PosId) (reason : DeclineReason), (positionOf s l p).state = .posted ∧ claimConditions s
      (positionOf s l p) (localAt s l p).note = some reason ∧ hasFrame s (isClaimFor (posRefOf (entryAt s l) p)) = true)
    ∧ (∃ (s : State) (l : LineId) (p : PosId) (note : PostingNote) (d : DescId) (rest : List DescId), (positionOf s l p).state =
      .posted ∧ (localAt s l p).note = some note ∧ claimConditions s (positionOf s l p) (some note) = none ∧ mayClaim
      (retract (isDeclineFor (posRefOf (entryAt s l) p)) s) (entryAt s l) p (positionOf s l p) (localAt s l p) = true ∧
      s.pool.free = d :: rest ∧ reservedBlocks s.pool + blocksNeeded (positionOf s l p).kind (positionOf s l
      p).count.toNat ≤ freeBlockCount s.pool)
    ∧ (∃ (s : State) (l : LineId) (p : PosId) (note : PostingNote) (d : DescId) (rest : List DescId), (positionOf s l p).state =
      .posted ∧ (localAt s l p).note = some note ∧ claimConditions s (positionOf s l p) (some note) = none ∧ mayClaim
      (retract (isDeclineFor (posRefOf (entryAt s l) p)) s) (entryAt s l) p (positionOf s l p) (localAt s l p) = true ∧
      s.pool.free = d :: rest ∧ freeBlockCount s.pool < reservedBlocks s.pool + blocksNeeded (positionOf s l p).kind
      (positionOf s l p).count.toNat)
    ∧ (∃ (s : State) (l : LineId) (p : PosId), (positionOf s l p).state = .posted ∧ claimConditions s (positionOf s l p)
      (localAt s l p).note = none ∧ ((localAt s l p).note = none ∨ mayClaim (retract (isDeclineFor (posRefOf (entryAt s l)
      p)) s) (entryAt s l) p (positionOf s l p) (localAt s l p) = false))
    ∧ (∃ (s : State) (l : LineId) (p : PosId), (positionOf s l p).state = .posted ∧ claimConditions s (positionOf s l p)
      (localAt s l p).note = none ∧ ((localAt s l p).note = none ∨ mayClaim (retract (isDeclineFor (posRefOf (entryAt s l)
      p)) s) (entryAt s l) p (positionOf s l p) (localAt s l p) = false) ∧ (localAt s l p).note ≠ none)
    ∧ (∃ (h : Header) (b : JobBody) (l : LineId) (reason : DeclineReason) (s : State), Reaches s h (.job b) ∧ s.memb.state =
      .live ∧ postingTest s (byteOf h.src) b.line b.position = .ok l ∧ claimConditions s (postedPosition .single
      (JobFunction.ofCode b.function) (slotAtPosting s b.master) (transportAtPosting s (JobFunction.ofCode b.function)
      b.transport) (if JobFunction.ofCode b.function = .check then 0#8 else 1#8)) none = some reason ∧ preferred s
      (entryAt s l) (placeOf (entryAt s l).p) = some (self s) ∧ NotesPlaced s ∧ hasFrame s (isDeclineFor (posRefOf
      (entryAt s l) (placeOf (entryAt s l).p))) = false)
    ∧ (∃ (h : Header) (b : JobBody) (l : LineId) (m : SlotId) (s : State), Reaches s h (.job b) ∧ s.memb.state = .live ∧
      postingTest s (byteOf h.src) b.line b.position = .ok l ∧ postedPositions s = [] ∧ claimConditions s (postedPosition
      .single (JobFunction.ofCode b.function) (slotAtPosting s b.master) (transportAtPosting s (JobFunction.ofCode
      b.function) b.transport) (if JobFunction.ofCode b.function = .check then 0#8 else 1#8)) none = none ∧ preferred s
      (entryAt s l) (placeOf (entryAt s l).p) = some (self s) ∧ serving s = true ∧ hasFrame s isClaim = false ∧ slotOf?
      (postedPosition .single (JobFunction.ofCode b.function) (slotAtPosting s b.master) (transportAtPosting s
      (JobFunction.ofCode b.function) b.transport) (if JobFunction.ofCode b.function = .check then 0#8 else 1#8)).master =
      some m ∧ s.pool.free ≠ [] ∧ reservedBlocks s.pool ≤ freeBlockCount s.pool)
    ∧ (∃ (l : LineId) (p : PosId) (note : PostingNote) (place : Nat) (s : State), s.memb.state = .live ∧ (localAt s l
      p).deferral = .running ∧ postedPositions s = [(place, l, p)] ∧ (localAt s l p).note = some note ∧ claimConditions s
      (positionOf s l p) (some note) = none ∧ serving s = true ∧ hasFrame s isClaim = false ∧ s.pool.free ≠ [] ∧
      reservedBlocks s.pool + blocksNeeded (positionOf s l p).kind (positionOf s l p).count.toNat ≤ freeBlockCount s.pool
      ∧ preferred s (entryAt s l) p ≠ some (self s)) := by
  refine ⟨⟨station .live 128#8, LineEntry.zero, 15, ?_⟩,
    ⟨setLocal (withLine (posted) (station .live 3#8)) 31 15 ⟨some ⟨4#8, policyHold, none, 0⟩, .running, .running⟩, 31, 15,
      .masterUnusable, ?_⟩,
    ⟨request (.claim ⟨lastPos, 2#8, 63#8, 62#8⟩) (setLocal (withLine (posted) (station .live 2#8)) 31 15 LocalPos.empty), 31,
      15, .masterUnusable, ?_⟩,
    ⟨setLocal (withLine (posted) (keyed (station .live 3#8))) 31 15 ⟨some ⟨4#8, policyHold, none, 0⟩, .expired, .running⟩, 31,
      15, ⟨4#8, policyHold, none, 0⟩, 0, (List.finRange 48).tail, ?_⟩,
    ⟨{ setLocal (withLine (posted) (keyed (station .live 3#8))) 31 15 ⟨some ⟨4#8, policyHold, none, 0⟩, .expired, .running⟩ with pool := { Pool.empty with freeBlocks := [] } },
      31, 15, ⟨4#8, policyHold, none, 0⟩, 0, (List.finRange 48).tail, ?_⟩,
    ⟨setLocal (withLine (posted) (keyed (station .live 3#8))) 31 15 LocalPos.empty, 31, 15, ?_⟩,
    ⟨setLocal (withLine (posted) (keyed (station .catchup 3#8))) 31 15 ⟨some ⟨4#8, policyHold, none, 0⟩, .expired, .running⟩,
      31, 15, ?_⟩,
    ⟨fromNode 15, ⟨7#8, 15#8, 3#8, Label.zero, none, ⟨0#80, 0#8, 0#16⟩⟩, 31, .masterUnknown, setEntry (station .live 3#8) 31
      { LineEntry.zero with state := .opened, gateway := 15#8, line := 7#8, p := 15#4, d := 15#4 },
      (by unfold Reaches; decide +kernel), (by decide +kernel), (by decide +kernel), (by decide +kernel),
      (by decide +kernel), notesPlaced_of _ (by decide +kernel), (by decide +kernel)⟩,
    ⟨fromNode 15, ⟨7#8, 15#8, 1#8, ⟨1#24, 255#8⟩, some ⟨1#24, 254#8⟩, oneCard⟩, 31, 63, setEntry
      ({ station .live 3#8 with dir := (keyedDirectory.setSlot 63 { keyedDirectory.slot 63 with label := ⟨1#24, 255#8⟩ }).setSlot 62 { keyedDirectory.slot 62 with label := ⟨1#24, 254#8⟩ } })
      31 { LineEntry.zero with state := .opened, gateway := 15#8, line := 7#8, p := 15#4, d := 15#4 }, ?_⟩,
    ⟨31, 15, ⟨4#8, policyHold, none, 0⟩, 0, setLocal (withLine (posted) (keyed (station .live 7#8))) 31 15 ⟨some ⟨4#8,
      policyHold, none, 0⟩, .running, .running⟩, ?_⟩⟩
  all_goals ((try unfold Reaches); decide +kernel)

theorem witness_ClaimSettlesPosition :
    (∃ (h : Header) (b : ClaimBody) (l : LineId) (p : PosId) (m : SlotId) (s : State), Reaches s h (.claim b) ∧ findPosition s
      b.pos = some (l, p) ∧ (positionOf s l p).state = .posted ∧ b.count = (positionOf s l p).count ∧ b.master =
      (positionOf s l p).master ∧ b.transport = (positionOf s l p).transport ∧ liveSetQuorate s = true ∧ slotOf? b.master
      = some m ∧ s.dir.reserveTaken m b.count.toNat = true)
    ∧ (∃ (h : Header) (b : ClaimBody) (l : LineId) (p : PosId) (m : SlotId) (s : State), Reaches s h (.claim b) ∧ findPosition s
      b.pos = some (l, p) ∧ (positionOf s l p).state = .posted ∧ b.count = (positionOf s l p).count ∧ b.master =
      (positionOf s l p).master ∧ b.transport = (positionOf s l p).transport ∧ liveSetQuorate s = true ∧ slotOf? b.master
      = some m ∧ s.dir.reserveTaken m b.count.toNat = false)
    ∧ (∃ (h : Header) (b : ClaimBody) (s : State), Reaches s h (.claim b) ∧ (∀ l p, findPosition s b.pos = some (l, p) →
      (positionOf s l p).state ≠ .posted ∨ b.count ≠ (positionOf s l p).count ∨ b.master ≠ (positionOf s l p).master ∨
      b.transport ≠ (positionOf s l p).transport ∨ liveSetQuorate s = false ∨ slotOf? b.master = none))
    ∧ (∃ (h : Header) (b : ClaimBody) (s : State), Reaches s h (.claim b) ∧ (∀ l p, findPosition s b.pos = some (l, p) →
      (positionOf s l p).state ≠ .posted ∨ b.count ≠ (positionOf s l p).count ∨ b.master ≠ (positionOf s l p).master ∨
      b.transport ≠ (positionOf s l p).transport ∨ liveSetQuorate s = false ∨ slotOf? b.master = none))
    ∧ (∃ (h : Header) (b : ClaimBody) (l : LineId) (p : PosId) (m : SlotId) (d : DescId) (s : State), Reaches s h (.claim b) ∧
      h.src = ownNode s ∧ findPosition s b.pos = some (l, p) ∧ (positionOf s l p).state = .posted ∧ b.count = (positionOf
      s l p).count ∧ b.master = (positionOf s l p).master ∧ b.transport = (positionOf s l p).transport ∧ liveSetQuorate s
      = true ∧ slotOf? b.master = some m ∧ s.dir.reserveTaken m b.count.toNat = true ∧ findClaiming s b.pos = some d ∧
      (descOf s d).master = b.master ∧ OneQueueEach s ∧ (descOf s d).kind = .batch)
    ∧ (∃ (h : Header) (b : ClaimBody) (l : LineId) (p : PosId) (m : SlotId) (d : DescId) (s : State), Reaches s h (.claim b) ∧
      h.src = ownNode s ∧ findPosition s b.pos = some (l, p) ∧ (positionOf s l p).state = .posted ∧ b.count = (positionOf
      s l p).count ∧ b.master = (positionOf s l p).master ∧ b.transport = (positionOf s l p).transport ∧ liveSetQuorate s
      = true ∧ slotOf? b.master = some m ∧ s.dir.reserveTaken m b.count.toNat = true ∧ findClaiming s b.pos = some d ∧
      (descOf s d).master = b.master ∧ OneQueueEach s ∧ (descOf s d).kind = .single ∧ s.pool.engine = some 46)
    ∧ (∃ (h : Header) (b : ClaimBody) (l : LineId) (p : PosId) (m : SlotId) (d : DescId) (s : State), Reaches s h (.claim b) ∧
      h.src = ownNode s ∧ findPosition s b.pos = some (l, p) ∧ (positionOf s l p).state = .posted ∧ b.count = (positionOf
      s l p).count ∧ b.master = (positionOf s l p).master ∧ b.transport = (positionOf s l p).transport ∧ liveSetQuorate s
      = true ∧ slotOf? b.master = some m ∧ s.dir.reserveTaken m b.count.toNat = true ∧ findClaiming s b.pos = some d ∧
      (descOf s d).master = b.master ∧ OneQueueEach s ∧ (descOf s d).kind = .single ∧ s.pool.engine = none ∧ s.pool.urgent
      = [] ∧ keysUsable s (descOf s d) = some 63)
    ∧ (∃ (h : Header) (b : ClaimBody) (d : DescId) (s : State), Reaches s h (.claim b) ∧ h.src = ownNode s ∧ (∀ l p,
      findPosition s b.pos = some (l, p) → (positionOf s l p).state ≠ .posted ∨ b.count ≠ (positionOf s l p).count ∨
      b.master ≠ (positionOf s l p).master ∨ b.transport ≠ (positionOf s l p).transport ∨ liveSetQuorate s = false ∨
      slotOf? b.master = none) ∧ findClaiming s b.pos = some d ∧ OneQueueEach s ∧ (postedPositions s = [] ∨ (serving s =
      false ∧ s.pool.claiming = [d])))
    ∧ (∃ (h : Header) (b : ClaimBody) (l : LineId) (p : PosId) (m : SlotId) (d : DescId) (s : State), Reaches s h (.claim b) ∧
      h.src = ownNode s ∧ findPosition s b.pos = some (l, p) ∧ (positionOf s l p).state = .posted ∧ b.count = (positionOf
      s l p).count ∧ b.master = (positionOf s l p).master ∧ b.transport = (positionOf s l p).transport ∧ liveSetQuorate s
      = true ∧ slotOf? b.master = some m ∧ s.dir.reserveTaken m b.count.toNat = false ∧ findClaiming s b.pos = some d ∧
      s.pool.claiming = [d] ∧ OneQueueEach s)
    ∧ (∃ (h : Header) (b : ClaimBody) (l : LineId) (p : PosId) (m : SlotId) (d : DescId) (s : State), Reaches s h (.claim b) ∧
      h.src ≠ ownNode s ∧ findPosition s b.pos = some (l, p) ∧ (positionOf s l p).state = .posted ∧ b.count = (positionOf
      s l p).count ∧ b.master = (positionOf s l p).master ∧ b.transport = (positionOf s l p).transport ∧ liveSetQuorate s
      = true ∧ slotOf? b.master = some m ∧ s.dir.reserveTaken m b.count.toNat = true ∧ findClaiming s b.pos = some d ∧
      hasFrame s (isClaimFor b.pos) = true ∧ (∀ e ∈ s.link.queue, isClaimFor b.pos e.frame = true → isWaiting s.link e =
      true) ∧ OneQueueEach s ∧ s.pool.claiming = [d] ∧ (∀ x ∈ postedPositions s, x.2 = (l, p)))
    ∧ (∃ (age : Nat) (b : ClaimBody) (d : DescId) (s : State), s.link.bus = .contending (.entry age) ∧ entryOf s.link age = some
      ⟨age, .claim b, .withdraw⟩ ∧ findClaiming s b.pos = some d ∧ OneQueueEach s ∧ (postedPositions s = [] ∨ (serving s =
      false ∧ s.pool.claiming = [d]))) := by
  refine ⟨⟨fromNode 1, ⟨lastPos, 2#8, 63#8, 62#8⟩, 31, 15, 63, withLine posted
      { station .live 3#8 with dir := { keyedDirectory with usage := tset keyedDirectory.usage 63 ⟨4294967293#32, 0#32, false⟩ } },
      ?_⟩,
    ⟨fromNode 1, ⟨lastPos, 2#8, 63#8, 62#8⟩, 31, 15, 63, withLine posted
      { station .live 3#8 with dir := { keyedDirectory with usage := tset keyedDirectory.usage 63 ⟨4294967294#32, 0#32, false⟩ } },
      ?_⟩,
    ⟨fromNode 1, ⟨lastPos, 2#8, 63#8, 62#8⟩, station .live 3#8, ?_⟩,
    ⟨fromNode 1, ⟨lastPos, 2#8, 63#8, 62#8⟩, withLine (claimedFor 1#4) (station .live 3#8), ?_⟩,
    ⟨fromNode 0, ⟨lastPos, 2#8, 63#8, 62#8⟩, 31, 15, 63, 47, claimingJob (batchJob 2)
      (withLine posted { station .live 3#8 with dir := { keyedDirectory with usage := tset keyedDirectory.usage 63 ⟨4294967293#32, 0#32, false⟩ } }),
      ?_⟩,
    ⟨fromNode 0, ⟨lastPos, 2#8, 63#8, 62#8⟩, 31, 15, 63, 47, claimingBeside { batchJob 2 with kind := .single }
      (withLine posted { station .live 3#8 with dir := { keyedDirectory with usage := tset keyedDirectory.usage 63 ⟨4294967293#32, 0#32, false⟩ } }),
      ?_⟩,
    ⟨fromNode 0, ⟨lastPos, 2#8, 63#8, 62#8⟩, 31, 15, 63, 47, claimingJob { batchJob 2 with kind := .single }
      (withLine posted { station .live 3#8 with dir := { keyedDirectory with usage := tset keyedDirectory.usage 63 ⟨4294967293#32, 0#32, false⟩ } }),
      ?_⟩,
    ⟨fromNode 0, ⟨lastPos, 2#8, 63#8, 62#8⟩, 47, claimingJob (batchJob 2) (withLine (claimedFor 1#4) (station .live 3#8)), ?_⟩,
    ⟨fromNode 0, ⟨lastPos, 2#8, 63#8, 62#8⟩, 31, 15, 63, 47, claimingJob (batchJob 2)
      (withLine posted { station .live 3#8 with dir := { keyedDirectory with usage := tset keyedDirectory.usage 63 ⟨4294967294#32, 0#32, false⟩ } }),
      ?_⟩,
    ⟨fromNode 1, ⟨lastPos, 2#8, 63#8, 62#8⟩, 31, 15, 63, 47, withQueue [⟨15, .claim ⟨lastPos, 2#8, 63#8, 62#8⟩, .none⟩]
      (claimingJob (batchJob 2) (withLine posted { station .live 3#8 with dir := { keyedDirectory with usage := tset keyedDirectory.usage 63 ⟨4294967293#32, 0#32, false⟩ } })),
      ?_⟩,
    ⟨15, ⟨lastPos, 2#8, 63#8, 62#8⟩, 47, withBus (.contending (.entry 15))
      (withQueue [⟨15, .claim ⟨lastPos, 2#8, 63#8, 62#8⟩, .withdraw⟩] (claimingJob (batchJob 2) (withLine (claimedFor 1#4) (station .live 3#8)))),
      ?_⟩⟩
  all_goals ((try unfold Reaches); (try unfold OneQueueEach); decide +kernel)

theorem witness_SettlementEndsPosition :
    (∃ (h : Header) (pos : PosRef) (reason : Byte) (l : LineId) (p : PosId) (s : State), Reaches s h (.decline pos reason) ∧
      declineReasonListed reason = true ∧ findPosition s pos = some (l, p) ∧ (positionOf s l p).state = .posted)
    ∧ (∃ (h : Header) (pos : PosRef) (reason : Byte) (l : LineId) (p : PosId) (s : State), Reaches s h (.decline pos reason) ∧
      declineReasonListed reason = true ∧ findPosition s pos = some (l, p) ∧ (positionOf s l p).state = .posted)
    ∧ (∃ (h : Header) (pos : PosRef) (l : LineId) (p : PosId) (s : State), Reaches s h (.unclaimed pos) ∧ findPosition s pos =
      some (l, p) ∧ (positionOf s l p).state = .posted)
    ∧ (∃ (h : Header) (line position : Byte) (l : LineId) (p : PosId) (s : State), Reaches s h (.cancel line position) ∧
      findPosition s ⟨byteOf h.src, line, position⟩ = some (l, p) ∧ (positionOf s l p).state = .posted)
    ∧ (∃ (h : Header) (pos : PosRef) (reason : Byte) (s : State), Reaches s h (.decline pos reason) ∧ (∀ l p, findPosition s pos
      = some (l, p) → (positionOf s l p).state ≠ .posted))
    ∧ (∃ (h : Header) (pos : PosRef) (s : State), Reaches s h (.unclaimed pos) ∧ (∀ l p, findPosition s pos = some (l, p) →
      (positionOf s l p).state ≠ .posted))
    ∧ (∃ (h : Header) (line position : Byte) (s : State), Reaches s h (.cancel line position) ∧ (∀ l p, findPosition s ⟨byteOf
      h.src, line, position⟩ = some (l, p) → (positionOf s l p).state ≠ .posted ∧ claimedBy (positionOf s l p) (ownNode s)
      = false)) := by
  refine ⟨⟨fromNode 1, lastPos, 1#8, 31, 15, withLine posted (station .live 3#8), ?_⟩,
    ⟨fromNode 1, lastPos, 10#8, 31, 15, withLine posted (station .live 3#8), ?_⟩,
    ⟨fromNode 1, lastPos, 31, 15, withLine posted (station .live 3#8), ?_⟩,
    ⟨fromNode 15, 7#8, 15#8, 31, 15, withLine posted (station .live 3#8), ?_⟩,
    ⟨fromNode 1, lastPos, 10#8, withLine (claimedFor 1#4) (station .live 3#8), ?_⟩,
    ⟨fromNode 1, lastPos, withLine (claimedFor 1#4) (station .live 3#8), ?_⟩,
    ⟨fromNode 15, 7#8, 15#8, withLine (claimedFor 1#4) (station .live 3#8), ?_⟩⟩
  all_goals ((try unfold Reaches); decide +kernel)

theorem witness_OpenTakesFreeEntry :
    (∃ (h : Header) (line : Byte) (l : LineId) (s : State), Reaches s h (.openLine line) ∧ line.toNat ≤ 7 ∧ findLine s.lines
      (byteOf h.src) line = none ∧ (entryAt s l).state = .free ∧ (∀ l', l' < l → (entryAt s l').state ≠ .free))
    ∧ (∃ (h : Header) (line : Byte) (l : LineId) (s : State), Reaches s h (.openLine line) ∧ line.toNat ≤ 7 ∧ findLine s.lines
      (byteOf h.src) line = some l)
    ∧ (∃ (h : Header) (line : Byte) (s : State), Reaches s h (.openLine line) ∧ line.toNat ≤ 7 ∧ findLine s.lines (byteOf h.src)
      line = none ∧ (∀ l, (entryAt s l).state ≠ .free))
    ∧ (∃ (h : Header) (line : Byte) (s : State), Reaches s h (.openLine line) ∧ 7 < line.toNat) := by
  refine ⟨⟨fromNode 15, 7#8, 0, station .live 3#8, ?_⟩,
    ⟨fromNode 15, 7#8, 31, withLine posted (station .live 3#8), ?_⟩,
    ⟨fromNode 15, 7#8,
      { station .live 3#8 with lines := { LineTable.empty with entries := Vector.replicate 32 { LineEntry.zero with state := .closing } } },
      ?_⟩,
    ⟨fromNode 15, 8#8, station .live 3#8, ?_⟩⟩
  all_goals ((try unfold Reaches); decide +kernel)

theorem witness_JobFramePostsPosition :
    (∃ (h : Header) (b : JobBody) (f : JobFunction) (l : LineId) (s : State), Reaches s h (.job b) ∧ JobFunction.ofCode
      b.function = f ∧ postingTest s (byteOf h.src) b.line b.position = .ok l)
    ∧ (∃ (h : Header) (b : JobBody) (f : JobFunction) (l : LineId) (s : State), Reaches s h (.job b) ∧ JobFunction.ofCode
      b.function = f ∧ postingTest s (byteOf h.src) b.line b.position = .ok l)
    ∧ (∃ (h : Header) (b : JobBody) (f : JobFunction) (l : LineId) (s : State), Reaches s h (.job b) ∧ JobFunction.ofCode
      b.function = f ∧ postingTest s (byteOf h.src) b.line b.position = .ok l)
    ∧ (∃ (h : Header) (b : BatchBody) (f : JobFunction) (l : LineId) (s : State), Reaches s h (.batch b) ∧ JobFunction.ofCode
      b.function = f ∧ postingTest s (byteOf h.src) b.line b.position = .ok l)
    ∧ (∃ (h : Header) (b : JobBody) (f : JobFunction) (r : RejectReason) (p d : BitVec 4) (s : State), Reaches s h (.job b) ∧
      JobFunction.ofCode b.function = f ∧ postingTest s (byteOf h.src) b.line b.position = .error (r, p, d))
    ∧ (∃ (h : Header) (b : JobBody) (f : JobFunction) (r : RejectReason) (p d : BitVec 4) (s : State), Reaches s h (.job b) ∧
      JobFunction.ofCode b.function = f ∧ postingTest s (byteOf h.src) b.line b.position = .error (r, p, d))
    ∧ (∃ (h : Header) (b : BatchBody) (f : JobFunction) (r : RejectReason) (p d : BitVec 4) (s : State), Reaches s h (.batch b)
      ∧ JobFunction.ofCode b.function = f ∧ postingTest s (byteOf h.src) b.line b.position = .error (r, p, d)) := by
  refine ⟨⟨fromNode 15, ⟨7#8, 15#8, 3#8, Label.zero, none, ⟨0#80, 0#8, 0#16⟩⟩, .check, 31, setEntry (station .live 3#8) 31
      { LineEntry.zero with state := .opened, gateway := 15#8, line := 7#8, p := 15#4, d := 15#4 }, ?_⟩,
    ⟨fromNode 15, ⟨7#8, 15#8, 1#8, Label.zero, some Label.zero, ⟨0#80, 0#8, 0#16⟩⟩, .card, 31, setEntry (station .live 3#8) 31
      { LineEntry.zero with state := .opened, gateway := 15#8, line := 7#8, p := 15#4, d := 15#4 }, ?_⟩,
    ⟨fromNode 15, ⟨7#8, 15#8, 0#8, Label.zero, none, ⟨0#80, 0#8, 0#16⟩⟩, .none, 31, setEntry (station .live 3#8) 31
      { LineEntry.zero with state := .opened, gateway := 15#8, line := 7#8, p := 15#4, d := 15#4 }, ?_⟩,
    ⟨fromNode 15, ⟨7#8, 15#8, 1#8, Label.zero, Label.zero, 0#8, 0#8, 0#8⟩, .card, 31, setEntry (station .live 3#8) 31
      { LineEntry.zero with state := .opened, gateway := 15#8, line := 7#8, p := 15#4, d := 15#4 }, ?_⟩,
    ⟨fromNode 15, ⟨7#8, 0#8, 3#8, Label.zero, none, ⟨0#80, 0#8, 0#16⟩⟩, .check, .sequence, 15#4, 15#4, setEntry
      (station .live 3#8) 31 { LineEntry.zero with state := .opened, gateway := 15#8, line := 7#8, p := 15#4, d := 15#4 },
      ?_⟩,
    ⟨fromNode 15, ⟨7#8, 0#8, 3#8, Label.zero, none, ⟨0#80, 0#8, 0#16⟩⟩, .check, .noLine, 0#4, 0#4, station .live 3#8, ?_⟩,
    ⟨fromNode 15, ⟨7#8, 15#8, 2#8, Label.zero, Label.zero, 0#8, 0#8, 0#8⟩, .app, .ringFull, 15#4, 0#4, setEntry
      (station .live 3#8) 31 { LineEntry.zero with state := .opened, gateway := 15#8, line := 7#8, p := 15#4 }, ?_⟩⟩
  all_goals ((try unfold Reaches); decide +kernel)

theorem witness_FinalFinishesPosition :
    (∃ (h : Header) (b : FinalBody) (l : LineId) (p : PosId) (s : State), Reaches s h (.final b) ∧ jobStatusListed b.status =
      true ∧ findPosition s b.pos = some (l, p) ∧ claimedBy (positionOf s l p) h.src = true)
    ∧ (∃ (h : Header) (b : FinalBody) (l : LineId) (p : PosId) (s : State), Reaches s h (.final b) ∧ jobStatusListed b.status =
      true ∧ findPosition s b.pos = some (l, p) ∧ claimedBy (positionOf s l p) h.src = true)
    ∧ (∃ (h : Header) (b : FinalBody) (s : State), Reaches s h (.final b) ∧ (∀ l p, findPosition s b.pos = some (l, p) →
      claimedBy (positionOf s l p) h.src = false))
    ∧ (∃ (h : Header) (b : FinalBody) (s : State), Reaches s h (.final b) ∧ (∀ l p, findPosition s b.pos = some (l, p) →
      claimedBy (positionOf s l p) h.src = false)) := by
  refine ⟨⟨fromNode 1, ⟨lastPos, 1#8, 0#8, 2#8, 0#8, 0#8, 15#8⟩, 31, 15, withLine (claimedFor 1#4) (station .live 3#8), ?_⟩,
    ⟨fromNode 1, ⟨lastPos, 5#8, 0#8, 2#8, 0#8, 0#8, 15#8⟩, 31, 15, withLine (claimedFor 1#4) (station .live 3#8), ?_⟩,
    ⟨fromNode 0, ⟨lastPos, 1#8, 0#8, 2#8, 0#8, 0#8, 15#8⟩, withLine (claimedFor 1#4) (station .live 3#8), ?_⟩,
    ⟨fromNode 1, ⟨lastPos, 1#8, 0#8, 2#8, 0#8, 0#8, 15#8⟩, station .live 3#8, ?_⟩⟩
  all_goals ((try unfold Reaches); decide +kernel)

theorem witness_CloseClosesLine :
    (∃ (h : Header) (b : CloseBody) (g line : Byte) (l : LineId) (s : State), Reaches s h (.close b) ∧ closeNames h b = some
      (g, line) ∧ findLine s.lines g line = some l ∧ (entryAt s l).state = .opened)
    ∧ (∃ (h : Header) (b : CloseBody) (g line : Byte) (l : LineId) (s : State), Reaches s h (.close b) ∧ closeNames h b = some
      (g, line) ∧ findLine s.lines g line = some l ∧ (entryAt s l).state = .opened)
    ∧ (∃ (h : Header) (b : CloseBody) (g line : Byte) (s : State), Reaches s h (.close b) ∧ closeNames h b = some (g, line) ∧ (∀
      l, findLine s.lines g line = some l → (entryAt s l).state ≠ .opened))
    ∧ (∃ (h : Header) (b : CloseBody) (g line : Byte) (s : State), Reaches s h (.close b) ∧ closeNames h b = some (g, line) ∧ (∀
      l, findLine s.lines g line = some l → (entryAt s l).state ≠ .opened)) := by
  refine ⟨⟨fromNode 15, .gateway 7#8, 15#8, 7#8, 31, withLine posted (station .live 3#8), ?_⟩,
    ⟨fromNode 1, .station 15#8 7#8 1#8, 15#8, 7#8, 31, withLine (claimedFor 1#4) (station .live 3#8), ?_⟩,
    ⟨fromNode 15, .gateway 7#8, 15#8, 7#8, setEntry (station .live 3#8) 31
      { LineEntry.zero with state := .closing, gateway := 15#8, line := 7#8, pendingClear := 2#8 }, ?_⟩,
    ⟨fromNode 15, .gateway 7#8, 15#8, 7#8, station .live 3#8, ?_⟩⟩
  all_goals ((try unfold Reaches); decide +kernel)

theorem witness_ClearedReleasesOwner :
    (∃ (h : Header) (b : ClearedBody) (l : LineId) (s : State), Reaches s h (.cleared b) ∧ findLine s.lines b.gateway b.line =
      some l ∧ (entryAt s l).state = .closing ∧ setHas (entryAt s l).pendingClear h.src.val = true ∧ setDel (entryAt s
      l).pendingClear h.src.val = 0#8)
    ∧ (∃ (h : Header) (b : ClearedBody) (l : LineId) (s : State), Reaches s h (.cleared b) ∧ findLine s.lines b.gateway b.line =
      some l ∧ (entryAt s l).state = .closing ∧ setHas (entryAt s l).pendingClear h.src.val = true ∧ setDel (entryAt s
      l).pendingClear h.src.val ≠ 0#8 ∧ claimedBy (positionOf s l 15) h.src = true)
    ∧ (∃ (h : Header) (b : ClearedBody) (s : State), Reaches s h (.cleared b) ∧ (∀ l, findLine s.lines b.gateway b.line = some l
      → (entryAt s l).state ≠ .closing ∨ setHas (entryAt s l).pendingClear h.src.val = false))
    ∧ (∃ (h : Header) (b : ClearedBody) (s : State), Reaches s h (.cleared b) ∧ (∀ l, findLine s.lines b.gateway b.line = some l
      → (entryAt s l).state ≠ .closing ∨ setHas (entryAt s l).pendingClear h.src.val = false)) := by
  refine ⟨⟨fromNode 1, ⟨15#8, 7#8, 0#8, []⟩, 31, setEntry (station .live 3#8) 31
      { LineEntry.zero with state := .closing, gateway := 15#8, line := 7#8, pendingClear := 2#8 }, ?_⟩,
    ⟨fromNode 1, ⟨15#8, 7#8, 1#8, [⟨15#8, 2#8⟩]⟩, 31, setEntry (keyed (station .live 3#8)) 31
      { LineEntry.zero with state := .closing, gateway := 15#8, line := 7#8, p := 15#4, pendingClear := 3#8, positions := tset LineEntry.zero.positions 15 (claimedFor 1#4) },
      ?_⟩,
    ⟨fromNode 0, ⟨15#8, 7#8, 0#8, []⟩, setEntry (station .live 3#8) 31
      { LineEntry.zero with state := .closing, gateway := 15#8, line := 7#8, pendingClear := 2#8 }, ?_⟩,
    ⟨fromNode 1, ⟨15#8, 7#8, 0#8, []⟩, withLine posted (station .live 3#8), ?_⟩⟩
  all_goals ((try unfold Reaches); decide +kernel)

theorem witness_LineTimersExpire :
    (∃ (l : LineId) (p : PosId) (s : State), (localAt s l p).deferral = .running)
    ∧ (∃ (l : LineId) (p : PosId) (s : State), (localAt s l p).deadline = .running ∧ (positionOf s l p).state = .posted ∧ duty s
      = true)
    ∧ (∃ (l : LineId) (p : PosId) (s : State), (localAt s l p).deadline = .running ∧ (positionOf s l p).state = .posted ∧ duty s
      = false)
    ∧ (∃ (g : Node) (s : State), tget s.lines.watches g = .running ∧ duty s = true ∧ busyOpen (entryAt s 31) = true ∧ (entryAt s
      31).gateway = byteOf g)
    ∧ (∃ (g : Node) (s : State), tget s.lines.watches g = .running ∧ duty s = false)
    ∧ (∃ (l : LineId) (p : PosId) (s : State), (localAt s l p).deferral ≠ .running)
    ∧ (∃ (l : LineId) (p : PosId) (s : State), ((localAt s l p).deadline ≠ .running ∨ (positionOf s l p).state ≠ .posted))
    ∧ (∃ (g : Node) (s : State), tget s.lines.watches g ≠ .running) := by
  refine ⟨⟨31, 15, setLocal (withLine posted (station .live 3#8)) 31 15 ⟨none, .running, .running⟩, ?_⟩,
    ⟨31, 15, setLocal (withLine posted (station .live 3#8)) 31 15 ⟨none, .running, .running⟩, ?_⟩,
    ⟨31, 15, setLocal (withLine posted (station .live 2#8)) 31 15 ⟨none, .running, .running⟩, ?_⟩,
    ⟨15,
      { station .live 3#8 with lines := { LineTable.empty with entries := (withLine posted (station .live 3#8)).lines.entries, watches := Vector.replicate 16 .running } },
      ?_⟩,
    ⟨15,
      { station .live 2#8 with lines := { LineTable.empty with entries := (withLine posted (station .live 2#8)).lines.entries, watches := Vector.replicate 16 .running } },
      ?_⟩,
    ⟨31, 15, State.reset, ?_⟩,
    ⟨31, 15, withLine posted (station .live 3#8), ?_⟩,
    ⟨15, State.reset, ?_⟩⟩
  all_goals decide +kernel

theorem witness_CardsTakeGroup :
    (∃ (h : Header) (b : CardsBody) (d : DescId) (blk : BlockId) (rest : List BlockId) (s : State), Reaches s h (.cards b) ∧
      s.memb.state = .live ∧ Sound s ∧ s.pool.loading.find? (jobAt s ⟨byteOf h.src, b.line, b.position⟩) = some d ∧
      groupCorrect (descOf s d) b.group.toNat b.records.length = true ∧ s.pool.freeBlocks = blk :: rest ∧ (descOf s
      d).groupsReceived + 1 ≠ (descOf s d).groupsExpected)
    ∧ (∃ (h : Header) (b : CardsBody) (d : DescId) (blk : BlockId) (rest : List BlockId) (s : State), Reaches s h (.cards b) ∧
      s.memb.state = .live ∧ Sound s ∧ s.pool.loading.find? (jobAt s ⟨byteOf h.src, b.line, b.position⟩) = some d ∧
      groupCorrect (descOf s d) b.group.toNat b.records.length = true ∧ s.pool.freeBlocks = blk :: rest ∧ (descOf s
      d).groupsReceived + 1 = (descOf s d).groupsExpected ∧ s.pool.engine = none ∧ s.pool.urgent = [] ∧ s.pool.bulk = [] ∧
      keysUsable s (descOf s d) = some 63)
    ∧ (∃ (h : Header) (b : CardsBody) (d : DescId) (blk : BlockId) (rest : List BlockId) (s : State), Reaches s h (.cards b) ∧
      s.memb.state = .live ∧ Sound s ∧ s.pool.loading.find? (jobAt s ⟨byteOf h.src, b.line, b.position⟩) = some d ∧
      groupCorrect (descOf s d) b.group.toNat b.records.length = true ∧ s.pool.freeBlocks = blk :: rest ∧ (descOf s
      d).groupsReceived + 1 = (descOf s d).groupsExpected)
    ∧ (∃ (h : Header) (b : CardsBody) (d : DescId) (blk : BlockId) (rest : List BlockId) (s : State), Reaches s h (.cards b) ∧
      s.memb.state = .live ∧ Sound s ∧ s.pool.loading.find? (jobAt s ⟨byteOf h.src, b.line, b.position⟩) = some d ∧
      groupCorrect (descOf s d) b.group.toNat b.records.length = true ∧ s.pool.freeBlocks = blk :: rest ∧ (descOf s
      d).groupsReceived + 1 = (descOf s d).groupsExpected ∧ s.pool.engine = some 46)
    ∧ (∃ (h : Header) (b : CardsBody) (d : DescId) (s : State), Reaches s h (.cards b) ∧ s.memb.state = .live ∧
      s.pool.loading.find? (jobAt s ⟨byteOf h.src, b.line, b.position⟩) = some d ∧ groupCorrect (descOf s d) b.group.toNat
      b.records.length = false)
    ∧ (∃ (h : Header) (b : CardsBody) (d : DescId) (s : State), Reaches s h (.cards b) ∧ s.memb.state = .live ∧
      s.pool.loading.find? (jobAt s ⟨byteOf h.src, b.line, b.position⟩) = some d ∧ groupCorrect (descOf s d) b.group.toNat
      b.records.length = false)
    ∧ (∃ (h : Header) (b : CardsBody) (d : DescId) (blk : BlockId) (rest : List BlockId) (s : State), Reaches s h (.cards b) ∧
      s.memb.state = .live ∧ Sound s ∧ OneQueueEach s ∧ s.pool.loading.find? (jobAt s ⟨byteOf h.src, b.line, b.position⟩)
      = some d ∧ groupCorrect (descOf s d) b.group.toNat b.records.length = true ∧ s.pool.freeBlocks = blk :: rest ∧
      (descOf s d).groupsReceived + 1 = (descOf s d).groupsExpected ∧ s.pool.engine = none ∧ s.pool.urgent = [] ∧
      s.pool.bulk = [] ∧ keysUsable s (descOf s d) = none ∧ (descOf s d).kind = .batch ∧ (descOf s d).ctx.next = 0)
    ∧ (∃ (h : Header) (b : CardsBody) (s : State), Reaches s h (.cards b) ∧ (s.memb.state ≠ .live ∨ s.pool.loading.find? (jobAt
      s ⟨byteOf h.src, b.line, b.position⟩) = none))
    ∧ (∃ (h : Header) (b : CardsBody) (s : State), Reaches s h (.cards b) ∧ (s.memb.state ≠ .live ∨ s.pool.loading.find? (jobAt
      s ⟨byteOf h.src, b.line, b.position⟩) = none)) := by
  refine ⟨⟨fromNode 15, ⟨7#8, 15#8, 0#8, List.replicate 6 oneCard⟩, 47, 0, (List.finRange 192).tail, loadingJob (batchJob 7)
      (station .live 3#8), ?_⟩,
    ⟨fromNode 15, ⟨7#8, 15#8, 0#8, List.replicate 1 oneCard⟩, 47, 0, (List.finRange 192).tail, loadingJob (batchJob 1)
      (keyed (station .live 3#8)), ?_⟩,
    ⟨fromNode 15, ⟨7#8, 15#8, 0#8, List.replicate 6 oneCard⟩, 47, 0, (List.finRange 192).tail, loadingJob (batchJob 6)
      (keyed (station .live 3#8)), ?_⟩,
    ⟨fromNode 15, ⟨7#8, 15#8, 0#8, List.replicate 1 oneCard⟩, 47, 0, (List.finRange 192).tail,
      { loadingJob (batchJob 1) (keyed (station .live 3#8)) with pool := { (loadingJob (batchJob 1) (keyed (station .live 3#8))).pool with engine := some 46 } },
      ?_⟩,
    ⟨fromNode 15, ⟨7#8, 15#8, 1#8, List.replicate 6 oneCard⟩, 47, loadingJob (batchJob 7) (station .live 3#8), ?_⟩,
    ⟨fromNode 15, ⟨7#8, 15#8, 0#8, List.replicate 5 oneCard⟩, 47, loadingJob (batchJob 7) (station .live 3#8), ?_⟩,
    ⟨fromNode 15, ⟨7#8, 15#8, 0#8, List.replicate 1 oneCard⟩, 47, 0, (List.finRange 192).tail, loadingJob (batchJob 1)
      (station .live 3#8), ?_⟩,
    ⟨fromNode 15, ⟨7#8, 15#8, 0#8, List.replicate 6 oneCard⟩, station .live 3#8, ?_⟩,
    ⟨fromNode 15, ⟨7#8, 15#8, 0#8, List.replicate 6 oneCard⟩, loadingJob (batchJob 7) (station .catchup 2#8), ?_⟩⟩
  all_goals ((try unfold Reaches); (try unfold Sound); (try unfold OneQueueEach); decide +kernel)

theorem witness_JobsEndByGapOrCancel :
    (∃ (d : DescId) (s : State), (descOf s d).gapRunning = true ∧ d ∈ s.pool.loading)
    ∧ (∃ (d : DescId) (s : State), ((descOf s d).gapRunning = false ∨ d ∉ s.pool.loading))
    ∧ (∃ (h : Header) (line position : Byte) (l : LineId) (p : PosId) (d : DescId) (s : State), Reaches s h (.cancel line
      position) ∧ findPosition s ⟨byteOf h.src, line, position⟩ = some (l, p) ∧ claimedBy (positionOf s l p) (ownNode s) =
      true ∧ findJob s ⟨byteOf h.src, line, position⟩ = some d ∧ (d ∈ s.pool.loading ∨ d ∈ s.pool.urgent ∨ d ∈
      s.pool.bulk))
    ∧ (∃ (h : Header) (line position : Byte) (l : LineId) (p : PosId) (d : DescId) (s : State), Reaches s h (.cancel line
      position) ∧ findPosition s ⟨byteOf h.src, line, position⟩ = some (l, p) ∧ claimedBy (positionOf s l p) (ownNode s) =
      true ∧ findJob s ⟨byteOf h.src, line, position⟩ = some d ∧ OneQueueEach s ∧ s.pool.engine = some d) := by
  refine ⟨⟨47, loadingJob (batchJob 7) (station .live 3#8), ?_⟩,
    ⟨47, State.reset, ?_⟩,
    ⟨fromNode 15, 7#8, 15#8, 31, 15, 47, loadingJob (batchJob 7) (withLine (claimedFor 0#4) (station .live 3#8)), ?_⟩,
    ⟨fromNode 15, 7#8, 15#8, 31, 15, 47, currentJob (batchJob 7) 0 (withLine (claimedFor 0#4) (station .live 3#8)), ?_⟩⟩
  all_goals ((try unfold Reaches); (try unfold OneQueueEach); decide +kernel)

theorem witness_CardCompletionCounts :
    (∃ (d : DescId) (r : CardResult) (m : SlotId) (s : State), s.pool.engine = some d ∧ s.engine.inFlight = some r ∧ Sound s ∧
      (descOf s d).teardownMark = false ∧ s.engine.ctx.next + 1 ≠ jobCards (descOf s d) ∧ (descOf s d).cancelMark = false
      ∧ ((descOf s d).kind = .single ∨ s.pool.urgent = []) ∧ keysUsable s (descOf s d) = some m)
    ∧ (∃ (d : DescId) (r : CardResult) (s : State), s.pool.engine = some d ∧ s.engine.inFlight = some r ∧ (descOf s
      d).teardownMark = false ∧ s.engine.ctx.next + 1 = jobCards (descOf s d))
    ∧ (∃ (d : DescId) (r : CardResult) (s : State), s.pool.engine = some d ∧ s.engine.inFlight = some r ∧ (descOf s
      d).teardownMark = false ∧ s.engine.ctx.next + 1 ≠ jobCards (descOf s d) ∧ (descOf s d).cancelMark = true)
    ∧ (∃ (d u : DescId) (us : List DescId) (r : CardResult) (m : SlotId) (s : State), s.pool.engine = some d ∧ s.engine.inFlight
      = some r ∧ Sound s ∧ (descOf s d).teardownMark = false ∧ s.engine.ctx.next + 1 ≠ jobCards (descOf s d) ∧ (descOf s
      d).cancelMark = false ∧ (descOf s d).kind = .batch ∧ s.pool.urgent = u :: us ∧ u ≠ d ∧ keysUsable s (descOf s u) =
      some m)
    ∧ (∃ (s : State), (s.pool.engine = none ∨ s.engine.inFlight = none)) := by
  refine ⟨⟨47, aResult, 63, currentJob (batchJob 7) 0 (keyed (station .live 3#8)), ?_⟩,
    ⟨47, aResult, currentJob (batchJob 7) 6 (station .live 3#8), ?_⟩,
    ⟨47, aResult, currentJob { batchJob 7 with cancelMark := true } 0 (station .live 3#8), ?_⟩,
    ⟨47, 46, [], aResult, 63, withUrgent (currentJob (batchJob 7) 0 (keyed (station .live 3#8))), ?_⟩,
    ⟨State.reset, ?_⟩⟩
  all_goals ((try unfold Sound); decide +kernel)

theorem witness_CardResultIsDerived :
    (∃ (s : State) (x : Descriptor) (m t : SlotId) (index : Nat) (c : CardRecord) (mk tk : Key), x.function = .card ∧
      cardValid c = true ∧ slotOf? x.transport = some t ∧ s.dir.keyUse m .master = some mk ∧ s.dir.keyUse t .transport =
      some tk)
    ∧ (∃ (s : State) (x : Descriptor) (m t : SlotId) (index : Nat) (c : CardRecord) (mk tk : Key), x.function = .app ∧ cardValid
      c = true ∧ slotOf? x.transport = some t ∧ s.dir.keyUse m .master = some mk ∧ s.dir.keyUse t .transport = some tk)
    ∧ (∃ (s : State) (x : Descriptor) (m : SlotId) (index : Nat) (c : CardRecord), (x.function = .card ∨ x.function = .app) ∧
      cardValid c = false)
    ∧ (∃ (s : State) (x : Descriptor) (m : SlotId) (index : Nat) (cell : Cell), x.function = .check) := by
  refine ⟨⟨keyed (station .live 3#8), batchJob 7, 63, 62, 0, oneCard, recovered 5#256 3#256, recovered 5#256 4#256, rfl,
      (by decide +kernel), rfl, rfl, rfl⟩,
    ⟨keyed (station .live 3#8), { batchJob 7 with function := .app }, 63, 62, 0, oneCard, recovered 5#256 3#256, recovered
      5#256 4#256, rfl, (by decide +kernel), rfl, rfl, rfl⟩,
    ⟨State.reset, batchJob 7, 63, 255, ⟨0x12345678901FFFFFFFFF#80, 0x99#8, 0#16⟩, ?_⟩,
    ⟨State.reset, { batchJob 7 with function := .check }, 63, 255, .empty, ?_⟩⟩
  all_goals decide +kernel

theorem witness_TeardownSendsCleared :
    (∃ (h : Header) (b : CloseBody) (g line : Byte) (l : LineId) (s : State), Reaches s h (.close b) ∧ closeNames h b = some
      (g, line) ∧ findLine s.lines g line = some l ∧ (entryAt s l).state = .opened ∧ setHas (ownersOf (entryAt s l))
      (ownNode s).val = true ∧ OneQueueEach s ∧ QueueOrdered s ∧ CandidateQueued s ∧ s.pool.engine.all (fun d =>
      !((List.finRange 48).filter (jobOfLine s g line)).contains d) = true ∧ (∀ d ∈ (List.finRange 48).filter (jobOfLine s
      g line), ∀ e ∈ s.link.queue, isFinalOf d e.frame = true → isWaiting s.link e = true))
    ∧ (∃ (h : Header) (b : CloseBody) (g line : Byte) (l : LineId) (s : State), Reaches s h (.close b) ∧ closeNames h b = some
      (g, line) ∧ findLine s.lines g line = some l ∧ (entryAt s l).state = .opened ∧ setHas (ownersOf (entryAt s l))
      (ownNode s).val = true ∧ OneQueueEach s ∧ QueueOrdered s ∧ CandidateQueued s ∧ s.pool.engine.all (fun d =>
      !((List.finRange 48).filter (jobOfLine s g line)).contains d) = true ∧ (∀ d ∈ (List.finRange 48).filter (jobOfLine s
      g line), ∀ e ∈ s.link.queue, isFinalOf d e.frame = true → isWaiting s.link e = true))
    ∧ (∃ (h : Header) (b : CloseBody) (g line : Byte) (l : LineId) (s : State), Reaches s h (.close b) ∧ closeNames h b = some
      (g, line) ∧ findLine s.lines g line = some l ∧ (entryAt s l).state = .opened ∧ setHas (ownersOf (entryAt s l))
      (ownNode s).val = true ∧ OneQueueEach s ∧ QueueOrdered s ∧ CandidateQueued s ∧ s.pool.engine.all (fun d =>
      !((List.finRange 48).filter (jobOfLine s g line)).contains d) = true ∧ (∀ d ∈ (List.finRange 48).filter (jobOfLine s
      g line), ∀ e ∈ s.link.queue, isFinalOf d e.frame = true → isWaiting s.link e = true))
    ∧ (∃ (h : Header) (b : CloseBody) (g line : Byte) (l : LineId) (d : DescId) (s : State), Reaches s h (.close b) ∧ closeNames
      h b = some (g, line) ∧ findLine s.lines g line = some l ∧ (entryAt s l).state = .opened ∧ setHas (ownersOf (entryAt
      s l)) (ownNode s).val = true ∧ OneQueueEach s ∧ jobOfLine s g line d = true ∧ s.pool.clearing.any (isClearingOf g
      line) = false ∧ (s.pool.engine = some d ∨ (d ∈ s.pool.draining ∧ ∃ e ∈ s.link.queue, isFinalOf d e.frame = true ∧
      isWaiting s.link e = false)) ∧ s.pool.engine = some d)
    ∧ (∃ (h : Header) (b : CloseBody) (g line : Byte) (l : LineId) (d : DescId) (s : State), Reaches s h (.close b) ∧ closeNames
      h b = some (g, line) ∧ findLine s.lines g line = some l ∧ (entryAt s l).state = .opened ∧ setHas (ownersOf (entryAt
      s l)) (ownNode s).val = true ∧ OneQueueEach s ∧ jobOfLine s g line d = true ∧ s.pool.clearing.any (isClearingOf g
      line) = false ∧ (s.pool.engine = some d ∨ (d ∈ s.pool.draining ∧ ∃ e ∈ s.link.queue, isFinalOf d e.frame = true ∧
      isWaiting s.link e = false)) ∧ d ∈ s.pool.draining)
    ∧ (∃ (d : DescId) (r : CardResult) (c : ClearingRecord) (l1 l2 : List ClearingRecord) (s : State), s.pool.engine = some d ∧
      s.engine.inFlight = some r ∧ (descOf s d).teardownMark = true ∧ OneQueueEach s ∧ s.pool.clearing = l1 ++ c :: l2 ∧
      isClearingOf (descOf s d).pos.gateway (descOf s d).pos.line c = true ∧ (l1 ++ l2).any (isClearingOf (descOf s
      d).pos.gateway (descOf s d).pos.line) = false ∧ c.outstanding = 1)
    ∧ (∃ (d : DescId) (r : CardResult) (c : ClearingRecord) (l1 l2 : List ClearingRecord) (s : State), s.pool.engine = some d ∧
      s.engine.inFlight = some r ∧ (descOf s d).teardownMark = true ∧ OneQueueEach s ∧ s.pool.clearing = l1 ++ c :: l2 ∧
      isClearingOf (descOf s d).pos.gateway (descOf s d).pos.line c = true ∧ (l1 ++ l2).any (isClearingOf (descOf s
      d).pos.gateway (descOf s d).pos.line) = false ∧ 2 ≤ c.outstanding)
    ∧ (∃ (receipt : NodeMap) (pins : Pins) (age : Nat) (d : DescId) (dst : Dest) (b b' : FinalBody) (hold : Hold) (c :
      ClearingRecord) (l1 l2 : List ClearingRecord) (s : State), s.link.bus = .sending (.entry age) dst (.final b) ∧
      entryOf s.link age = some ⟨age, .final (some d) b', hold⟩ ∧ d ∈ s.pool.draining ∧ (descOf s d).teardownMark = true ∧
      OneQueueEach s ∧ s.pool.clearing = l1 ++ c :: l2 ∧ isClearingOf (descOf s d).pos.gateway (descOf s d).pos.line c =
      true ∧ (l1 ++ l2).any (isClearingOf (descOf s d).pos.gateway (descOf s d).pos.line) = false ∧ c.outstanding = 1) := by
  refine ⟨⟨fromNode 15, .gateway 7#8, 15#8, 7#8, 31, loadingJob (batchJob 7) (withLine (claimedFor 0#4) (station .live 3#8)),
      (by unfold Reaches; decide +kernel), (by decide +kernel), (by decide +kernel), (by decide +kernel),
      (by decide +kernel), (by unfold OneQueueEach; decide +kernel), (by unfold QueueOrdered; decide +kernel),
      candidateQueued_of _ (by decide +kernel), (by decide +kernel), (by decide +kernel)⟩,
    ⟨fromNode 1, .station 15#8 7#8 1#8, 15#8, 7#8, 31, withQueue [⟨15, .final (some 47) ⟨lastPos, 1#8, 0#8, 0#8, 0#8, 0#8,
      0#8⟩, .none⟩]
      ({ loadingJob (batchJob 7) (withLine (claimedFor 0#4) (station .live 3#8)) with pool := { poolWith (batchJob 7) with draining := [47] } }),
      (by unfold Reaches; decide +kernel), (by decide +kernel), (by decide +kernel), (by decide +kernel),
      (by decide +kernel), (by unfold OneQueueEach; decide +kernel), (by unfold QueueOrdered; decide +kernel),
      candidateQueued_of _ (by decide +kernel), (by decide +kernel), (by decide +kernel)⟩,
    ⟨fromNode 15, .gateway 7#8, 15#8, 7#8, 31, (withLine (claimedFor 0#4) (station .live 3#8)),
      (by unfold Reaches; decide +kernel), (by decide +kernel), (by decide +kernel), (by decide +kernel),
      (by decide +kernel), (by unfold OneQueueEach; decide +kernel), (by unfold QueueOrdered; decide +kernel),
      candidateQueued_of _ (by decide +kernel), (by decide +kernel), (by decide +kernel)⟩,
    ⟨fromNode 15, .gateway 7#8, 15#8, 7#8, 31, 47, currentJob (batchJob 7) 0 (withLine (claimedFor 0#4) (station .live 3#8)),
      ?_⟩,
    ⟨fromNode 15, .gateway 7#8, 15#8, 7#8, 31, 47, withBus (.contending (.entry 15))
      (withQueue [⟨15, .final (some 47) ⟨lastPos, 1#8, 0#8, 0#8, 0#8, 0#8, 0#8⟩, .none⟩] ({ loadingJob (batchJob 7) (withLine (claimedFor 0#4) (station .live 3#8)) with pool := { poolWith (batchJob 7) with draining := [47] } })),
      ?_⟩,
    ⟨47, aResult, ⟨15#8, 7#8, [⟨14#8, 6#8⟩], 1⟩, [], [],
      { currentJob { batchJob 7 with teardownMark := true } 0 (station .live 3#8) with pool := { poolWith { batchJob 7 with teardownMark := true } with engine := some 47, clearing := [⟨15#8, 7#8, [⟨14#8, 6#8⟩], 1⟩] } },
      ?_⟩,
    ⟨47, aResult, ⟨15#8, 7#8, [⟨14#8, 6#8⟩], 2⟩, [], [],
      { currentJob { batchJob 7 with teardownMark := true } 0 (station .live 3#8) with pool := { poolWith { batchJob 7 with teardownMark := true } with engine := some 47, clearing := [⟨15#8, 7#8, [⟨14#8, 6#8⟩], 2⟩] } },
      ?_⟩,
    ⟨0#16, pinsAt false, 15, 47, ⟨true, 0⟩, ⟨lastPos, 1#8, 0#8, 0#8, 0#8, 0#8, 0#8⟩, ⟨lastPos, 1#8, 0#8, 0#8, 0#8, 0#8, 0#8⟩,
      .none, ⟨15#8, 7#8, [⟨14#8, 6#8⟩], 1⟩, [], [], withBus
      (.sending (.entry 15) ⟨true, 0⟩ (.final ⟨lastPos, 1#8, 0#8, 0#8, 0#8, 0#8, 0#8⟩))
      (withQueue [⟨15, .final (some 47) ⟨lastPos, 1#8, 0#8, 0#8, 0#8, 0#8, 0#8⟩, .none⟩] { station .live 3#8 with pool := { poolWith { batchJob 7 with teardownMark := true } with draining := [47], clearing := [⟨15#8, 7#8, [⟨14#8, 6#8⟩], 1⟩] } }),
      ?_⟩⟩
  all_goals ((try unfold Reaches); (try unfold OneQueueEach); decide +kernel)

theorem witness_AnswersAreBuilt :
    (∃ (d : DescId) (r : CardResult) (m : SlotId) (s : State), s.pool.engine = some d ∧ s.engine.inFlight = some r ∧ Sound s ∧
      OneQueueEach s ∧ (descOf s d).teardownMark = false ∧ s.engine.ctx.next + 1 ≠ jobCards (descOf s d) ∧ (descOf s
      d).cancelMark = false ∧ ((descOf s d).kind = .single ∨ s.pool.urgent = []) ∧ keysUsable s (descOf s d) = some m ∧
      (s.dir.slot m).version = s.engine.ctx.version ∧ openSegment s d = none ∧ 1 < segmentSize (descOf s d))
    ∧ (∃ (d : DescId) (r : CardResult) (m : SlotId) (g : Segment) (s : State), s.pool.engine = some d ∧ s.engine.inFlight = some
      r ∧ Sound s ∧ OneQueueEach s ∧ (descOf s d).teardownMark = false ∧ s.engine.ctx.next + 1 ≠ jobCards (descOf s d) ∧
      (descOf s d).cancelMark = false ∧ ((descOf s d).kind = .single ∨ s.pool.urgent = []) ∧ keysUsable s (descOf s d) =
      some m ∧ openSegment s d = some g ∧ g.count + 1 < segmentSize (descOf s d) ∧ OneSegmentEach s d ∧ (s.dir.slot
      m).version = g.version)
    ∧ (∃ (d : DescId) (r : CardResult) (m : SlotId) (g : Segment) (s : State), s.pool.engine = some d ∧ s.engine.inFlight = some
      r ∧ Sound s ∧ OneQueueEach s ∧ (descOf s d).teardownMark = false ∧ s.engine.ctx.next + 1 ≠ jobCards (descOf s d) ∧
      (descOf s d).cancelMark = false ∧ ((descOf s d).kind = .single ∨ s.pool.urgent = []) ∧ keysUsable s (descOf s d) =
      some m ∧ openSegment s d = some g ∧ g.count + 1 < segmentSize (descOf s d) ∧ OneSegmentEach s d ∧ (s.dir.slot
      m).version ≠ g.version ∧ isHold (descOf s d) = false)
    ∧ (∃ (d : DescId) (r : CardResult) (m : SlotId) (g : Segment) (s : State), s.pool.engine = some d ∧ s.engine.inFlight = some
      r ∧ Sound s ∧ OneQueueEach s ∧ (descOf s d).teardownMark = false ∧ s.engine.ctx.next + 1 ≠ jobCards (descOf s d) ∧
      (descOf s d).cancelMark = false ∧ ((descOf s d).kind = .single ∨ s.pool.urgent = []) ∧ keysUsable s (descOf s d) =
      some m ∧ openSegment s d = some g ∧ g.count + 1 < segmentSize (descOf s d) ∧ OneSegmentEach s d ∧ (s.dir.slot
      m).version ≠ g.version ∧ isHold (descOf s d) = true)
    ∧ (∃ (d : DescId) (r : CardResult) (g : Segment) (s : State), s.pool.engine = some d ∧ s.engine.inFlight = some r ∧ Sound s
      ∧ OneQueueEach s ∧ (descOf s d).teardownMark = false ∧ OneSegmentEach s d ∧ isHold (descOf s d) = false ∧
      joinedSegment s d = g ∧ g.count = segmentSize (descOf s d))
    ∧ (∃ (d : DescId) (r : CardResult) (g : Segment) (s : State), s.pool.engine = some d ∧ s.engine.inFlight = some r ∧ Sound s
      ∧ OneQueueEach s ∧ (descOf s d).teardownMark = false ∧ OneSegmentEach s d ∧ isHold (descOf s d) = false ∧
      joinedSegment s d = g ∧ g.count = segmentSize (descOf s d))
    ∧ (∃ (d : DescId) (r : CardResult) (m : SlotId) (g : Segment) (s : State), s.pool.engine = some d ∧ s.engine.inFlight = some
      r ∧ Sound s ∧ OneQueueEach s ∧ (descOf s d).teardownMark = false ∧ s.engine.ctx.next + 1 ≠ jobCards (descOf s d) ∧
      (descOf s d).cancelMark = false ∧ ((descOf s d).kind = .single ∨ s.pool.urgent = []) ∧ keysUsable s (descOf s d) =
      some m ∧ OneSegmentEach s d ∧ isHold (descOf s d) = true ∧ joinedSegment s d = g ∧ g.count = segmentSize (descOf s
      d))
    ∧ (∃ (d : DescId) (r : CardResult) (s : State), s.pool.engine = some d ∧ s.engine.inFlight = some r ∧ Sound s ∧ OneQueueEach
      s ∧ (descOf s d).teardownMark = false ∧ OneSegmentEach s d ∧ s.engine.ctx.next + 1 = jobCards (descOf s d) ∧ (tget
      s.engine.segs d).map (·.phase) = [.held])
    ∧ (∃ (s : State) (d : DescId) (gateway : Node) (number : Nat) (body : List Byte) (g : Segment) (results : List CardResult),
      (tget s.engine.segs d).find? (fun x => x.number == number) = some g ∧ results.length = g.count ∧ (∀ i r, results[i]?
      = some r → cellOf s d (g.first + i) = .result r)) := by
  refine ⟨⟨47, aResult, 63, currentJob (batchJob 7) 0 (keyed (station .live 3#8)), ?_⟩,
    ⟨47, aResult, 63, ⟨0, 0, 1, 0#16, .opened⟩,
      { currentJob (batchJob 7) 1 (keyed (station .live 3#8)) with engine := { (currentJob (batchJob 7) 1 (keyed (station .live 3#8))).engine with ctx := { (currentJob (batchJob 7) 1 (keyed (station .live 3#8))).engine.ctx with segment := 1 }, segs := tset noSegments 47 [⟨0, 0, 1, 0#16, .opened⟩] } },
      ?_⟩,
    ⟨47, aResult, 63, ⟨0, 0, 1, 65535#16, .opened⟩,
      { currentJob (batchJob 7) 1 (keyed (station .live 3#8)) with engine := { (currentJob (batchJob 7) 1 (keyed (station .live 3#8))).engine with ctx := { (currentJob (batchJob 7) 1 (keyed (station .live 3#8))).engine.ctx with segment := 1 }, segs := tset noSegments 47 [⟨0, 0, 1, 65535#16, .opened⟩] } },
      ?_⟩,
    ⟨47, aResult, 63, ⟨0, 0, 1, 1#16, .opened⟩,
      { currentJob { batchJob 7 with policy := policyHold } 1 (keyed (station .live 3#8)) with engine := { (currentJob { batchJob 7 with policy := policyHold } 1 (keyed (station .live 3#8))).engine with ctx := { (currentJob { batchJob 7 with policy := policyHold } 1 (keyed (station .live 3#8))).engine.ctx with segment := 1 }, segs := tset noSegments 47 [⟨0, 0, 1, 1#16, .opened⟩] } },
      ?_⟩,
    ⟨47, aResult, ⟨0, 0, 1, 0#16, .opened⟩, currentJob { batchJob 7 with segSize := 1 } 0 (keyed (station .live 3#8)), ?_⟩,
    ⟨47, aResult, ⟨0, 0, 4, 0#16, .opened⟩,
      { currentJob (batchJob 7) 3 (keyed (station .live 3#8)) with engine := { (currentJob (batchJob 7) 3 (keyed (station .live 3#8))).engine with ctx := { (currentJob (batchJob 7) 3 (keyed (station .live 3#8))).engine.ctx with segment := 1 }, segs := tset noSegments 47 [⟨0, 0, 3, 0#16, .opened⟩] } },
      ?_⟩,
    ⟨47, aResult, 63, ⟨0, 0, 1, 0#16, .opened⟩, currentJob { batchJob 7 with segSize := 1, policy := policyHold } 0
      (keyed (station .live 3#8)), ?_⟩,
    ⟨47, aResult,
      { currentJob { batchJob 7 with policy := policyHold } 6 (station .live 3#8) with engine := { (currentJob { batchJob 7 with policy := policyHold } 6 (station .live 3#8)).engine with ctx := { (currentJob { batchJob 7 with policy := policyHold } 6 (station .live 3#8)).engine.ctx with segment := 1 }, segs := tset noSegments 47 [⟨0, 0, 4, 0#16, .held⟩] } },
      ?_⟩,
    ⟨{ State.reset with pool := { poolWith { batchJob 1 with kind := .single, inline := .result aResult } with draining := [47] }, engine := { State.reset.engine with segs := tset noSegments 47 [⟨239, 0, 1, 65535#16, .pending⟩] } },
      47, 15, 239, [], ⟨239, 0, 1, 65535#16, .pending⟩, [aResult], rfl, rfl,
      (fun i r h => by rcases i with _ | i <;> simp at h; subst h; rfl)⟩⟩
  all_goals ((try unfold Sound); (try unfold OneQueueEach); (try unfold OneSegmentEach); decide +kernel)

theorem witness_ProposeEntersList :
    (∃ (h : Header) (b : ProposeBody) (k : StationId) (s : State), Reaches s h (.propose b) ∧ stationOf? s h.src = some k ∧ k
      ≠ self s ∧ b.approvals.count.toNat ≤ 2 ∧ (∀ e ∈ openEntries s, e.round.proposer ≠ k) ∧ proposalClash s b.slot b.kind
      b.label = none ∧ liveSetQuorate s = true ∧ b.bodyFollows = false ∧ s.memb.state = .live ∧ s.memb.leaving = false ∧
      (let r := proposedRound k b; validate (setRounds s (addRound s.rounds.list ⟨r, .none⟩)) r) = none)
    ∧ (∃ (h : Header) (b : ProposeBody) (k : StationId) (s : State), Reaches s h (.propose b) ∧ stationOf? s h.src = some k ∧ k
      ≠ self s ∧ b.approvals.count.toNat ≤ 2 ∧ (∀ e ∈ openEntries s, e.round.proposer ≠ k) ∧ proposalClash s b.slot b.kind
      b.label = none ∧ liveSetQuorate s = true ∧ b.bodyFollows = false ∧ (let r := proposedRound k b; validate (setRounds
      s (addRound s.rounds.list ⟨r, .none⟩)) r) = some .transition)
    ∧ (∃ (h : Header) (b : ProposeBody) (s : State), Reaches s h (.propose b) ∧ stationOf? s h.src = some (self s) ∧
      b.approvals.count.toNat ≤ 2 ∧ (∀ e ∈ openEntries s, e.round.proposer ≠ self s) ∧ proposalClash s b.slot b.kind
      b.label = none ∧ liveSetQuorate s = true ∧ s.rounds.own.phase = .proposed ∧ s.rounds.own.number = b.number ∧
      b.bodyFollows = false ∧ (let r := proposedRound (self s) b; validate (setRounds s (addRound s.rounds.list ⟨r,
      .none⟩)) r) = none)
    ∧ (∃ (h : Header) (b : ProposeBody) (s : State), Reaches s h (.propose b) ∧ stationOf? s h.src = some (self s) ∧
      b.approvals.count.toNat ≤ 2 ∧ (∀ e ∈ openEntries s, e.round.proposer ≠ self s) ∧ proposalClash s b.slot b.kind
      b.label = none ∧ liveSetQuorate s = true ∧ s.rounds.own.phase = .proposed ∧ s.rounds.own.number = b.number ∧
      b.bodyFollows = false ∧ (let r := proposedRound (self s) b; validate (setRounds s (addRound s.rounds.list ⟨r,
      .none⟩)) r) = some .transition)
    ∧ (∃ (h : Header) (b : ProposeBody) (s : State), Reaches s h (.propose b) ∧ stationOf? s h.src = some (self s) ∧
      b.approvals.count.toNat ≤ 2 ∧ (∀ e ∈ openEntries s, e.round.proposer ≠ self s) ∧ proposalClash s b.slot b.kind
      b.label = none ∧ liveSetQuorate s = true ∧ s.rounds.own.phase = .proposed ∧ s.rounds.own.number = b.number ∧
      b.bodyFollows = true)
    ∧ (∃ (h : Header) (b : ProposeBody) (k : StationId) (s : State), Reaches s h (.propose b) ∧ stationOf? s h.src = some k ∧ k
      ≠ self s ∧ ((∃ e ∈ openEntries s, e.round.proposer = k) ∨ proposalClash s b.slot b.kind b.label ≠ none ∨
      liveSetQuorate s = false))
    ∧ (∃ (h : Header) (b : ProposeBody) (k : StationId) (s : State), Reaches s h (.propose b) ∧ stationOf? s h.src = some k ∧ k
      ≠ self s ∧ ((∃ e ∈ openEntries s, e.round.proposer = k) ∨ proposalClash s b.slot b.kind b.label ≠ none ∨
      liveSetQuorate s = false)) := by
  refine ⟨⟨fromNode 1, propose 255#8 63#8, 1, keyed (station .live 3#8), ?_⟩,
    ⟨fromNode 1, propose 0#8 2#8, 1, keyed (station .live 3#8), ?_⟩,
    ⟨fromNode 0, propose 255#8 63#8, setOwn (keyed (station .live 3#8))
      { OwnRound.empty with phase := .proposed, number := 255#8 }, ?_⟩,
    ⟨fromNode 0, propose 0#8 2#8, setOwn (keyed (station .live 3#8))
      { OwnRound.empty with phase := .proposed, number := 0#8 }, ?_⟩,
    ⟨fromNode 0, { propose 1#8 2#8 with kind := 1#8, label := ⟨1#24, 255#8⟩, bodyFollows := true }, setOwn
      (keyed (station .live 3#8)) { OwnRound.empty with phase := .proposed, number := 1#8 }, ?_⟩,
    ⟨fromNode 1, propose 0#8 0#8, 1, withRound aRound (station .live 3#8), ?_⟩,
    ⟨fromNode 1, propose 0#8 0#8, 1, station .live 2#8, ?_⟩⟩
  all_goals ((try unfold Reaches); decide +kernel)

theorem witness_BodyOpensVoting :
    (∃ (h : Header) (number : Byte) (material : Key) (check : Check) (e : RoundEntry) (s : State), Reaches s h (.roundBody
      number material check) ∧ findRound s h.src number = some e ∧ e.round.phase = .awaitingBody)
    ∧ (∃ (h : Header) (number : Byte) (material : Key) (check : Check) (s : State), Reaches s h (.roundBody number material
      check) ∧ (∀ e, findRound s h.src number = some e → e.round.phase = .voting)) := by
  refine ⟨⟨fromNode 1, 255#8, 1#256, 1#24, ⟨anImport, .accepted⟩, withRound anImport (station .live 3#8), ?_⟩,
    ⟨fromNode 1, 255#8, 1#256, 1#24, withRound aRound (station .live 3#8), (by unfold Reaches; decide +kernel), fun e h =>
      (by cases h; rfl)⟩⟩
  all_goals ((try unfold Reaches); decide +kernel)

theorem witness_VotesDecideRound :
    (∃ (h : Header) (proposer number : Byte) (s : State), Reaches s h (.accept proposer number) ∧ voteCounts s h.src proposer
      number = true ∧ quorum s ≤ setCount (setAdd s.rounds.own.accepts h.src.val) ∧ s.memb.leaving = false)
    ∧ (∃ (h : Header) (proposer number : Byte) (s : State), Reaches s h (.accept proposer number) ∧ voteCounts s h.src proposer
      number = true ∧ setCount (setAdd s.rounds.own.accepts h.src.val) < quorum s)
    ∧ (∃ (h : Header) (proposer number reason : Byte) (s : State), Reaches s h (.refuse proposer number reason) ∧ voteCounts s
      h.src proposer number = true ∧ refuseReasonListed reason = true)
    ∧ (∃ (h : Header) (proposer number reason : Byte) (s : State), Reaches s h (.refuse proposer number reason) ∧ voteCounts s
      h.src proposer number = true ∧ refuseReasonListed reason = true)
    ∧ (∃ (h : Header) (proposer number : Byte) (s : State), Reaches s h (.accept proposer number) ∧ voteCounts s h.src proposer
      number = false)
    ∧ (∃ (h : Header) (proposer number : Byte) (s : State), Reaches s h (.accept proposer number) ∧ voteCounts s h.src proposer
      number = false)
    ∧ (∃ (h : Header) (proposer number reason : Byte) (s : State), Reaches s h (.refuse proposer number reason) ∧ voteCounts s
      h.src proposer number = false)
    ∧ (∃ (s : State), s.rounds.own.deadline = true ∧ (s.rounds.own.phase = .bodyOut ∨ s.rounds.own.phase = .counting))
    ∧ (∃ (s : State), s.rounds.own.deadline = true ∧ s.rounds.own.phase = .decided)
    ∧ (∃ (s : State), s.rounds.own.deadline = false) := by
  refine ⟨⟨fromNode 1, 0#8, 255#8, counting (station .live 3#8), ?_⟩,
    ⟨fromNode 1, 0#8, 255#8, setOwn (counting (station .live 3#8))
      { (counting (station .live 3#8)).rounds.own with accepts := 0#8 }, ?_⟩,
    ⟨fromNode 1, 0#8, 255#8, 1#8, counting (station .live 3#8), ?_⟩,
    ⟨fromNode 1, 0#8, 255#8, 12#8, counting (station .live 3#8), ?_⟩,
    ⟨fromNode 1, 1#8, 255#8, counting (station .live 3#8), ?_⟩,
    ⟨fromNode 1, 0#8, 255#8, station .live 3#8, ?_⟩,
    ⟨fromNode 1, 0#8, 254#8, 12#8, counting (station .live 3#8), ?_⟩,
    ⟨counting (station .live 3#8), ?_⟩,
    ⟨setOwn (station .live 3#8) { OwnRound.empty with phase := .decided, deadline := true }, ?_⟩,
    ⟨State.reset, ?_⟩⟩
  all_goals ((try unfold Reaches); decide +kernel)

theorem witness_CommitAppliesRound :
    (∃ (h : Header) (number : Byte) (seq : Word) (version : Half) (pins : Pins) (e : RoundEntry) (s : State), Reaches s h
      (.commit number seq version) ∧ s.memb.state = .live ∧ findRound s h.src number = some e ∧ commitCause s (some e)
      version = none ∧ (s.tamper.window = none ∨ pins.doorOpen = false) ∧ (nextSeq s.dir.seq).toNat < seq.toNat ∧
      s.memb.leaving = false)
    ∧ (∃ (h : Header) (number : Byte) (seq : Word) (version : Half) (pins : Pins) (e : RoundEntry) (s : State), Reaches s h
      (.commit number seq version) ∧ s.memb.state = .live ∧ findRound s h.src number = some e ∧ commitCause s (some e)
      version = none ∧ (s.tamper.window = none ∨ pins.doorOpen = false) ∧ e.round.kind = ChangeKind.windowOpen.code ∧
      s.tamper.window = none)
    ∧ (∃ (h : Header) (number : Byte) (seq : Word) (version : Half) (pins : Pins) (e : RoundEntry) (s : State), Reaches s h
      (.commit number seq version) ∧ s.memb.state = .live ∧ findRound s h.src number = some e ∧ commitCause s (some e)
      version = none ∧ (s.tamper.window = none ∨ pins.doorOpen = false) ∧ e.round.kind = ChangeKind.windowClose.code ∧
      s.tamper.window ≠ none)
    ∧ (∃ (h : Header) (number : Byte) (seq : Word) (version : Half) (pins : Pins) (e : RoundEntry) (s : State), Reaches s h
      (.commit number seq version) ∧ s.memb.state = .live ∧ findRound s h.src number = some e ∧ commitCause s (some e)
      version = none ∧ (s.tamper.window = none ∨ pins.doorOpen = false) ∧ namesOwnRound s h.src number = true ∧
      s.rounds.queue ≠ [])
    ∧ (∃ (h : Header) (number : Byte) (seq : Word) (version : Half) (pins : Pins) (e : RoundEntry) (s : State), Reaches s h
      (.commit number seq version) ∧ s.memb.state = .catchup ∧ findRound s h.src number = some e ∧ e.round.phase = .voting
      ∧ commitVersionFails s.dir e.round version = false ∧ (s.tamper.window = none ∨ pins.doorOpen = false))
    ∧ (∃ (h : Header) (number : Byte) (seq : Word) (version : Half) (pins : Pins) (s : State), Reaches s h (.commit number seq
      version) ∧ s.memb.state = .catchup ∧ findRound s h.src number = none) := by
  refine ⟨⟨fromNode 1, 255#8, 4294967295#32, 1#16, pinsAt true, ⟨aRound, .accepted⟩, withRound aRound (keyed (station .live 3#8)),
      ?_⟩,
    ⟨fromNode 0, 255#8, 1#32, 0#16, pinsAt true, ⟨{ aRound with kind := codeWindowOpen, slot := 255#8, proposer := 0 },
      .accepted⟩, withRound { aRound with kind := codeWindowOpen, slot := 255#8, proposer := 0 }
      (keyed (station .live 3#8)), ?_⟩,
    ⟨fromNode 0, 255#8, 1#32, 0#16, pinsAt false, ⟨{ aRound with kind := codeWindowClose, slot := 255#8, proposer := 0 },
      .accepted⟩, withWindow (some 600)
      (withRound { aRound with kind := codeWindowClose, slot := 255#8, proposer := 0 } (keyed (station .live 3#8))), ?_⟩,
    ⟨fromNode 0, 255#8, 1#32, 1#16, pinsAt false, ⟨{ aRound with kind := codeSuspend, slot := 63#8, proposer := 0 },
      .accepted⟩, withRound { aRound with kind := codeSuspend, slot := 63#8, proposer := 0 }
      (setOwn (fullQueue (keyed (station .live 3#8))) { OwnRound.empty with phase := .decided, number := 255#8 }), ?_⟩,
    ⟨fromNode 1, 255#8, 1#32, 1#16, pinsAt false, ⟨aRound, .accepted⟩, withWindow (some 1)
      (withRound aRound (keyed (station .catchup 2#8))), ?_⟩,
    ⟨fromNode 1, 255#8, 1#32, 1#16, pinsAt true, station .catchup 2#8, ?_⟩⟩
  all_goals ((try unfold Reaches); decide +kernel)

theorem witness_CommitChangesOneSlot :
    (∃ (r : Round) (d : Directory) (kind : ChangeKind) (i : SlotId), ChangeKind.ofCode? r.kind = some kind ∧ slotOf? r.slot =
      some i ∧ isWindowKind kind = false ∧ isProbe kind r = false)
    ∧ (∃ (r : Round) (d : Directory) (kind : ChangeKind) (i : SlotId), ChangeKind.ofCode? r.kind = some kind ∧ slotOf? r.slot =
      some i ∧ isWindowKind kind = false ∧ isProbe kind r = false)
    ∧ (∃ (r : Round) (d : Directory) (kind : ChangeKind) (i : SlotId), ChangeKind.ofCode? r.kind = some kind ∧ slotOf? r.slot =
      some i ∧ isWindowKind kind = false ∧ isProbe kind r = false)
    ∧ (∃ (r : Round) (d : Directory) (kind : ChangeKind), ChangeKind.ofCode? r.kind = some kind ∧ (isWindowKind kind = true ∨
      isProbe kind r = true))
    ∧ (∃ (r : Round) (d : Directory) (kind : ChangeKind), ChangeKind.ofCode? r.kind = some kind ∧ (isWindowKind kind = true ∨
      isProbe kind r = true)) := by
  refine ⟨⟨aRound, keyedDirectory, .suspend, 63, ?_⟩,
    ⟨{ anImport with slot := 2#8, body := some ⟨1#256, 1#24⟩ }, keyedDirectory, .importKey, 2, ?_⟩,
    ⟨{ aRound with kind := codeEdit, mask := 7#8, functions := 1#8, limit := 4294967295#32 }, keyedDirectory, .edit, 63, ?_⟩,
    ⟨{ aRound with kind := codeWindowClose, slot := 255#8 }, keyedDirectory, .windowClose, ?_⟩,
    ⟨{ aRound with kind := codeEdit, mask := 0#8 }, keyedDirectory, .edit, ?_⟩⟩
  all_goals decide +kernel

theorem witness_CommitCausesAndAbandon :
    (∃ (h : Header) (number : Byte) (seq : Word) (version : Half) (pins : Pins) (cause : ExpelReason) (s : State), Reaches s h
      (.commit number seq version) ∧ s.memb.state = .live ∧ commitCause s (findRound s h.src number) version = some cause)
    ∧ (∃ (h : Header) (number : Byte) (seq : Word) (version : Half) (pins : Pins) (cause : ExpelReason) (s : State), Reaches s h
      (.commit number seq version) ∧ s.memb.state = .live ∧ commitCause s (findRound s h.src number) version = some cause)
    ∧ (∃ (s : State) (e : RoundEntry) (version : Half), e.round.phase = .awaitingBody)
    ∧ (∃ (s : State) (e : RoundEntry) (version : Half), e.round.phase = .voting ∧ e.mark = .refused)
    ∧ (∃ (s : State) (e : RoundEntry) (version : Half) (i : SlotId), e.round.phase = .voting ∧ e.mark ≠ .refused ∧ slotOf?
      e.round.slot = some i ∧ (s.dir.slot i).version ≠ e.round.expected)
    ∧ (∃ (h : Header) (number reason : Byte) (s : State), Reaches s h (.abandon number reason) ∧ abandonReasonListed reason =
      true)
    ∧ (∃ (h : Header) (number reason : Byte) (s : State), Reaches s h (.abandon number reason) ∧ abandonReasonListed reason =
      true)
    ∧ (∃ (h : Header) (number reason : Byte) (s : State), Reaches s h (.abandon number reason) ∧ abandonReasonListed reason =
      true ∧ namesOwnRound s h.src number = true ∧ s.rounds.own.outcome = some (.timeout, 0#8) ∧ s.rounds.queue ≠ [])
    ∧ (∃ (h : Header) (number reason : Byte) (s : State), Reaches s h (.abandon number reason) ∧ abandonReasonListed reason =
      false)
    ∧ (∃ (h : Header) (number reason : Byte) (s : State), Reaches s h (.abandon number reason) ∧ abandonReasonListed reason =
      false) := by
  refine ⟨⟨fromNode 1, 255#8, 1#32, 1#16, pinsAt true, .commitUnknown, station .live 3#8, ?_⟩,
    ⟨fromNode 1, 255#8, 1#32, 2#16, pinsAt true, .commitVersion, withRound aRound (keyed (station .live 3#8)), ?_⟩,
    ⟨State.reset, ⟨anImport, .none⟩, 1#16, ?_⟩,
    ⟨State.reset, ⟨aRound, .refused⟩, 1#16, ?_⟩,
    ⟨State.reset, ⟨{ aRound with expected := 1#16 }, .none⟩, 1#16, 63, ?_⟩,
    ⟨fromNode 1, 255#8, 1#8, withRound aRound (station .live 3#8), ?_⟩,
    ⟨fromNode 1, 255#8, 3#8, withRound aRound (station .live 3#8), ?_⟩,
    ⟨fromNode 0, 255#8, 2#8, withRound { aRound with kind := codeSuspend, slot := 63#8, proposer := 0 }
      (setOwn (fullQueue (keyed (station .live 3#8))) { OwnRound.empty with phase := .decided, number := 255#8, outcome := some (.timeout, 0#8) }),
      ?_⟩,
    ⟨fromNode 1, 255#8, 0#8, withRound aRound (station .live 3#8), ?_⟩,
    ⟨fromNode 1, 255#8, 4#8, withRound aRound (station .live 3#8), ?_⟩⟩
  all_goals ((try unfold Reaches); decide +kernel)

theorem witness_RoundOrderIsQueued :
    (∃ (kind : ChangeKind) (h : Header) (b : OrderBody) (c : Instr) (s : State), roundOrder kind h b = some c ∧ Reaches s h
      (.order kind.code b) ∧ orderFormFails kind.code b = false ∧ serving s = true ∧ orderApprovalsFail s kind.code b =
      false ∧ s.rounds.queue.length < 4 ∧ firstComplete s.cust = none ∧ s.rounds.own.phase = .none ∧ s.rounds.queue = [] ∧
      proposalClash s b.slot kind.code Label.zero = none)
    ∧ (∃ (kind : ChangeKind) (h : Header) (b : OrderBody) (c : Instr) (s : State), roundOrder kind h b = some c ∧ Reaches s h
      (.order kind.code b) ∧ orderFormFails kind.code b = false ∧ serving s = true ∧ orderApprovalsFail s kind.code b =
      false ∧ s.rounds.queue.length < 4 ∧ firstComplete s.cust = none)
    ∧ (∃ (kind : ChangeKind) (h : Header) (b : OrderBody) (c : Instr) (s : State), roundOrder kind h b = some c ∧ Reaches s h
      (.order kind.code b) ∧ orderFormFails kind.code b = false ∧ serving s = true ∧ orderApprovalsFail s kind.code b =
      false ∧ s.rounds.queue.length < 4 ∧ firstComplete s.cust = none ∧ s.rounds.own.phase = .none ∧ s.rounds.queue = [] ∧
      proposalClash s b.slot kind.code Label.zero = some .conflict)
    ∧ (∃ (kind : ChangeKind) (h : Header) (b : OrderBody) (c : Instr) (s : State), roundOrder kind h b = some c ∧ Reaches s h
      (.order kind.code b) ∧ orderFormFails kind.code b = false ∧ serving s = true ∧ orderApprovalsFail s kind.code b =
      false ∧ s.rounds.queue.length < 4 ∧ firstComplete s.cust = none ∧ s.rounds.own.phase ≠ .none ∧ s.rounds.own.phase ≠
      .held) := by
  refine ⟨⟨.suspend, toUs 15, plainOrder 63#8, .orderSuspend (toUs 15) (plainOrder 63#8), keyed (station .live 3#8), ?_⟩,
    ⟨.windowOpen, toUs 15, signedOrder (keyed (station .live 3#8)) codeWindowOpen 255#8, .orderWindowOpen (toUs 15)
      (signedOrder (keyed (station .live 3#8)) codeWindowOpen 255#8), keyed (station .live 3#8), rfl,
      (by unfold Reaches; decide +kernel), (by decide +kernel), (by decide +kernel), signedOrder_approved _ _ _ rfl,
      (by decide +kernel), (by decide +kernel)⟩,
    ⟨.suspend, toUs 15, plainOrder 63#8, .orderSuspend (toUs 15) (plainOrder 63#8), withRound aRound
      (keyed (station .live 3#8)), ?_⟩,
    ⟨.suspend, toUs 15, plainOrder 63#8, .orderSuspend (toUs 15) (plainOrder 63#8), counting (keyed (station .live 3#8)), ?_⟩⟩
  all_goals ((try unfold Reaches); decide +kernel)

theorem witness_OrderRefusalIsReported :
    (∃ (kind : Byte) (h : Header) (b : OrderBody) (pins : Pins) (s : State), Reaches s h (.order kind b) ∧ orderFormFails kind
      b = true)
    ∧ (∃ (kind : Byte) (h : Header) (b : OrderBody) (pins : Pins) (s : State), Reaches s h (.order kind b) ∧ orderFormFails kind
      b = true)
    ∧ (∃ (kind : Byte) (h : Header) (b : OrderBody) (pins : Pins) (s : State), Reaches s h (.order kind b) ∧ orderFormFails kind
      b = false ∧ orderServed s kind = false)
    ∧ (∃ (kind : Byte) (h : Header) (b : OrderBody) (pins : Pins) (s : State), Reaches s h (.order kind b) ∧ orderFormFails kind
      b = false ∧ orderServed s kind = false)
    ∧ (∃ (kind : Byte) (h : Header) (b : OrderBody) (pins : Pins) (s : State), Reaches s h (.order kind b) ∧ orderFormFails kind
      b = false ∧ orderServed s kind = true ∧ orderApprovalsFail s kind b = true)
    ∧ (∃ (kind : Byte) (h : Header) (b : OrderBody) (pins : Pins) (s : State), Reaches s h (.order kind b) ∧ orderFormFails kind
      b = false ∧ orderServed s kind = true ∧ orderApprovalsFail s kind b = true)
    ∧ (∃ (kind : Byte) (h : Header) (b : OrderBody) (pins : Pins) (s : State), Reaches s h (.order kind b) ∧ orderFormFails kind
      b = false ∧ orderServed s kind = true ∧ orderApprovalsFail s kind b = false ∧ ((kind.toNat ≤ 9 ∧ 4 ≤
      s.rounds.queue.length) ∨ ((kind.toNat = 10 ∨ kind.toNat = 11) ∧ s.cust.record ≠ none)))
    ∧ (∃ (kind : Byte) (h : Header) (b : OrderBody) (pins : Pins) (s : State), Reaches s h (.order kind b) ∧ orderFormFails kind
      b = false ∧ orderServed s kind = true ∧ orderApprovalsFail s kind b = false ∧ ((kind.toNat ≤ 9 ∧ 4 ≤
      s.rounds.queue.length) ∨ ((kind.toNat = 10 ∨ kind.toNat = 11) ∧ s.cust.record ≠ none)))
    ∧ (∃ (kind : Byte) (h : Header) (b : OrderBody) (s : State), (¬(2 ≤ kind.toNat ∧ kind.toNat ≤ 12)) ∧ Reaches s h (.order
      kind b))
    ∧ (∃ (kind : Byte) (h : Header) (b : OrderBody) (s : State), (¬(2 ≤ kind.toNat ∧ kind.toNat ≤ 12)) ∧ Reaches s h (.order
      kind b)) := by
  refine ⟨⟨codeSuspend, toUs 15, plainOrder 64#8, pinsAt true, station .live 3#8, ?_⟩,
    ⟨codeErase, toUs 15, plainOrder 0#8, pinsAt true, station .live 3#8, ?_⟩,
    ⟨codeSuspend, toUs 15, plainOrder 63#8, pinsAt true, station .listening 0#8, ?_⟩,
    ⟨codeYield, toUs 15, plainOrder 255#8, pinsAt true, station .live 3#8, ?_⟩,
    ⟨codeRestart, toUs 15, plainOrder 255#8, pinsAt true, keyed (station .live 3#8), ?_⟩,
    ⟨codeResume, toUs 15, plainOrder 63#8, pinsAt true, keyed (station .live 3#8), ?_⟩,
    ⟨codeSuspend, toUs 15, plainOrder 63#8, pinsAt true, fullQueue (keyed (station .live 3#8)), ?_⟩,
    ⟨codeRestart, toUs 15, signedOrder (recorded (keyed (station .live 3#8))) codeRestart 255#8, pinsAt true, recorded
      (keyed (station .live 3#8)), (by unfold Reaches; decide +kernel), (by decide +kernel), (by decide +kernel),
      signedOrder_approved _ _ _ rfl, (by decide +kernel)⟩,
    ⟨1#8, toUs 15, plainOrder 63#8, station .live 3#8, ?_⟩,
    ⟨13#8, toUs 15, plainOrder 63#8, station .live 3#8, ?_⟩⟩
  all_goals ((try unfold Reaches); decide +kernel)

theorem witness_RestartAndYield :
    (∃ (h : Header) (b : OrderBody) (pins : Pins) (s : State), Reaches s h (.order codeRestart b) ∧ orderFormFails codeRestart
      b = false ∧ orderApprovalsFail s codeRestart b = false ∧ s.cust.record = none ∧ s.memb.state ≠ .live ∧
      (s.tamper.window = none ∨ pins.doorOpen = false))
    ∧ (∃ (h : Header) (b : OrderBody) (pins : Pins) (s : State), Reaches s h (.order codeRestart b) ∧ orderFormFails codeRestart
      b = false ∧ orderApprovalsFail s codeRestart b = false ∧ s.cust.record = none ∧ s.memb.state = .live)
    ∧ (∃ (h : Header) (b : OrderBody) (pins : Pins) (s : State), Reaches s h (.order codeYield b) ∧ orderFormFails codeYield b =
      false ∧ orderServed s codeYield = true ∧ orderApprovalsFail s codeYield b = false ∧ s.cust.record = none ∧
      (s.tamper.window = none ∨ pins.doorOpen = false)) := by
  refine ⟨⟨toUs 15, signedOrder (keyed (station .listening 0#8)) codeRestart 255#8, pinsAt true, keyed (station .listening 0#8),
      (by unfold Reaches; decide +kernel), (by decide +kernel), signedOrder_approved _ _ _ rfl, (by decide +kernel),
      (by decide +kernel), (by decide +kernel)⟩,
    ⟨toUs 15, signedOrder (keyed (station .live 3#8)) codeRestart 255#8, pinsAt true, keyed (station .live 3#8),
      (by unfold Reaches; decide +kernel), (by decide +kernel), signedOrder_approved _ _ _ rfl, (by decide +kernel),
      (by decide +kernel)⟩,
    ⟨toUs 15, signedOrder (keyed (station .detached 0#8)) codeYield 255#8, pinsAt true, keyed (station .detached 0#8),
      (by unfold Reaches; decide +kernel), (by decide +kernel), (by decide +kernel), signedOrder_approved _ _ _ rfl,
      (by decide +kernel), (by decide +kernel)⟩⟩

theorem witness_SlotComponentIsTaken :
    (∃ (h : Header) (b : ComponentBody) (a : AreaId) (x : Area) (s : State), TakesComponent h b a x s ∧ takenCount
      (withComponent b (s.wirePlace + 1) x) ≠ x.m.toNat)
    ∧ (∃ (h : Header) (b : ComponentBody) (a : AreaId) (x : Area) (k : CabinetKey) (s : State), TakesComponent h b a x s ∧
      takenCount (withComponent b (s.wirePlace + 1) x) = x.m.toNat ∧ s.dir.key = some k ∧ checkOf (accumulatorOf x ^^^
      b.component) = x.expected)
    ∧ (∃ (h : Header) (b : ComponentBody) (a : AreaId) (x : Area) (k : CabinetKey) (s : State), TakesComponent h b a x s ∧
      takenCount (withComponent b (s.wirePlace + 1) x) = x.m.toNat ∧ s.dir.key = some k ∧ checkOf (accumulatorOf x ^^^
      b.component) = x.expected ∧ s.rounds.queue.length = 4 ∧ s.rounds.own.phase ≠ .held)
    ∧ (∃ (h : Header) (b : ComponentBody) (a : AreaId) (x : Area) (s : State), TakesComponent h b a x s ∧ takenCount
      (withComponent b (s.wirePlace + 1) x) = x.m.toNat ∧ checkOf (accumulatorOf x ^^^ b.component) ≠ x.expected)
    ∧ (∃ (h : Header) (b : ComponentBody) (detail : AssemblyDetail) (s : State), Reaches s h (.component b) ∧ b.target ≠ 255#8 ∧
      applies s = true ∧ slotRefusal s h b = some detail)
    ∧ (∃ (h : Header) (b : ComponentBody) (detail : AssemblyDetail) (s : State), Reaches s h (.component b) ∧ b.target ≠ 255#8 ∧
      applies s = true ∧ slotRefusal s h b = some detail) := by
  refine ⟨⟨toUs 15, component 1#8 0#24, 0, openedArea (toUs 15) (component 1#8 0#24), openCabinet (station .live 3#8),
      ⟨(by unfold Reaches; decide +kernel), (by decide), (by decide +kernel), (by decide +kernel), component_checked _ _,
      rfl, (by decide +kernel)⟩, (by decide +kernel)⟩,
    ⟨toUs 15, component 2#8 (checkOf (6#256 ^^^ 7#256)), 1, halfArea (checkOf (6#256 ^^^ 7#256)), ⟨5#256, 9#24⟩, withArea
      (halfArea (checkOf (6#256 ^^^ 7#256))) (openCabinet (station .live 3#8)), ⟨(by unfold Reaches; decide +kernel),
      (by decide), (by decide +kernel), (by decide +kernel), component_checked _ _, second_component_joins _
      (openCabinet (station .live 3#8)), (by decide +kernel)⟩, (by decide +kernel), rfl, rfl⟩,
    ⟨toUs 15, component 2#8 (checkOf (6#256 ^^^ 7#256)), 1, halfArea (checkOf (6#256 ^^^ 7#256)), ⟨5#256, 9#24⟩, fullQueue
      (withArea (halfArea (checkOf (6#256 ^^^ 7#256))) (openCabinet (station .live 3#8))),
      ⟨(by unfold Reaches; decide +kernel), (by decide), (by decide +kernel), (by decide +kernel), component_checked _ _,
      second_component_joins _ (fullQueue (openCabinet (station .live 3#8))), (by decide +kernel)⟩, (by decide +kernel),
      rfl, rfl, (by decide +kernel), (by decide +kernel)⟩,
    ⟨toUs 15, component 2#8 (checkOf (6#256 ^^^ 7#256) + 1#24), 1, halfArea (checkOf (6#256 ^^^ 7#256) + 1#24), withArea
      (halfArea (checkOf (6#256 ^^^ 7#256) + 1#24)) (openCabinet (station .live 3#8)),
      ⟨(by unfold Reaches; decide +kernel), (by decide), (by decide +kernel), (by decide +kernel), component_checked _ _,
      second_component_joins _ (openCabinet (station .live 3#8)), (by decide +kernel)⟩, (by decide +kernel), fun h =>
      absurd (show checkOf (6#256 ^^^ 7#256) = checkOf (6#256 ^^^ 7#256) + 1#24 from h) (by bv_omega)⟩,
    ⟨toUs 15, component 1#8 0#24, .notServing, station .catchup 2#8, ?_⟩,
    ⟨toUs 15, component 3#8 0#24, .form, openCabinet (station .live 3#8), ?_⟩⟩
  all_goals ((try unfold Reaches); decide +kernel)

theorem witness_CabinetComponentInstallsKey :
    (∃ (h : Header) (b : ComponentBody) (a : AreaId) (x : Area) (s : State), Reaches s h (.component b) ∧ s.memb.state =
      .blank ∧ numbersFail b = false ∧ componentCheckFails b = false ∧ placeComponent true h (cabinetComponent b) s = .ok
      (a, x))
    ∧ (∃ (h : Header) (b : ComponentBody) (a : AreaId) (x : Area) (s : State), Reaches s h (.component b) ∧ s.memb.state =
      .blank ∧ numbersFail b = false ∧ componentCheckFails b = false ∧ placeComponent true h (cabinetComponent b) s = .ok
      (a, x) ∧ takenCount (withComponent (cabinetComponent b) (s.wirePlace + 1) x) = x.m.toNat ∧ checkOf (accumulatorOf
      (withComponent (cabinetComponent b) (s.wirePlace + 1) x)) = x.expected)
    ∧ (∃ (h : Header) (b : ComponentBody) (a : AreaId) (x : Area) (s : State), Reaches s h (.component b) ∧ s.memb.state =
      .blank ∧ numbersFail b = false ∧ componentCheckFails b = false ∧ placeComponent true h (cabinetComponent b) s = .ok
      (a, x) ∧ takenCount (withComponent (cabinetComponent b) (s.wirePlace + 1) x) = x.m.toNat ∧ checkOf (accumulatorOf
      (withComponent (cabinetComponent b) (s.wirePlace + 1) x)) ≠ x.expected)
    ∧ (∃ (h : Header) (b : ComponentBody) (s : State), Reaches s h (.component b) ∧ s.memb.state = .blank ∧ (numbersFail b =
      true ∨ componentCheckFails b = true ∨ (∃ d, placeComponent true h (cabinetComponent b) s = .error d)))
    ∧ (∃ (h : Header) (b : ComponentBody) (s : State), Reaches s h (.component b) ∧ s.memb.state ≠ .blank)
    ∧ (∃ (a : AreaId) (x : Area) (s : State), areaAt s a = some x ∧ x.phase ≠ .queued)
    ∧ (∃ (a : AreaId) (s : State), (∀ x, areaAt s a = some x → x.phase = .queued)) := by
  refine ⟨⟨⟨15, ⟨true, 0⟩⟩, { component 1#8 0#24 with target := 255#8 }, 0, openedArea (fromNode 15)
      (cabinetComponent { component 1#8 0#24 with target := 255#8 }), State.reset, (by unfold Reaches; decide +kernel),
      rfl, (by decide +kernel), component_checked 1#8 0#24, rfl⟩,
    ⟨fromNode 15, { component 2#8 (checkOf (6#256 ^^^ 7#256)) with target := 255#8 }, 1, halfCabinet
      (checkOf (6#256 ^^^ 7#256)), withArea (halfCabinet (checkOf (6#256 ^^^ 7#256))) State.reset,
      (by unfold Reaches; decide +kernel), rfl, (by decide +kernel), component_checked 2#8 (checkOf (6#256 ^^^ 7#256)),
      second_cabinet_component_joins (checkOf (6#256 ^^^ 7#256)), (by decide +kernel), rfl⟩,
    ⟨fromNode 15, { component 2#8 (checkOf (6#256 ^^^ 7#256) + 1#24) with target := 255#8 }, 1, halfCabinet
      (checkOf (6#256 ^^^ 7#256) + 1#24), withArea (halfCabinet (checkOf (6#256 ^^^ 7#256) + 1#24)) State.reset,
      (by unfold Reaches; decide +kernel), rfl, (by decide +kernel), component_checked 2#8
      (checkOf (6#256 ^^^ 7#256) + 1#24), second_cabinet_component_joins (checkOf (6#256 ^^^ 7#256) + 1#24),
      (by decide +kernel), fun h => absurd (show checkOf (6#256 ^^^ 7#256) = checkOf (6#256 ^^^ 7#256) + 1#24 from h)
      (by bv_omega)⟩,
    ⟨fromNode 15, { component 3#8 0#24 with target := 255#8 }, State.reset, (by unfold Reaches; decide +kernel), rfl, .inl
      (by decide +kernel)⟩,
    ⟨fromNode 15, { component 1#8 0#24 with target := 255#8 }, station .live 3#8, ?_⟩,
    ⟨1, halfArea 0#24, withArea (halfArea 0#24) (station .live 3#8), ?_⟩,
    ⟨1, withArea { halfArea 0#24 with phase := .queued } State.reset, fun x h => (by cases h; rfl)⟩⟩
  all_goals ((try unfold Reaches); decide +kernel)

theorem witness_PullIsServed :
    (∃ (h : Header) (area start : Byte) (size : Nat) (s : State), Reaches s h (.pull area start) ∧ areaSize? area = some size
      ∧ start.toNat < size ∧ s.memb.state = .live ∧ s.memb.leaving = false ∧ s.catchUp.serve.length < 4)
    ∧ (∃ (h : Header) (area start : Byte) (size : Nat) (s : State), Reaches s h (.pull area start) ∧ areaSize? area = some size
      ∧ start.toNat < size ∧ s.memb.state = .live ∧ s.memb.leaving = false ∧ s.catchUp.serve.length < 4)
    ∧ (∃ (h : Header) (area start : Byte) (s : State), Reaches s h (.pull area start) ∧ (areaSize? area = none ∨ (∃ size,
      areaSize? area = some size ∧ size ≤ start.toNat) ∨ s.memb.state ≠ .live ∨ s.memb.leaving = true ∨ 4 ≤
      s.catchUp.serve.length))
    ∧ (∃ (h : Header) (area start : Byte) (s : State), Reaches s h (.pull area start) ∧ (areaSize? area = none ∨ (∃ size,
      areaSize? area = some size ∧ size ≤ start.toNat) ∨ s.memb.state ≠ .live ∨ s.memb.leaving = true ∨ 4 ≤
      s.catchUp.serve.length)) := by
  refine ⟨⟨toUs 1, areaSlots, 63#8, 64, station .live 3#8, ?_⟩,
    ⟨toUs 1, areaMembers, 0#8, 1, station .live 3#8, ?_⟩,
    ⟨toUs 1, 5#8, 0#8, station .live 3#8, (by unfold Reaches; decide +kernel), .inl rfl⟩,
    ⟨toUs 1, areaSlots, 64#8, station .live 3#8, (by unfold Reaches; decide +kernel), .inr (.inl ⟨64, rfl, (by decide)⟩)⟩⟩
  all_goals ((try unfold Reaches); decide +kernel)

theorem witness_ImageOverwritesItem :
    (∃ (h : Header) (area item : Byte) (seq : Word) (contents : List Byte) (i : SlotId) (x : Slot) (u : Usage) (s : State),
      Reaches s h (.image area item seq contents) ∧ takesImages s h.src = true ∧ imageItem? area item contents = some
      (.slot i x u))
    ∧ (∃ (h : Header) (area item : Byte) (seq : Word) (contents : List Byte) (l : LineId) (e : LineEntry) (s : State), Reaches s
      h (.image area item seq contents) ∧ takesImages s h.src = true ∧ imageItem? area item contents = some (.line l e))
    ∧ (∃ (h : Header) (area item : Byte) (seq : Word) (contents : List Byte) (l : LineId) (e : LineEntry) (s : State), Reaches s
      h (.image area item seq contents) ∧ takesImages s h.src = true ∧ imageItem? area item contents = some (.line l e))
    ∧ (∃ (h : Header) (area item : Byte) (seq : Word) (contents : List Byte) (map : NodeMap) (check : Check) (s : State),
      Reaches s h (.image area item seq contents) ∧ takesImages s h.src = true ∧ imageItem? area item contents = some
      (.members map check) ∧ membersFail s (setOfMap (stationCount s) map) check = false)
    ∧ (∃ (h : Header) (area item : Byte) (seq : Word) (contents : List Byte) (k : Nat) (r : Round) (s : State), Reaches s h
      (.image area item seq contents) ∧ takesImages s h.src = true ∧ imageItem? area item contents = some (.round k (some
      r)) ∧ s.rounds.list.length ≤ 4)
    ∧ (∃ (h : Header) (area item : Byte) (seq : Word) (contents : List Byte) (k : Nat) (s : State), Reaches s h (.image area
      item seq contents) ∧ takesImages s h.src = true ∧ imageItem? area item contents = some (.round k none))
    ∧ (∃ (h : Header) (area item : Byte) (seq : Word) (contents : List Byte) (x : ImageItem) (s : State), Reaches s h (.image
      area item seq contents) ∧ takesImages s h.src = true ∧ imageItem? area item contents = some x ∧ itemFails x s =
      false ∧ awaits s area item = true ∧ s.catchUp.awaited.erase item ≠ [])
    ∧ (∃ (h : Header) (area item : Byte) (seq : Word) (contents : List Byte) (x : ImageItem) (s : State), Reaches s h (.image
      area item seq contents) ∧ takesImages s h.src = true ∧ imageItem? area item contents = some x ∧ itemFails x s =
      false ∧ awaits s area item = true ∧ s.catchUp.awaited.erase item = [] ∧ s.catchUp.pullIndex < 26 ∧ s.catchUp.source
      = some 1)
    ∧ (∃ (h : Header) (area item : Byte) (seq : Word) (contents : List Byte) (x : ImageItem) (s : State), Reaches s h (.image
      area item seq contents) ∧ takesImages s h.src = true ∧ imageItem? area item contents = some x ∧ itemFails x s =
      false ∧ awaits s area item = true ∧ s.catchUp.awaited.erase item = [] ∧ 26 ≤ s.catchUp.pullIndex)
    ∧ (∃ (h : Header) (area item : Byte) (seq : Word) (contents : List Byte) (map : NodeMap) (check : Check) (s : State),
      Reaches s h (.image area item seq contents) ∧ takesImages s h.src = true ∧ imageItem? area item contents = some
      (.members map check) ∧ membersFail s (setOfMap (stationCount s) map) check = true ∧ s.catchUp.phase ≠ .joining)
    ∧ (∃ (h : Header) (area item : Byte) (seq : Word) (contents : List Byte) (map : NodeMap) (check : Check) (s : State),
      Reaches s h (.image area item seq contents) ∧ takesImages s h.src = true ∧ imageItem? area item contents = some
      (.members map check) ∧ membersFail s (setOfMap (stationCount s) map) check = true ∧ s.catchUp.phase = .joining)
    ∧ (∃ (h : Header) (area item : Byte) (seq : Word) (contents : List Byte) (s : State), Reaches s h (.image area item seq
      contents) ∧ (takesImages s h.src = false ∨ imageItem? area item contents = none))
    ∧ (∃ (h : Header) (area item : Byte) (seq : Word) (contents : List Byte) (s : State), Reaches s h (.image area item seq
      contents) ∧ (takesImages s h.src = false ∨ imageItem? area item contents = none)) := by
  refine ⟨⟨toUs 1, areaSlots, 63#8, 4294967295#32, slotBytes (keyedDirectory.slot 63) ++ usageBytes ⟨1#32, 2#32, true⟩, 63,
      keyedDirectory.slot 63, ⟨1#32, 2#32, true⟩, pulling (station .catchup 2#8), ?_⟩,
    ⟨toUs 1, areaLines, 31#8, 1#32, lineBytes
      { LineEntry.zero with state := .closing, gateway := 15#8, line := 7#8, pendingClear := 2#8, positions := tset LineEntry.zero.positions 15 (claimedFor 1#4) },
      31,
      { LineEntry.zero with state := .closing, gateway := 15#8, line := 7#8, pendingClear := 2#8, positions := tset LineEntry.zero.positions 15 (claimedFor 1#4) },
      pulling (station .catchup 2#8), ?_⟩,
    ⟨toUs 1, areaLines, 0#8, 1#32, lineBytes LineEntry.zero, 0, LineEntry.zero, pulling (station .catchup 2#8), ?_⟩,
    ⟨toUs 1, areaMembers, 0#8, 1#32, [0#8, 2#8, 0#8, 0#8, 0#8], 2#16, 0#24, pulling (station .catchup 2#8), ?_⟩,
    ⟨toUs 1, areaRounds, 3#8, 1#32, roundBytes aRound, 3, aRound, pulling (station .catchup 2#8), ?_⟩,
    ⟨toUs 1, areaRounds, 3#8, 1#32, noRoundBytes, 3, pulling (station .catchup 2#8), ?_⟩,
    ⟨toUs 1, areaRounds, 0#8, 1#32, noRoundBytes, .round 0 none,
      { pulling (station .catchup 2#8) with catchUp := { (pulling (station .catchup 2#8)).catchUp with pullIndex := 2, awaited := [0#8, 3#8] } },
      ?_⟩,
    ⟨toUs 1, areaMembers, 0#8, 1#32, [0#8, 2#8, 0#8, 0#8, 0#8], .members 2#16 0#24, pulling (station .catchup 2#8), ?_⟩,
    ⟨toUs 1, areaLines, 31#8, 1#32, lineBytes LineEntry.zero, .line 31 LineEntry.zero,
      { pulling (station .catchup 2#8) with catchUp := { (pulling (station .catchup 2#8)).catchUp with pullIndex := 26, awaited := [31#8] } },
      ?_⟩,
    ⟨toUs 1, areaMembers, 0#8, 1#32, [0#8, 3#8, 0#8, 0#8, 0#8], 3#16, 0#24, pulling (station .catchup 2#8), ?_⟩,
    ⟨toUs 1, areaMembers, 0#8, 1#32, [0#8, 3#8, 0#8, 0#8, 0#8], 3#16, 0#24, atPhase .joining (pulling (station .catchup 2#8)),
      ?_⟩,
    ⟨toUs 1, areaMembers, 0#8, 1#32, [0#8, 2#8, 0#8, 0#8, 0#8], station .catchup 2#8, ?_⟩,
    ⟨toUs 1, areaMembers, 1#8, 1#32, [0#8, 2#8, 0#8, 0#8, 0#8], pulling (station .catchup 2#8), ?_⟩⟩
  all_goals ((try unfold Reaches); decide +kernel)

theorem witness_CatchUpTimersFailAttempt :
    (∃ (s : State), s.memb.state = .catchup ∧ s.catchUp.pullTimer = true ∧ s.catchUp.phase = .pulling)
    ∧ (∃ (s : State), s.memb.state = .catchup ∧ s.catchUp.verifyTimer = true ∧ (s.catchUp.phase = .waitSource ∨ s.catchUp.phase
      = .verifying))
    ∧ (∃ (s : State), s.catchUp.pullTimer = false)
    ∧ (∃ (s : State), s.catchUp.verifyTimer = false) := by
  refine ⟨⟨pulling (station .catchup 2#8), ?_⟩,
    ⟨{ station .catchup 2#8 with catchUp := { State.reset.catchUp with phase := .verifying, verifyTimer := true } }, ?_⟩,
    ⟨State.reset, ?_⟩,
    ⟨State.reset, ?_⟩⟩
  all_goals decide +kernel

theorem witness_QueriesAreQueued :
    (∃ (h : Header) (tag : Half) (arg : QueryArg) (s : State), Reaches s h (queryFrame tag arg) ∧ WithinCapacity s ∧
      s.rep.queries.length < 4 ∧ queryAnswered s.memb.state arg = true)
    ∧ (∃ (h : Header) (tag : Half) (arg : QueryArg) (s : State), Reaches s h (queryFrame tag arg) ∧ WithinCapacity s ∧
      s.rep.queries.length < 4 ∧ queryAnswered s.memb.state arg = true)
    ∧ (∃ (h : Header) (tag : Half) (arg : QueryArg) (s : State), Reaches s h (queryFrame tag arg) ∧ s.rep.queries = [] ∧
      queryAnswered s.memb.state arg = false ∧ hasPending s isQueryReport = false)
    ∧ (∃ (h : Header) (tag : Half) (arg : QueryArg) (s : State), Reaches s h (queryFrame tag arg) ∧ (noteGateway h
      (receivedIntact s)).rep.queries.length = 4)
    ∧ (∃ (h : Header) (tag : Half) (arg : QueryArg) (s : State), Reaches s h (queryFrame tag arg) ∧ (noteGateway h
      (receivedIntact s)).rep.queries.length = 4)
    ∧ (∃ (g : Node) (tag : Half) (sel : SlotSelector) (i : SlotId) (s : State), selected s sel = some i)
    ∧ (∃ (g : Node) (tag : Half) (sel : SlotSelector) (i : SlotId) (s : State), selected s sel = some i)
    ∧ (∃ (g : Node) (tag : Half) (sel : SlotSelector) (s : State), selected s sel = none)
    ∧ (∃ (g : Node) (tag : Half) (sel : SlotSelector) (s : State), selected s sel = none)
    ∧ (∃ (h : Header) (body : List Byte) (s : State), onLink s = true ∧ frameMisplaced (.answer body) (stationCount s) h =
      false)
    ∧ (∃ (h : Header) (body : List Byte) (s : State), onLink s = true ∧ frameMisplaced (.report body) (stationCount s) h =
      false) := by
  refine ⟨⟨toUs 15, 65535#16, .line 255#8 255#8, queries 3 (station .live 3#8), ?_⟩,
    ⟨toUs 15, 0#16, .identity, State.reset, ?_⟩,
    ⟨toUs 15, 0#16, .slot (.byNumber 63#8), State.reset, ?_⟩,
    ⟨toUs 15, 0#16, .sensors,
      { queries 4 (station .live 3#8) with link := { State.reset.link with queue := List.replicate 12 ⟨0, .report 15 [], .none⟩, admissions := [.queryReport ⟨15, 0#16, .sensors⟩] } },
      ?_⟩,
    ⟨toUs 15, 65535#16, .identity, queries 4 (station .blank 0#8), ?_⟩,
    ⟨15, 65535#16, .byNumber 63#8, 63, State.reset, ?_⟩,
    ⟨15, 0#16, .byLabel ⟨1#24, 255#8⟩, 63,
      { station .live 3#8 with dir := (keyedDirectory.setSlot 63 { keyedDirectory.slot 63 with label := ⟨1#24, 255#8⟩ }).setSlot 62 { keyedDirectory.slot 62 with label := ⟨1#24, 254#8⟩ } },
      ?_⟩,
    ⟨15, 65535#16, .byNumber 64#8, State.reset, ?_⟩,
    ⟨15, 0#16, .byLabel Label.zero, State.reset, ?_⟩,
    ⟨⟨1, ⟨false, 15⟩⟩, List.replicate 95 0#8, State.reset, ?_⟩,
    ⟨⟨1, ⟨false, 15⟩⟩, field 2 0#16 ++ [4#8] ++ zeros 85, State.reset, ?_⟩⟩
  all_goals ((try unfold Reaches); (try unfold WithinCapacity); decide +kernel)

theorem witness_SamplesAreJudged :
    (∃ (ch : Channel) (reading : BitVec 10) (s : State), monitorPowered s = true ∧ (takeSample ch (sampleValue ch reading)
      (channelOf s.tamper ch)).2 = false)
    ∧ (∃ (ch : Channel) (reading : BitVec 10) (s : State), monitorPowered s = true ∧ (takeSample ch (sampleValue ch reading)
      (channelOf s.tamper ch)).2 = true ∧ (s.memb.state = .blank ∨ s.memb.state = .listening ∨ s.memb.state = .catchup ∨
      s.memb.state = .live ∨ s.memb.state = .detached))
    ∧ (∃ (ch : Channel) (reading : BitVec 10) (s : State), monitorPowered s = true ∧ (takeSample ch (sampleValue ch reading)
      (channelOf s.tamper ch)).2 = true ∧ (s.memb.state = .blank ∨ s.memb.state = .listening ∨ s.memb.state = .catchup ∨
      s.memb.state = .live ∨ s.memb.state = .detached))
    ∧ (∃ (ch : Channel) (reading : BitVec 10) (s : State), monitorPowered s = true ∧ s.memb.state = .retention ∧ (takeSample ch
      (sampleValue ch reading) (channelOf s.tamper ch)).2 = true ∧ s.tamper.window = none)
    ∧ (∃ (ch : Channel) (reading : BitVec 10) (s : State), monitorPowered s = true ∧ (s.memb.state = .zeroised ∨ s.memb.state =
      .strapFault) ∧ (takeSample ch (sampleValue ch reading) (channelOf s.tamper ch)).2 = true)
    ∧ (∃ (ch : Channel) (reading : BitVec 10) (s : State), monitorPowered s = true ∧ (s.memb.state = .zeroised ∨ s.memb.state =
      .strapFault) ∧ (takeSample ch (sampleValue ch reading) (channelOf s.tamper ch)).2 = true)
    ∧ (∃ (ch : Channel) (v : Nat) (c : ChannelRecord), c.state = .settling)
    ∧ (∃ (ch : Channel) (v : Nat) (c : ChannelRecord), c.state = .settling)
    ∧ (∃ (ch : Channel) (v : Nat) (c : ChannelRecord), c.state = .armed ∧ isDigital ch = false)
    ∧ (∃ (ch : Channel) (v : Nat) (c : ChannelRecord), c.state = .armed ∧ isDigital ch = true)
    ∧ (∃ (ch : Channel) (v : Nat) (c : ChannelRecord), c.state = .disarmed)
    ∧ (∃ (r : Nat) (s : State), s.tamper.window = some r ∧ s.inputs.pins.doorOpen = false)
    ∧ (∃ (r : Nat) (s : State), s.tamper.window = some r ∧ s.inputs.pins.doorOpen = true ∧ s.memb.state = .live)
    ∧ (∃ (s : State), s.tamper.window = none) := by
  refine ⟨⟨.C, 0#10, State.reset, ?_⟩,
    ⟨.D, 1#10, allArmed State.reset, ?_⟩,
    ⟨.C, 1023#10, allArmed (station .live 3#8), ?_⟩,
    ⟨.D, 1#10, allArmed (station .retention 0#8), ?_⟩,
    ⟨.D, 1#10, allArmed (station .zeroised 0#8), ?_⟩,
    ⟨.C, 1023#10, allArmed (station .strapFault 0#8), ?_⟩,
    ⟨.T, 1023, ChannelRecord.zero, ?_⟩,
    ⟨.C, 0, { ChannelRecord.zero with settleCount := 31 }, ?_⟩,
    ⟨.M, 0, { ChannelRecord.zero with state := .armed, trip := 2 }, ?_⟩,
    ⟨.D, 1, { ChannelRecord.zero with state := .armed }, ?_⟩,
    ⟨.D, 1, { ChannelRecord.zero with state := .disarmed }, ?_⟩,
    ⟨65535, withWindow (some 65535) (station .live 3#8), ?_⟩,
    ⟨1, withWindow (some 1) { station .live 3#8 with inputs := { Inputs.reset with pins := pinsAt true } }, ?_⟩,
    ⟨State.reset, ?_⟩⟩
  all_goals decide +kernel

theorem witness_BaselineFollowsMean :
    (∃ (ch : Channel) (v : Nat) (c : ChannelRecord), c.state = .armed ∧ isDigital ch = false)
    ∧ (∃ (ch : Channel) (b v : Nat), (v < windowLow ch ∨ windowHigh ch < v))
    ∧ (∃ (ch : Channel) (b v : Nat), (v < windowLow ch ∨ windowHigh ch < v))
    ∧ (∃ (ch : Channel) (v : Nat) (c : ChannelRecord), c.state = .disarmed) := by
  refine ⟨⟨.T, 1023, { ChannelRecord.zero with state := .armed, stepCount := 63 }, ?_⟩,
    ⟨.T, 512, windowLow .T - 1, ?_⟩,
    ⟨.M, 512, windowHigh .M + 1, ?_⟩,
    ⟨.L, 0, { ChannelRecord.zero with state := .disarmed, stepCount := 63 }, ?_⟩⟩
  all_goals decide +kernel

theorem witness_UsageRequestsCount :
    (∃ (d : Directory) (i : SlotId) (n : Nat), d.reserveTaken i n = true)
    ∧ (∃ (d : Directory) (i : SlotId) (n k : Nat), (d.usageOf i).used.toNat + (d.usageOf i).reserved.toNat ≤ d.limitOf i ∧
      ((d.settle i n k).usageOf i).used.toNat = d.limitOf i)
    ∧ (∃ (d : Directory) (i : SlotId) (n k : Nat), (d.usageOf i).used.toNat + (d.usageOf i).reserved.toNat ≤ d.limitOf i ∧
      ((d.settle i n k).usageOf i).used.toNat < d.limitOf i ∧ (d.usageOf i).exhausted = false)
    ∧ (∃ (d : Directory) (i j : SlotId) (n k : Nat), j ≠ i) := by
  refine ⟨⟨Directory.erased, 63, 4294967295, ?_⟩,
    ⟨Directory.erased.setUsage 63 ⟨4294967294#32, 1#32, false⟩, 63, 255, 255, ?_⟩,
    ⟨Directory.erased.setUsage 63 ⟨4294967293#32, 1#32, false⟩, 63, 255, 255, ?_⟩,
    ⟨Directory.erased, 63, 62, 255, 255, ?_⟩⟩
  all_goals decide +kernel

theorem witness_FormatsRoundTrip :
    (∃ (f : Frame), frameLengthFits f = true)
    ∧ (∃ (f : Frame), frameLengthFits f = true)
    ∧ (∃ (e : LineEntry), (e.state ≠ .free ∨ e = LineEntry.zero))
    ∧ (∃ (e : LineEntry), (e.state ≠ .free ∨ e = LineEntry.zero))
    ∧ (∃ (r : Round), r.approvals.length ≤ 2 ∧ r.body ≠ some ⟨0#256, 0#24⟩) := by
  refine ⟨⟨.report (field 2 65535#16 ++ [4#8] ++ zeros 85), ?_⟩,
    ⟨.cards ⟨7#8, 15#8, 255#8, List.replicate 6 oneCard⟩, ?_⟩,
    ⟨{ LineEntry.zero with state := .closing, gateway := 15#8, line := 7#8, pendingClear := 2#8, positions := tset LineEntry.zero.positions 15 (claimedFor 1#4) },
      ?_⟩,
    ⟨LineEntry.zero, ?_⟩,
    ⟨{ aRound with approvals := [⟨0#8, 0#64⟩, ⟨1#8, 0#64⟩], body := some ⟨1#256, 0#24⟩ }, ?_⟩⟩
  all_goals decide +kernel

theorem witness_StepKeepsCapacities :
    (∃ (s t : State), QueueBounded s ∧ QueueOrdered s ∧ WithinCapacity s ∧ step s = .next t)
    ∧ (∃ (s t : State), QueueBounded s ∧ QueueOrdered s ∧ WithinCapacity s ∧ step s = .next t) := by
  refine ⟨⟨{ State.reset with pending := [.contention] }, setBus State.reset (.contending .presence),
      (by unfold QueueBounded; decide), (by unfold QueueOrdered; decide), (by unfold WithinCapacity; decide), rfl⟩,
    ⟨{ State.reset with pending := [.contention] }, setBus State.reset (.contending .presence),
      (by unfold QueueBounded; decide), (by unfold QueueOrdered; decide), (by unfold WithinCapacity; decide), rfl⟩⟩

theorem witness_StepKeepsOneQueueEach :
    (∃ (s t : State), OneQueueEach s ∧ step s = .next t)
    ∧ (∃ (s t : State), OneQueueEach s ∧ step s = .next t) := by
  refine ⟨⟨{ State.reset with pending := [.contention] }, setBus State.reset (.contending .presence),
      (by unfold OneQueueEach; decide +kernel), rfl⟩,
    ⟨{ State.reset with pending := [.contention] }, setBus State.reset (.contending .presence),
      (by unfold OneQueueEach; decide +kernel), rfl⟩⟩

theorem witness_StepKeepsSound :
    (∃ (s t : State), Sound s ∧ LiveSetWithinStations s ∧ step s = .next t)
    ∧ (∃ (s t : State), Sound s ∧ LiveSetWithinStations s ∧ step s = .next t) := by
  refine ⟨⟨{ State.reset with pending := [.contention] }, setBus State.reset (.contending .presence), (by unfold Sound; decide), fun
      k h => (by simp [setHas, State.reset] at h), rfl⟩,
    ⟨{ State.reset with pending := [.contention] }, setBus State.reset (.contending .presence), (by unfold Sound; decide), fun
      k h => (by simp [setHas, State.reset] at h), rfl⟩⟩

theorem witness_StepKeepsFreeLinesZero :
    (∃ (s t : State), FreeLinesZero s ∧ step s = .next t)
    ∧ (∃ (s t : State), FreeLinesZero s ∧ step s = .next t) := by
  refine ⟨⟨{ State.reset with pending := [.contention] }, setBus State.reset (.contending .presence),
      (by unfold FreeLinesZero; decide +kernel), rfl⟩,
    ⟨{ State.reset with pending := [.contention] }, setBus State.reset (.contending .presence),
      (by unfold FreeLinesZero; decide +kernel), rfl⟩⟩

theorem witness_StepKeepsReferences :
    (∃ (s t : State), CandidateQueued s ∧ step s = .next t)
    ∧ (∃ (s t : State), NotesPlaced s ∧ step s = .next t) := by
  refine ⟨⟨{ withQueue [⟨15, .accept 1#8 255#8, .none⟩] (station .live 3#8) with pending := [.contention] }, setBus
      (withQueue [⟨15, .accept 1#8 255#8, .none⟩] (station .live 3#8)) (.contending (.entry 15)), candidateQueued_of _
      (by decide +kernel), rfl⟩,
    ⟨{ setLocal (State.reset) 31 15 ⟨some ⟨1#8, 1#8, some oneCard, 0⟩, .running, .running⟩ with pending := [.contention] },
      setBus (setLocal (State.reset) 31 15 ⟨some ⟨1#8, 1#8, some oneCard, 0⟩, .running, .running⟩)
      (.contending .presence), notesPlaced_of _ (by decide +kernel), rfl⟩⟩

end Sys2Proof.Tests
end

section
/-! SUPPORT. What any operation can do to the transmit queue (R14 to R20): a small set of moves, what each leaves true, and for
every operation of the model that it is made of such moves. -/

-- One theorem after another: a waiting elaboration keeps a thread and its stack.
set_option Elab.async false

namespace Sys2Proof.Machine

/-! ## Moves of the transmit queue -/

/-- A change that leaves the transmit queue and the bus alone, and lets no bounded list past its capacity and no posting note past
the present place in wire order. -/
structure Aside (s t : State) : Prop where
  txQueue : Part.txQueue.same s t
  bus : t.link.bus = s.link.bus
  custody : s.rounds.queue.length ≤ 4 → t.rounds.queue.length ≤ 4
  list : s.rounds.list.length ≤ 4 → t.rounds.list.length ≤ 4
  serve : s.catchUp.serve.length ≤ 4 → t.catchUp.serve.length ≤ 4
  queries : s.rep.queries.length ≤ t.rep.queries.length
  queriesBound : s.rep.queries.length ≤ 4 → t.rep.queries.length ≤ 4
  notes : NotesPlaced s → NotesPlaced t

/-- The queue and the admissions emptied with no entry left on the bus (R20): a start event or a zeroisation. -/
structure Emptied (s t : State) : Prop where
  queue : t.link.queue = []
  admissions : t.link.admissions = []
  nextAge : t.link.nextAge = s.link.nextAge
  bus : t.link.bus = .idle ∨ t.link.bus = busAfterErasure s.link.bus
  custody : t.rounds.queue = []
  list : t.rounds.list = []
  serve : t.catchUp.serve = []
  queries : t.rep.queries.length ≤ s.rep.queries.length
  notes : t.lines.locals = LineTable.empty.locals

/-- One move: what operations are made of, as far as the transmit queue goes. -/
inductive Move (s : State) : State → Prop
  | aside {t : State} : Aside s t → Move s t
  | place {f : TxFrame} : isQueryReport f = false → classFits s.link.queue (txClass f) = true → Move s (placeFrame f s)
  | pend {f : TxFrame} : isQueryReport f = false →
      Move s { s with link := { s.link with admissions := s.link.admissions ++ [f] } }
  | promote {i : Nat} {f : TxFrame} : s.link.admissions[i]? = some f → classFits s.link.queue (txClass f) = true →
      Move s (placeFrame f { s with link := { s.link with admissions := s.link.admissions.eraseIdx i } })
  | withdraw (p : TxFrame → Bool) : Move s { s with link := withdrawLink s.link p }
  | drop (p : TxFrame → Bool) : Move s (dropPending p s)
  | relabel {g : TxFrame → TxFrame} : (∀ f, txClass (g f) = txClass f) →
      Move s { s with link := { s.link with queue := s.link.queue.map (fun e => { e with frame := g e.frame }) } }
  | askReport {q : Query} {rest : List Query} : s.rep.queries = q :: rest → hasPending s isQueryReport = false →
      Move s (request (.queryReport q) s)
  | unanswered {q : Query} {rest : List Query} : s.rep.queries = q :: rest → hasPending s isQueryReport = false →
      Move s { s with rep := { s.rep with queries := rest } }
  | purge : Move s (purge s)
  | empty {t : State} : Emptied s t → Move s t

/-- Any number of moves, one after another. -/
def Moves : State → State → Prop := Relation.ReflTransGen Move

theorem Moves.refl (s : State) : Moves s s := Relation.ReflTransGen.refl

theorem Move.moves {s t : State} (h : Move s t) : Moves s t := Relation.ReflTransGen.single h

theorem Aside.moves {s t : State} (h : Aside s t) : Moves s t := (Move.aside h).moves

theorem Moves.trans {s t u : State} (a : Moves s t) (b : Moves t u) : Moves s u := Relation.ReflTransGen.trans a b

theorem Moves.ite {s t u : State} {q : Prop} [Decidable q] (a : q → Moves s t) (b : ¬q → Moves s u) :
    Moves s (if q then t else u) := by
  split
  · exact a ‹_›
  · exact b ‹_›

theorem Moves.foldl {α : Type} {f : State → α → State} (hf : ∀ s x, Moves s (f s x)) (l : List α) (s : State) :
    Moves s (l.foldl f s) := by
  induction l generalizing s with
  | nil => exact Moves.refl s
  | cons x l ih => exact (hf s x).trans (ih _)

/-- A property that each move keeps is kept by any number of them. -/
theorem Moves.keeps {I : State → Prop} (hI : ∀ {s t}, Move s t → I s → I t) {s t : State} (h : Moves s t) (hs : I s) : I t := by
  induction h with
  | refl => exact hs
  | tail _ hm ih => exact hI hm ih

/-! ## What a move does to the queue -/

/-- No entry of the queue stands on the bus. -/
def NoEntryOnBus (l : Link) : Prop := contendingAge l = none ∧ sendingAge l = none

/-- What a move can do to the queue: entries leave, none of them from the bus, and those that stay keep age and class; or one
frame that fits enters at the end. -/
inductive QueueChange (s t : State) : Prop
  | thins (q : List TxEntry) (g : TxEntry → TxEntry) (sub : q.Sublist s.link.queue) (age : ∀ e, (g e).age = e.age)
      (cls : ∀ e, txClass (g e).frame = txClass e.frame) (queue : t.link.queue = q.map g)
      (next : t.link.nextAge = s.link.nextAge)
      (bus : NoEntryOnBus t.link ∨ t.link.bus = s.link.bus ∧ ∀ e ∈ s.link.queue, isWaiting s.link e = false → e ∈ q)
  | grows (f : TxFrame) (fits : classFits s.link.queue (txClass f) = true)
      (queue : t.link.queue = s.link.queue ++ [⟨s.link.nextAge, f, .none⟩]) (next : t.link.nextAge = s.link.nextAge + 1)
      (bus : t.link.bus = s.link.bus)

theorem QueueChange.same {s t : State} (h : Part.txQueue.same s t) (hb : t.link.bus = s.link.bus) : QueueChange s t := by
  obtain ⟨hq, -, hn⟩ := h
  exact .thins s.link.queue id (List.Sublist.refl _) (fun _ => rfl) (fun _ => rfl) (by simpa using hq) hn
    (.inr ⟨hb, fun _ h _ => h⟩)

theorem placeFrame_nextAge (f : TxFrame) (s : State) : (placeFrame f s).link.nextAge = s.link.nextAge + 1 := by
  unfold placeFrame; split <;> rfl

theorem placeFrame_bus (f : TxFrame) (s : State) : (placeFrame f s).link.bus = s.link.bus := by
  unfold placeFrame; split <;> rfl

/-- The frame that a queue takes has the class of the frame asked for: an ANSWER is formed, which leaves its kind (R168). -/
theorem placeFrame_entry (f : TxFrame) (s : State) : ∃ f', txClass f' = txClass f
    ∧ (placeFrame f s).link.queue = s.link.queue ++ [⟨s.link.nextAge, f', .none⟩] := by
  obtain ⟨f', hq, hf⟩ := placeFrame_queue f s
  refine ⟨f', ?_, hq⟩
  rcases hf with rfl | ⟨j, g, n, b, b', rfl, rfl⟩ <;> rfl

theorem QueueChange.placed {s s' : State} (f : TxFrame) (hq : s'.link.queue = s.link.queue)
    (hn : s'.link.nextAge = s.link.nextAge) (hb : s'.link.bus = s.link.bus)
    (fits : classFits s.link.queue (txClass f) = true) : QueueChange s (placeFrame f s') := by
  obtain ⟨f', hc, he⟩ := placeFrame_entry f s'
  exact .grows f' (by rw [hc]; exact fits) (by rw [he, hq, hn]) (by rw [placeFrame_nextAge, hn]) (by rw [placeFrame_bus, hb])

theorem holdEntry_age (l : Link) (q : TxFrame → Bool) (h : Hold) (e : TxEntry) : (holdEntry l q h e).age = e.age := by
  unfold holdEntry; split <;> rfl

/-- Entries that a withdrawal or a purge takes out are waiting ones, and what stays may take a held request (R18, R19). -/
theorem QueueChange.withdrawn {s t : State} (p r : TxFrame → Bool) (h : Hold)
    (hq : t.link.queue = (s.link.queue.filter (fun e => !(p e.frame && isWaiting s.link e))).map (holdEntry s.link r h))
    (hn : t.link.nextAge = s.link.nextAge) (hb : t.link.bus = s.link.bus) : QueueChange s t :=
  .thins _ _ List.filter_sublist (holdEntry_age _ r h) (fun e => by rw [holdEntry_frame]) hq hn
    (.inr ⟨hb, fun e he hw => List.mem_filter.mpr ⟨he, by simp [hw]⟩⟩)

theorem dropPendingQuery_link (s : State) : (dropPendingQuery s).link = s.link := by
  unfold dropPendingQuery; split <;> rfl

theorem purge_link (s : State) : (purge s).link = { s.link with
    admissions := []
    queue := (s.link.queue.filter (fun e => !isWaiting s.link e)).map (holdEntry s.link (fun _ => true) .purge) } := by
  unfold purge
  dsimp only
  rw [dropPendingQuery_link]

theorem noEntryOnBus_of_emptied {s t : State} (h : Emptied s t) : NoEntryOnBus t.link := by
  unfold NoEntryOnBus contendingAge sendingAge
  rcases h.bus with hb | hb
  · simp [hb]
  · rw [hb]
    rcases s.link.bus with _ | (_ | _ | _) | ⟨_ | _ | _, d, f⟩ <;> simp [busAfterErasure]

theorem Move.queueChange {s t : State} (h : Move s t) : QueueChange s t := by
  cases h with
  | aside h => exact .same h.txQueue h.bus
  | place _ fits => exact .placed _ rfl rfl rfl fits
  | pend _ =>
    exact .thins s.link.queue id (List.Sublist.refl _) (fun _ => rfl) (fun _ => rfl) (by simp) rfl (.inr ⟨rfl, fun _ h _ => h⟩)
  | promote _ fits => exact .placed _ rfl rfl rfl fits
  | withdraw p => exact .withdrawn p p .withdraw rfl rfl rfl
  | drop p =>
    exact .thins s.link.queue id (List.Sublist.refl _) (fun _ => rfl) (fun _ => rfl) (by simp) rfl (.inr ⟨rfl, fun _ h _ => h⟩)
  | @relabel g hg =>
    exact .thins s.link.queue (fun e => { e with frame := g e.frame }) (List.Sublist.refl _) (fun _ => rfl) (fun e => hg e.frame) rfl rfl (.inr ⟨rfl, fun _ h _ => h⟩)
  | askReport _ _ =>
    unfold request
    split
    · exact .placed _ rfl rfl rfl ‹_›
    · exact .thins s.link.queue id (List.Sublist.refl _) (fun _ => rfl) (fun _ => rfl) (by simp) rfl
        (.inr ⟨rfl, fun _ h _ => h⟩)
  | unanswered _ _ => exact .same ⟨rfl, rfl, rfl⟩ rfl
  | purge =>
    have e := purge_link s
    exact .withdrawn (fun _ => true) (fun _ => true) .purge (by rw [e]; simp) (by rw [e]) (by rw [e])
  | empty h =>
    exact .thins [] id (List.nil_sublist _) (fun _ => rfl) (fun _ => rfl) (by simp [h.queue]) h.nextAge
      (.inl (noEntryOnBus_of_emptied h))

/-! ## What every move keeps -/

theorem classFits_iff (q : List TxEntry) (c : Nat) :
    classFits q c = true ↔ q.length < 16 ∧ (c = 3 → (q.filter (fun e => txClass e.frame == 3)).length < 12) := by
  unfold classFits Config.queueEntries Config.class3Limit
  by_cases h : c = 3 <;> simp [h]

theorem Move.keeps_bounded {s t : State} (h : Move s t) (hs : QueueBounded s) : QueueBounded t := by
  unfold QueueBounded at hs ⊢
  cases h.queueChange with
  | thins q g sub age cls queue next bus =>
    have h3 : ((fun e : TxEntry => txClass e.frame == 3) ∘ g) = fun e => txClass e.frame == 3 :=
      funext fun e => by simp [cls e]
    rw [queue, List.filter_map, List.length_map, List.length_map, h3]
    exact ⟨sub.length_le.trans hs.1, (sub.filter _).length_le.trans hs.2⟩
  | grows f fits queue next bus =>
    obtain ⟨h16, h12⟩ := (classFits_iff _ _).mp fits
    rw [queue, List.filter_append, List.length_append, List.length_append]
    by_cases h3 : txClass f = 3
    · have := h12 h3
      simp [h3]; omega
    · simp [h3]; omega

theorem Move.keeps_ordered {s t : State} (h : Move s t) (hs : QueueOrdered s) : QueueOrdered t := by
  obtain ⟨hp, hn⟩ := hs
  cases h.queueChange with
  | thins q g sub age cls queue next bus =>
    have hage : (fun e : TxEntry => e.age) ∘ g = fun e => e.age := funext age
    refine ⟨?_, ?_⟩
    · rw [queue, List.map_map, hage]
      exact hp.sublist (sub.map _)
    · rw [queue, next]
      simp only [List.mem_map]
      rintro e ⟨x, hx, rfl⟩
      rw [age]; exact hn x (sub.mem hx)
  | grows f fits queue next bus =>
    refine ⟨?_, ?_⟩
    · rw [queue, List.map_append, List.pairwise_append]
      refine ⟨hp, by simp, ?_⟩
      simp only [List.mem_map, List.map_cons, List.map_nil, List.mem_singleton]
      rintro a ⟨e, he, rfl⟩ b rfl
      exact hn e he
    · rw [queue, next]
      simp only [List.mem_append, List.mem_singleton]
      rintro e (he | rfl)
      · exact (hn e he).trans (Nat.lt_succ_self _)
      · exact Nat.lt_succ_self _

theorem entryOf_ne_none_iff (l : Link) (age : Nat) : entryOf l age ≠ none ↔ ∃ e ∈ l.queue, e.age = age := by
  unfold entryOf
  simp [List.find?_eq_none]

theorem entryOf_eq_none_iff (l : Link) (age : Nat) : entryOf l age = none ↔ ∀ e ∈ l.queue, e.age ≠ age := by
  unfold entryOf
  simp [List.find?_eq_none]

/-- The bus names an entry exactly where one is contending or in transmission. -/
theorem busEntry_iff (l : Link) (age : Nat) :
    (l.bus = .contending (.entry age) ∨ ∃ d f, l.bus = .sending (.entry age) d f)
      ↔ contendingAge l = some age ∨ sendingAge l = some age := by
  unfold contendingAge sendingAge
  rcases hb : l.bus with _ | (_ | _ | _) | ⟨_ | _ | _, d, f⟩ <;> simp

theorem candidateQueued_iff (s : State) : CandidateQueued s
    ↔ ∀ age, contendingAge s.link = some age ∨ sendingAge s.link = some age → entryOf s.link age ≠ none := by
  unfold CandidateQueued
  simp only [busEntry_iff]

theorem NoEntryOnBus.candidateQueued {s : State} (h : NoEntryOnBus s.link) : CandidateQueued s := by
  rw [candidateQueued_iff]
  obtain ⟨h1, h2⟩ := h
  simp [h1, h2]

theorem contendingAge_of_bus {l m : Link} (h : m.bus = l.bus) : contendingAge m = contendingAge l := by
  unfold contendingAge; rw [h]

theorem sendingAge_of_bus {l m : Link} (h : m.bus = l.bus) : sendingAge m = sendingAge l := by
  unfold sendingAge; rw [h]

theorem Move.keeps_candidate {s t : State} (h : Move s t) (hs : CandidateQueued s) : CandidateQueued t := by
  cases h.queueChange with
  | thins q g sub age cls queue next bus =>
    rcases bus with hb | ⟨hb, hw⟩
    · exact hb.candidateQueued
    · rw [candidateQueued_iff] at hs ⊢
      rw [contendingAge_of_bus hb, sendingAge_of_bus hb]
      intro a ha
      obtain ⟨e, he, hea⟩ := (entryOf_ne_none_iff _ _).mp (hs a ha)
      have hwait : isWaiting s.link e = false := by
        unfold isWaiting
        rw [hea]
        rcases ha with ha | ha <;> simp [ha]
      exact (entryOf_ne_none_iff _ _).mpr ⟨g e, by rw [queue]; exact List.mem_map_of_mem (hw e he hwait), by rw [age, hea]⟩
  | grows f fits queue next bus =>
    rw [candidateQueued_iff] at hs ⊢
    rw [contendingAge_of_bus bus, sendingAge_of_bus bus]
    intro a ha
    obtain ⟨e, he, hea⟩ := (entryOf_ne_none_iff _ _).mp (hs a ha)
    exact (entryOf_ne_none_iff _ _).mpr ⟨e, by rw [queue]; exact List.mem_append_left _ he, hea⟩

/-- No entry has an age that was given before (R14). -/
def AgeGone (age : Nat) (s : State) : Prop := entryOf s.link age = none ∧ age < s.link.nextAge

theorem Move.keeps_ageGone {age : Nat} {s t : State} (h : Move s t) (hs : AgeGone age s) : AgeGone age t := by
  obtain ⟨ha, hn⟩ := hs
  rw [entryOf_eq_none_iff] at ha
  unfold AgeGone
  rw [entryOf_eq_none_iff]
  cases h.queueChange with
  | thins q g sub hage cls queue next bus =>
    refine ⟨?_, by rw [next]; exact hn⟩
    rw [queue]
    simp only [List.mem_map]
    rintro e ⟨x, hx, rfl⟩
    rw [hage]; exact ha x (sub.mem hx)
  | grows f fits queue next bus =>
    refine ⟨?_, by rw [next]; omega⟩
    rw [queue]
    simp only [List.mem_append, List.mem_singleton]
    rintro e (he | rfl)
    · exact ha e he
    · exact (Nat.ne_of_lt hn).symm

theorem Move.keeps_idle {s t : State} (h : Move s t) (hs : s.link.bus = .idle) : t.link.bus = .idle := by
  cases h with
  | aside h => rw [h.bus, hs]
  | place => rw [placeFrame_bus, hs]
  | promote => rw [placeFrame_bus]; exact hs
  | askReport =>
    unfold request
    split
    · rw [placeFrame_bus, hs]
    · exact hs
  | purge => rw [purge_link, hs]
  | empty h =>
    rcases h.bus with hb | hb
    · exact hb
    · rw [hb, hs]; rfl
  | _ => exact hs

end Sys2Proof.Machine


namespace Sys2Proof.Machine

theorem NotesPlaced.of_locals {s t : State} (hl : t.lines.locals = s.lines.locals) (hw : s.wirePlace ≤ t.wirePlace)
    (h : NotesPlaced s) : NotesPlaced t := by
  intro l p note hn
  unfold localAt at hn
  rw [hl] at hn
  exact (h l p note hn).trans hw

theorem NotesPlaced.of_sameBut {c : List Part} {s t : State} (h : SameBut c s t) (hl : Part.locals ∉ c)
    (hw : Part.wirePlace ∉ c) (hs : NotesPlaced s) : NotesPlaced t :=
  hs.of_locals (h .locals hl) (le_of_eq (h .wirePlace hw).symm)

theorem notesPlaced_of_empty {t : State} (h : t.lines.locals = LineTable.empty.locals) : NotesPlaced t := by
  intro l p note hn
  unfold localAt at hn
  rw [h] at hn
  simp [LineTable.empty, LocalPos.empty] at hn

theorem withdrawLink_sameBut (s : State) (p : TxFrame → Bool) :
    SameBut [.txQueue] s { s with link := withdrawLink s.link p } := queueUpdate_sameBut s _ _ _

/-- Every move but an emptying one changes at most what an admission may change, or stays aside. -/
theorem Move.keeps_notes {s t : State} (h : Move s t) (hs : NotesPlaced s) : NotesPlaced t := by
  have hq : ∀ {u : State}, SameBut admitting s u → NotesPlaced u := fun e => hs.of_sameBut e (by decide) (by decide)
  cases h with
  | aside h => exact h.notes hs
  | place => exact hq (placeFrame_sameBut _ s)
  | pend => exact hq (queueUpdate_admitting s _ _ _)
  | promote => exact hq ((queueUpdate_admitting s _ _ _).trans (placeFrame_sameBut _ _))
  | withdraw p => exact hq ((withdrawLink_sameBut s p).mono (by decide))
  | drop p => exact hq (dropPending_sameBut p s)
  | relabel => exact hq (queueUpdate_admitting s _ _ _)
  | askReport => exact hq (request_sameBut _ s)
  | unanswered => exact hs
  | purge => exact hq (purge_sameBut s)
  | empty h => exact notesPlaced_of_empty h.notes

/-- The pending REPORTs of queries. -/
def pendingReports (s : State) : Nat := (s.link.admissions.filter isQueryReport).length

theorem pendingReports_eq_zero {s : State} (h : hasPending s isQueryReport = false) : pendingReports s = 0 := by
  unfold hasPending at h
  unfold pendingReports
  simpa [List.filter_eq_nil_iff] using h

theorem placeFrame_queries_other {f : TxFrame} (h : isQueryReport f = false) (s : State) :
    (placeFrame f s).rep.queries = s.rep.queries := by
  unfold placeFrame
  split
  · rfl
  · cases h
  · rfl

theorem placeFrame_queries_report {f : TxFrame} (h : isQueryReport f = true) (s : State) :
    (placeFrame f s).rep.queries = s.rep.queries.drop 1 := by
  unfold isQueryReport at h
  split at h
  · rfl
  · cases h

/-- The capacities of a state that an admission's parts alone set apart from another. -/
theorem WithinCapacity.of_admitting {s t : State} (hs : WithinCapacity s) (h : SameBut admitting s t)
    (hq : t.rep.queries.length ≤ s.rep.queries.length) (hp : pendingReports t ≤ t.rep.queries.length) : WithinCapacity t := by
  obtain ⟨h1, h2, h3, h4, -⟩ := hs
  have e1 : t.rounds = s.rounds := h.rounds (by decide)
  have e2 : t.catchUp = s.catchUp := h.catchUp (by decide)
  exact ⟨by rw [e1]; exact h1, by rw [e1]; exact h2, by rw [e2]; exact h3, hq.trans h4, hp⟩

theorem filter_eraseIdx_length {α : Type} (p : α → Bool) (l : List α) (i : Nat) {x : α} (h : l[i]? = some x) :
    ((l.eraseIdx i).filter p).length + (if p x then 1 else 0) = (l.filter p).length := by
  obtain ⟨hi, rfl⟩ := List.getElem?_eq_some_iff.mp h
  have := ((List.getElem_cons_eraseIdx_perm hi).filter p).length_eq
  by_cases hp : p l[i] <;> simp_all

theorem Move.keeps_capacity {s t : State} (h : Move s t) (hs : WithinCapacity s) : WithinCapacity t := by
  have hr : pendingReports s ≤ s.rep.queries.length := hs.2.2.2.2
  cases h with
  | aside h =>
    obtain ⟨h1, h2, h3, h4, -⟩ := hs
    obtain ⟨-, ha, -⟩ := h.txQueue
    exact ⟨h.custody h1, h.list h2, h.serve h3, h.queriesBound h4, by rw [ha]; exact hr.trans h.queries⟩
  | place hf _ =>
    have e := placeFrame_queries_other hf s
    exact hs.of_admitting (placeFrame_sameBut _ s) (by rw [e])
      (by rw [e]; unfold pendingReports; rw [placeFrame_admissions]; exact hr)
  | @pend f hf =>
    exact hs.of_admitting (queueUpdate_admitting s _ _ _) (le_refl _)
      (by simpa [pendingReports, List.filter_append, hf] using hr)
  | @promote i f hi _ =>
    refine hs.of_admitting ((queueUpdate_admitting s _ _ _).trans (placeFrame_sameBut _ _)) ?_ ?_
    · by_cases hf : isQueryReport f = true
      · rw [placeFrame_queries_report hf]; simp
      · rw [placeFrame_queries_other (by simpa using hf)]
    · unfold pendingReports at hr ⊢
      rw [placeFrame_admissions]
      show ((s.link.admissions.eraseIdx i).filter isQueryReport).length ≤ _
      have he := filter_eraseIdx_length isQueryReport _ _ hi
      by_cases hf : isQueryReport f = true
      · rw [placeFrame_queries_report hf]; simp [hf] at he ⊢; omega
      · rw [placeFrame_queries_other (by simpa using hf)]; simp [hf] at he ⊢; omega
  | withdraw p =>
    exact hs.of_admitting ((withdrawLink_sameBut s p).mono (by decide)) (le_refl _)
      (((List.filter_sublist.filter _).length_le).trans hr)
  | drop p =>
    exact hs.of_admitting (dropPending_sameBut p s) (le_refl _) (((List.filter_sublist.filter _).length_le).trans hr)
  | relabel => exact hs.of_admitting (queueUpdate_admitting s _ _ _) (le_refl _) hr
  | @askReport q rest hq hn =>
    have h0 := pendingReports_eq_zero hn
    have hlen : 1 ≤ s.rep.queries.length := by rw [hq]; simp
    refine hs.of_admitting (request_sameBut _ s) ?_ ?_ <;> unfold request <;> split
    · rw [placeFrame_queries_report rfl]; simp
    · exact le_refl _
    · unfold pendingReports at h0 ⊢
      rw [placeFrame_admissions, h0]; exact Nat.zero_le _
    · show ((s.link.admissions ++ [TxFrame.queryReport q]).filter isQueryReport).length ≤ _
      unfold pendingReports at h0
      rw [List.filter_append, List.length_append, h0]
      exact hlen
  | @unanswered q rest hq hn =>
    obtain ⟨h1, h2, h3, h4, -⟩ := hs
    rw [hq] at h4
    exact ⟨h1, h2, h3, (Nat.le_succ _).trans h4, by
      have h0 := pendingReports_eq_zero hn
      unfold pendingReports at h0
      show (s.link.admissions.filter isQueryReport).length ≤ _
      rw [h0]; exact Nat.zero_le _⟩
  | purge =>
    refine hs.of_admitting (purge_sameBut s) ?_ ?_
    · show (dropPendingQuery s).rep.queries.length ≤ _
      unfold dropPendingQuery
      split <;> simp
    · unfold pendingReports
      rw [purge_link]; exact Nat.zero_le _
  | empty h =>
    obtain ⟨-, -, -, h4, -⟩ := hs
    exact ⟨by simp [h.custody], by simp [h.list], by simp [h.serve], h.queries.trans h4, by simp [h.admissions]⟩

end Sys2Proof.Machine


namespace Sys2Proof.Machine

/-! ## Changes that stay aside of the queue -/

/-- A change with a frame that spares queue and bus is a move: for each bounded list that the frame lets change, and for the posting
notes, its own reason why no bound is passed. -/
theorem SameBut.aside {c : List Part} {s t : State} (h : SameBut c s t)
    (hq : Part.txQueue ∉ c := by decide) (hb : Part.bus ∉ c := by decide)
    (custody : Part.custodyQueue ∈ c → s.rounds.queue.length ≤ 4 → t.rounds.queue.length ≤ 4 := by
      exact fun h => absurd h (by decide))
    (list : Part.roundList ∈ c → s.rounds.list.length ≤ 4 → t.rounds.list.length ≤ 4 := by
      exact fun h => absurd h (by decide))
    (serve : Part.serve ∈ c → s.catchUp.serve.length ≤ 4 → t.catchUp.serve.length ≤ 4 := by
      exact fun h => absurd h (by decide))
    (queries : Part.queries ∈ c → s.rep.queries.length ≤ t.rep.queries.length
      ∧ (s.rep.queries.length ≤ 4 → t.rep.queries.length ≤ 4) := by
      exact fun h => absurd h (by decide))
    (notes : Part.locals ∈ c ∨ Part.wirePlace ∈ c → NotesPlaced s → NotesPlaced t := by
      exact fun h => absurd h (by decide)) : Moves s t := by
  have hqs : s.rep.queries.length ≤ t.rep.queries.length ∧ (s.rep.queries.length ≤ 4 → t.rep.queries.length ≤ 4) := by
    by_cases m : Part.queries ∈ c
    · exact queries m
    · have e : t.rep.queries = s.rep.queries := h .queries m
      rw [e]; exact ⟨le_refl _, id⟩
  refine Aside.moves ⟨h .txQueue hq, h .bus hb, ?_, ?_, ?_, hqs.1, hqs.2, ?_⟩
  · by_cases m : Part.custodyQueue ∈ c
    · exact custody m
    · have e : t.rounds.queue = s.rounds.queue := h .custodyQueue m
      rw [e]; exact id
  · by_cases m : Part.roundList ∈ c
    · exact list m
    · have e : t.rounds.list = s.rounds.list := h .roundList m
      rw [e]; exact id
  · by_cases m : Part.serve ∈ c
    · exact serve m
    · have e : t.catchUp.serve = s.catchUp.serve := h .serve m
      rw [e]; exact id
  · by_cases m : Part.locals ∈ c ∨ Part.wirePlace ∈ c
    · exact notes m
    · exact NotesPlaced.of_sameBut h (fun x => m (.inl x)) (fun x => m (.inr x))

/-! ## The transmit queue -/

/-- A frame that no query waits for is asked for (R15). -/
theorem request_moves {f : TxFrame} (hf : isQueryReport f = false) (s : State) : Moves s (request f s) := by
  unfold request
  split
  · exact (Move.place hf ‹_›).moves
  · exact (Move.pend hf).moves

theorem nextAdmission_some {l : Link} {i : Nat} (h : nextAdmission l = some i) :
    ∃ f, l.admissions[i]? = some f ∧ classFits l.queue (txClass f) = true := by
  unfold nextAdmission at h
  obtain ⟨c, -, hc⟩ := List.exists_of_findSome?_eq_some h
  split at hc
  · obtain ⟨hi, hp, -⟩ := List.findIdx?_eq_some_iff_getElem.mp hc
    have hp' : txClass l.admissions[i] = c := by simpa using hp
    exact ⟨l.admissions[i], List.getElem?_eq_getElem hi, by rw [hp']; assumption⟩
  · cases hc

theorem fillLoop_moves (k : Nat) (s : State) : Moves s (fillLoop k s) := by
  induction k generalizing s with
  | zero => exact Moves.refl s
  | succ k ih =>
    unfold fillLoop
    split
    · exact Moves.refl s
    · rename_i i hi
      obtain ⟨g, hg, fits⟩ := nextAdmission_some hi
      rw [hg]
      exact (Move.promote hg fits).moves.trans (ih _)

theorem fillQueue_moves (s : State) : Moves s (fillQueue s) := fillLoop_moves _ s

theorem retract_moves (p : TxFrame → Bool) (s : State) : Moves s (retract p s) :=
  (Move.withdraw p).moves.trans (fillQueue_moves _)

theorem dropPending_moves (p : TxFrame → Bool) (s : State) : Moves s (dropPending p s) := (Move.drop p).moves

theorem purge_moves (s : State) : Moves s (purge s) := Move.purge.moves

/-! ## The end of a step -/

theorem returnClaims_moves (fs : List TxFrame) (s : State) : Moves s (returnClaims fs s) := (returnClaims_sameBut fs s).aside

theorem retractClaims_moves (p : TxFrame → Bool) (s : State) : Moves s (retractClaims p s) :=
  (retract_moves p s).trans (returnClaims_moves _ _)

theorem considerPosition_moves (s : State) (l : LineId) (p : PosId) : Moves s (considerPosition s l p) := by
  unfold considerPosition
  dsimp only
  split
  · exact Moves.refl s
  · split
    · refine (retractClaims_moves (isClaimFor (posRefOf (entryAt s l) p)) s).trans ?_
      exact Moves.ite (fun _ => Moves.ite (fun _ => Moves.refl _) (fun _ => request_moves rfl _)) (fun _ => retract_moves _ _)
    · refine (retract_moves (isDeclineFor (posRefOf (entryAt s l) p)) s).trans ?_
      split
      · exact Moves.refl _
      · rename_i note _
        split
        · have h := (grantClaim_sameBut (posRefOf (entryAt s l) p) (tget (entryAt s l).positions p) note
            (retract (isDeclineFor (posRefOf (entryAt s l) p)) s)).aside
          split <;> rename_i e <;> rw [e] at h
          · exact h.trans (request_moves rfl _)
          · exact h
        · exact Moves.refl _

theorem considerLoop_moves (k : Nat) (s : State) : Moves s (considerLoop k s) := by
  induction k generalizing s with
  | zero => exact (clearNotice_sameBut s).aside
  | succ k ih =>
    rw [considerLoop]
    refine Moves.ite (fun _ => (clearNotice_sameBut s).aside.trans (Moves.trans ?_ (ih _))) (fun _ => Moves.refl s)
    exact Moves.foldl (f := fun s (x : Nat × LineId × PosId) => considerPosition s x.2.1 x.2.2)
      (fun s x => considerPosition_moves s x.2.1 x.2.2) _ _

theorem considerPosted_moves (s : State) : Moves s (considerPosted s) :=
  Moves.ite (fun _ => considerLoop_moves _ s) (fun _ => (clearNotice_sameBut s).aside)

theorem setOwn_moves (s : State) (o : OwnRound) : Moves s (setOwn s o) := (setOwn_sameBut s o).aside

theorem freeQueuedArea_moves (x : CustodyItem) (s : State) : Moves s (freeQueuedArea x s) :=
  (freeQueuedArea_sameBut x s).aside

theorem endItem_moves (o : OrderOutcome) (detail : Byte) (v : Half) (q : Word) (s : State) :
    Moves s (endItem o detail v q s) := by
  unfold endItem
  split
  · exact setOwn_moves s _
  · rename_i item rest hq
    dsimp only
    refine (request_moves (f := outcomeReport item (ownRoundId s) o detail v q) rfl s).trans (Moves.trans ?_ (freeQueuedArea_moves item _))
    have hr : (request (outcomeReport item (ownRoundId s) o detail v q) s).rounds.queue = item :: rest := by
      rw [(request_sameBut _ s).rounds (by decide), hq]
    refine (queueAndOwn_sameBut _ rest _ _).aside (custody := fun _ h => ?_)
    rw [hr] at h
    exact (Nat.le_succ _).trans h

theorem addItem_moves (x : CustodyItem) {s : State} (h : s.rounds.queue.length < 4) : Moves s (addItem x s) :=
  (addItem_sameBut x s).aside (custody := fun _ _ => by simpa [addItem] using h)

theorem takeRoom_moves (s : State) : Moves s (takeRoom s) := by
  unfold takeRoom
  split
  · rename_i hlen
    split
    · exact Moves.refl s
    · exact (areas_sameBut s _).aside.trans (addItem_moves _ hlen)
  · exact Moves.refl s

theorem proposeItem_moves (x : CustodyItem) (s : State) : Moves s (proposeItem x s) := by
  unfold proposeItem
  refine Moves.trans ?_ (request_moves rfl _)
  exact (queueAndOwn_sameBut s s.rounds.queue _ _).aside (custody := fun _ h => h)

theorem admissionCheck_moves (s : State) : Moves s (admissionCheck s) := by
  unfold admissionCheck
  split
  · refine Moves.ite (fun _ => ?_) (fun _ => Moves.refl s)
    split
    · exact endItem_moves _ _ _ _ s
    · exact proposeItem_moves _ s
  · exact Moves.refl s

theorem custodyLoop_moves (k : Nat) (s : State) : Moves s (custodyLoop k s) := by
  induction k generalizing s with
  | zero => exact Moves.refl s
  | succ k ih =>
    exact (((takeRoom_moves s).trans (takeRoom_moves _)).trans (admissionCheck_moves _)).trans (ih _)

theorem serveQueriesLoop_moves (k : Nat) (s : State) : Moves s (serveQueriesLoop k s) := by
  induction k generalizing s with
  | zero => exact Moves.refl s
  | succ k ih =>
    unfold serveQueriesLoop
    split
    · exact Moves.refl s
    · rename_i q rest hq
      refine Moves.ite (fun _ => Moves.refl s) (fun hn => ?_)
      have hn' : hasPending s isQueryReport = false := by simpa using hn
      exact Moves.ite (fun _ => (Move.askReport hq hn').moves.trans (ih _))
        (fun _ => (Move.unanswered hq hn').moves.trans (ih _))

/-- The end of a step is made of moves of the queue. -/
theorem settle_moves (s : State) : Moves s (settle s) :=
  ((custodyLoop_moves 8 s).trans (considerPosted_moves _)).trans (serveQueriesLoop_moves _ _)

/-! ## The engine and the pool -/

theorem produceSegment_moves (d : DescId) (s : State) (n : Nat) : Moves s (produceSegment d s n) :=
  (setSegmentPhase_sameBut s d n .pending).aside.trans (request_moves rfl _)

theorem closeSegment_moves (s : State) (d : DescId) : Moves s (closeSegment s d) := by
  unfold closeSegment
  split
  · exact Moves.refl s
  · exact Moves.ite (fun _ => (setSegmentPhase_sameBut s d _ _).aside) (fun _ => produceSegment_moves d s _)

theorem jobEnded_moves (s : State) (d : DescId) : Moves s (jobEnded s d) := by
  unfold jobEnded
  refine Moves.trans ?_ (streamReturn_sameBut _ d).aside
  refine Moves.trans ?_ (request_moves rfl _)
  exact (closeSegment_moves s d).trans (Moves.foldl (produceSegment_moves d) _ _)

theorem closeIfFull_moves (s : State) (d : DescId) : Moves s (closeIfFull s d) := by
  unfold closeIfFull
  split
  · exact Moves.ite (fun _ => closeSegment_moves s d) (fun _ => Moves.refl s)
  · exact Moves.refl s

theorem endCurrent_moves (st : JobStatus) (s : State) (d : DescId) : Moves s (endCurrent st s d) := by
  unfold endCurrent
  exact (((writeBack_sameBut s d).aside.trans (modDesc_sameBut _ d _).aside).trans (withPool_sameBut _ _).aside).trans
    (jobEnded_moves _ d)

theorem earlyClose_moves (s : State) (d : DescId) (v : Half) : Moves s (earlyClose s d v) := by
  unfold earlyClose
  split
  · exact Moves.ite (fun _ => closeSegment_moves s d) (fun _ => Moves.refl s)
  · exact Moves.refl s

theorem cardStart_moves (s : State) (d : DescId) : Moves s (cardStart s d) := by
  unfold cardStart
  split
  · exact (returnUnbegun_sameBut s d _).aside.trans (endCurrent_moves _ _ d)
  · exact (earlyClose_moves s d _).trans (setEngine_sameBut _ _ _).aside

theorem startNext_moves {s t : State} (h : startNext s = some t) : Moves s t := by
  have hl : ∀ d, Moves s (cardStart (loadJob s d) d) := fun d => (loadJob_sameBut s d).aside.trans (cardStart_moves _ d)
  unfold startNext at h
  split at h <;> cases h
  · exact cardStart_moves s _
  · exact hl _
  · exact hl _

theorem takeWork_moves (k : Nat) (s : State) : Moves s (takeWork k s) := by
  induction k generalizing s with
  | zero => exact Moves.refl s
  | succ k ih =>
    unfold takeWork
    split
    · exact Moves.refl s
    · rename_i t ht
      exact Moves.ite (fun _ => startNext_moves ht) (fun _ => (startNext_moves ht).trans (ih t))

theorem engineWork_moves (s : State) : Moves s (engineWork s) := takeWork_moves 49 s

theorem workArrived_moves (s : State) : Moves s (workArrived s) :=
  Moves.ite (fun _ => engineWork_moves s) (fun _ => Moves.refl s)

theorem endLoading_moves (st : JobStatus) (s : State) (d : DescId) : Moves s (endLoading st s d) := by
  unfold endLoading
  refine Moves.trans ?_ (resourcesFreed_sameBut _).aside
  refine Moves.trans ?_ (jobEnded_moves _ d)
  exact ((releaseStorage_sameBut s d).aside.trans (modDesc_sameBut _ d _).aside).trans (withPool_sameBut _ _).aside

theorem endWaiting_moves (s : State) (d : DescId) : Moves s (endWaiting s d) := by
  unfold endWaiting
  refine Moves.trans ?_ (jobEnded_moves _ d)
  exact (modDesc_sameBut s d _).aside.trans (withPool_sameBut _ _).aside

theorem cancelJob_moves (pos : PosRef) (s : State) : Moves s (cancelJob pos s) := by
  unfold cancelJob
  split
  · exact Moves.refl s
  · exact Moves.ite (fun _ => endLoading_moves _ s _) fun _ => Moves.ite (fun _ => endWaiting_moves s _) fun _ =>
      Moves.ite (fun _ => (returnUnbegun_sameBut s _ _).aside.trans (endWaiting_moves _ _)) fun _ =>
        Moves.ite (fun _ => (modDesc_sameBut s _ _).aside) (fun _ => Moves.refl s)

theorem claimWon_moves (pos : PosRef) (s : State) : Moves s (claimWon pos s) := by
  unfold claimWon
  split
  · exact Moves.refl s
  · dsimp only
    split
    · refine Moves.trans ?_ (workArrived_moves _)
      exact (modDesc_sameBut s _ _).aside.trans (withPool_sameBut _ _).aside
    · refine Moves.trans ?_ (modDesc_sameBut _ _ _).aside
      exact (modDesc_sameBut s _ _).aside.trans (withPool_sameBut _ _).aside

theorem intakeDone_moves (s : State) (d : DescId) : Moves s (intakeDone s d) := by
  unfold intakeDone
  refine Moves.trans ?_ (workArrived_moves _)
  exact (modDesc_sameBut s d _).aside.trans (withPool_sameBut _ _).aside

theorem takeCards_moves (pos : PosRef) (g : Byte) (r : List CardRecord) (s : State) : Moves s (takeCards pos g r s) := by
  unfold takeCards
  split
  · exact Moves.refl s
  · exact Moves.ite (fun _ => (takeGroup_sameBut s _ r).aside.trans
      (Moves.ite (fun _ => intakeDone_moves _ _) (fun _ => Moves.refl _))) (fun _ => endLoading_moves _ s _)

theorem txClass_orphanFrame (d : DescId) (f : TxFrame) : txClass (orphanFrame d f) = txClass f := by
  unfold orphanFrame; split <;> rfl

theorem orphanJob_moves (s : State) (d : DescId) : Moves s (orphanJob s d) := (Move.relabel (txClass_orphanFrame d)).moves

theorem leaveTornDown_moves (s : State) (d : DescId) : Moves s (leaveTornDown s d) := by
  unfold leaveTornDown
  refine Moves.trans ?_ (freeDescriptor_sameBut _ d).aside
  refine Moves.trans ?_ (modClearing_sameBut _ _ _ _).aside
  exact ((dropPending_moves _ s).trans (dropPending_moves _ _)).trans (orphanJob_moves _ d)

theorem flushClearing_moves (s : State) : Moves s (flushClearing s) :=
  (withPool_sameBut s _).aside.trans (Moves.foldl (fun s _ => request_moves rfl s) _ _)

theorem markOutstanding_moves (s : State) (x : Descriptor) (d : DescId) : Moves s (markOutstanding s x d) :=
  (markOutstanding_sameBut s x d).aside

theorem tearDownJob_moves (s : State) (d : DescId) : Moves s (tearDownJob s d) := by
  unfold tearDownJob
  refine Moves.ite (fun _ => leaveTornDown_moves s d) fun _ => Moves.ite (fun _ => markOutstanding_moves s _ d) fun _ =>
    Moves.ite (fun _ => ?_) (fun _ => Moves.refl s)
  exact (Moves.ite (fun _ => retract_moves (isFinalOf d) s) (fun _ => Moves.refl s)).trans
    (Moves.ite (fun _ => markOutstanding_moves _ _ d) (fun _ => leaveTornDown_moves _ d))

theorem tearDown_moves (g l : Byte) (s : State) : Moves s (tearDown g l s) :=
  ((withPool_sameBut s _).aside.trans (Moves.foldl tearDownJob_moves _ _)).trans (flushClearing_moves _)

theorem finalWithdrawn_moves (job : Option DescId) (s : State) : Moves s (finalWithdrawn job s) := by
  unfold finalWithdrawn
  split
  · exact Moves.refl s
  · exact ((settleOutstanding_sameBut s _).aside.trans (leaveTornDown_moves _ _)).trans (flushClearing_moves _)

theorem handBack_moves (s : State) (d : DescId) : Moves s (handBack s d) :=
  (((writeBack_sameBut s d).aside.trans (settleOutstanding_sameBut _ _).aside).trans (leaveTornDown_moves _ d)).trans
    (flushClearing_moves _)

theorem cardBoundary_moves (s : State) (d : DescId) : Moves s (cardBoundary s d) :=
  Moves.ite (fun _ => (handBack_moves s d).trans (engineWork_moves _)) fun _ =>
    Moves.ite (fun _ => (endCurrent_moves _ s d).trans (engineWork_moves _)) fun _ =>
      Moves.ite (fun _ => (endCurrent_moves _ s d).trans (engineWork_moves _)) fun _ =>
        Moves.ite (fun _ => (preempt_sameBut s d).aside.trans (engineWork_moves _)) (fun _ => engineWork_moves s)

theorem completeCard_moves (s : State) : Moves s (completeCard s) := by
  unfold completeCard
  split
  · rename_i d r _ _
    dsimp only
    refine Moves.trans ?_ (cardBoundary_moves _ d)
    refine Moves.trans ?_ (closeIfFull_moves _ d)
    exact ((writeResult_sameBut s d _ r).aside.trans (setEngine_sameBut _ _ _).aside).trans (joinSegment_sameBut _ d _).aside
  · exact Moves.refl s

theorem finalSent_moves (job : Option DescId) (g : Node) (m : NodeMap) (s : State) : Moves s (finalSent job g m s) := by
  unfold finalSent
  refine (countUndelivered_sameBut s g m).aside.trans ?_
  split
  · exact Moves.refl _
  · exact ((Moves.ite (fun _ => (settleOutstanding_sameBut _ _).aside) (fun _ => Moves.refl _)).trans
      (freeDescriptor_sameBut _ _).aside).trans (flushClearing_moves _)

theorem txClass_orphanAll (f : TxFrame) : txClass (orphanAll f) = txClass f := by
  unfold orphanAll; split <;> rfl

theorem dropJobs_moves (s : State) : Moves s (dropJobs s) :=
  ((abandonEngine_sameBut s).aside.trans (dropAllJobs_sameBut _).aside).trans (Move.relabel txClass_orphanAll).moves

/-! ## Leaving -/

theorem stopServing_moves (s : State) : Moves s (stopServing s) :=
  ((serve_sameBut s []).aside (serve := fun _ _ => by simp)).trans (retract_moves _ _)

theorem withdrawPropose_moves (s : State) : Moves s (withdrawPropose s) :=
  Moves.ite (fun _ => (retract_moves _ s).trans
    (Moves.ite (fun _ => Moves.refl _) (fun _ => setOwn_moves _ _))) (fun _ => Moves.refl s)

theorem selfExpel_moves (r : ExpelReason) (s : State) : Moves s (selfExpel r s) :=
  Moves.ite (fun _ => ((((leaving_sameBut s).aside.trans (request_moves rfl _)).trans (retractClaims_moves _ _)).trans
    ((withdrawPropose_moves _).trans (retract_moves _ _))).trans (stopServing_moves _)) (fun _ => Moves.refl s)

end Sys2Proof.Machine


namespace Sys2Proof.Machine

/-- A change of blocks that no move looks at. -/
theorem moves_of_eq {s t : State} (hq : Part.txQueue.same s t) (hb : t.link.bus = s.link.bus) (hr : t.rounds = s.rounds)
    (hs : t.catchUp.serve = s.catchUp.serve) (hp : t.rep.queries = s.rep.queries) (hl : t.lines.locals = s.lines.locals)
    (hw : t.wirePlace = s.wirePlace) : Moves s t :=
  Aside.moves ⟨hq, hb, by rw [hr]; exact id, by rw [hr]; exact id, by rw [hs]; exact id, by rw [hp], by rw [hp]; exact id,
    fun h => h.of_locals hl (le_of_eq hw.symm)⟩

/-! ## Line table -/

theorem setEntry_moves (s : State) (l : LineId) (e : LineEntry) : Moves s (setEntry s l e) := (setEntry_sameBut s l e).aside

/-- A position's local state that keeps no note of a later place. -/
theorem setLocal_moves (s : State) (l : LineId) (p : PosId) (x : LocalPos)
    (h : ∀ n, x.note = some n → NotesPlaced s → n.place ≤ s.wirePlace) : Moves s (setLocal s l p x) := by
  refine (setLocal_sameBut s l p x).aside (notes := fun _ hs k q note hn => ?_)
  rw [localAt_setLocal] at hn
  split at hn
  · exact h note hn hs
  · exact hs k q note hn

theorem clearLocal_moves (s : State) (l : LineId) (p : PosId) : Moves s (setLocal s l p LocalPos.empty) :=
  setLocal_moves s l p _ (fun _ h => by cases h)

/-- A position's timers change, its note stays. -/
theorem retime_moves (s : State) (l : LineId) (p : PosId) (d u : TimerState) :
    Moves s (setLocal s l p { localAt s l p with deferral := d, deadline := u }) :=
  setLocal_moves s l p _ fun n hn hs => hs l p n hn

theorem freeLine_moves (s : State) (l : LineId) : Moves s (freeLine s l) := by
  refine (freeLine_sameBut s l).aside (notes := fun _ hs k q note hn => ?_)
  unfold localAt freeLine at hn
  by_cases hk : k = l
  · subst hk; simp [LocalPos.empty] at hn
  · rw [tget_tset_of_ne _ _ hk] at hn
    exact hs k q note hn

theorem giveNotice_moves (s : State) : Moves s (giveNotice s) := (giveNotice_sameBut s).aside

theorem settlePosted_moves (s : State) (l : LineId) (p : PosId) (b : SettledBy) (r : DoneReason) :
    Moves s (settlePosted s l p b r) := by
  unfold settlePosted
  refine Moves.trans ?_ (retractClaims_moves _ _)
  exact (setEntry_moves s l _).trans (clearLocal_moves _ l p)

theorem settleFrame_moves (pos : PosRef) (b : SettledBy) (r : DoneReason) (s : State) : Moves s (settleFrame pos b r s) := by
  unfold settleFrame
  split
  · exact Moves.refl s
  · exact Moves.ite (fun _ => settlePosted_moves s _ _ _ _) (fun _ => Moves.refl s)

theorem claimLost_moves (src : Node) (pos : PosRef) (s : State) : Moves s (claimLost src pos s) :=
  (claimLost_sameBut src pos s).aside

theorem claimTaken_moves (src : Node) (l : LineId) (p : PosId) (m : SlotId) (s : State) : Moves s (claimTaken src l p m s) := by
  unfold claimTaken
  refine Moves.trans ?_ (giveNotice_moves _)
  refine Moves.trans ?_ (retractClaims_moves _ _)
  refine Moves.trans ?_ (Moves.ite (fun _ => claimWon_moves _ _) (fun _ => Moves.refl _))
  exact ((reserve_sameBut s _ _).aside.trans (setEntry_moves _ l _)).trans (clearLocal_moves _ l p)

theorem claimOverrun_moves (src : Node) (l : LineId) (p : PosId) (s : State) : Moves s (claimOverrun src l p s) := by
  unfold claimOverrun
  refine Moves.trans ?_ (selfExpel_moves _ _)
  exact (settlePosted_moves s l p _ _).trans (claimLost_moves _ _ _)

theorem onClaim_moves (h : Header) (b : ClaimBody) (s : State) : Moves s (onClaim h b s) := by
  have hl := claimLost_moves h.src b.pos s
  unfold onClaim
  split
  · exact hl
  · refine Moves.ite (fun _ => hl) fun _ => Moves.ite (fun _ => hl) fun _ => Moves.ite (fun _ => hl) fun _ => ?_
    split
    · exact hl
    · exact Moves.ite (fun _ => claimTaken_moves _ _ _ _ s) (fun _ => claimOverrun_moves _ _ _ s)

theorem onDecline_moves (pos : PosRef) (r : Byte) (s : State) : Moves s (onDecline pos r s) :=
  Moves.ite (fun _ => settleFrame_moves pos _ _ s) (fun _ => Moves.refl s)

theorem onCancel_moves (h : Header) (line position : Byte) (s : State) : Moves s (onCancel h line position s) := by
  unfold onCancel
  dsimp only
  split
  · exact Moves.refl s
  · exact Moves.ite (fun _ => settlePosted_moves s _ _ _ _) fun _ =>
      Moves.ite (fun _ => cancelJob_moves _ s) (fun _ => Moves.refl s)

theorem dutyReport_moves (g : Node) (body : List Byte) (s : State) : Moves s (dutyReport g body s) :=
  Moves.ite (fun _ => request_moves rfl s) (fun _ => Moves.refl s)

theorem onOpen_moves (h : Header) (line : Byte) (s : State) : Moves s (onOpen h line s) := by
  unfold onOpen
  refine Moves.ite (fun _ => Moves.refl s) fun _ => ?_
  split
  · exact Moves.ite (fun _ => dutyReport_moves _ _ s) (fun _ => dutyReport_moves _ _ s)
  · split
    · exact dutyReport_moves _ _ s
    · exact ((freeLine_moves s _).trans (setEntry_moves _ _ _)).trans (dutyReport_moves _ _ _)

theorem postJob_moves (s : State) (l : LineId) (x : Position) (g p : Byte) (c : Option CardRecord) :
    Moves s (postJob s l x g p c) := by
  unfold postJob
  refine Moves.trans ?_ (giveNotice_moves _)
  refine (setEntry_moves s l _).trans (setLocal_moves _ l _ _ fun n hn _ => ?_)
  cases hn
  exact le_refl _

theorem post_moves (h : Header) (line position : Byte) (x : Position) (g p : Byte) (c : Option CardRecord) (s : State) :
    Moves s (post h line position x g p c s) := by
  unfold post
  split
  · exact dutyReport_moves _ _ s
  · exact postJob_moves s _ _ _ _ _

theorem onCards_moves (h : Header) (b : CardsBody) (s : State) : Moves s (onCards h b s) :=
  Moves.ite (fun _ => takeCards_moves _ _ _ s) (fun _ => Moves.refl s)

theorem onFinal_moves (h : Header) (b : FinalBody) (s : State) : Moves s (onFinal h b s) := (onFinal_sameBut h b s).aside

theorem closeLine_moves (g line : Byte) (s : State) : Moves s (closeLine g line s) := by
  unfold closeLine
  split
  · exact Moves.refl s
  · dsimp only
    refine Moves.ite (fun _ => ?_) (fun _ => Moves.refl s)
    refine Moves.trans ?_ (Moves.ite (fun _ => freeLine_moves _ _) fun _ =>
      Moves.ite (fun _ => tearDown_moves _ _ _) (fun _ => Moves.refl _))
    exact (setEntry_moves s _ _).trans
      (Moves.foldl (fun s p => (clearLocal_moves s _ p).trans (retractClaims_moves _ _)) _ _)

theorem onClose_moves (h : Header) (b : CloseBody) (s : State) : Moves s (onClose h b s) := by
  unfold onClose
  split
  · exact closeLine_moves _ _ s
  · exact Moves.ite (fun _ => closeLine_moves _ _ s) (fun _ => Moves.refl s)

theorem onCleared_moves (h : Header) (b : ClearedBody) (s : State) : Moves s (onCleared h b s) := by
  unfold onCleared
  split
  · exact Moves.refl s
  · rename_i l _
    dsimp only
    refine Moves.ite (fun _ => ?_) (fun _ => Moves.refl s)
    refine Moves.trans ?_ (giveNotice_moves _)
    refine Moves.trans ?_ (Moves.ite (fun _ => freeLine_moves _ l) (fun _ => setEntry_moves _ l _))
    exact (Moves.foldl (fun s c => (clearListed_sameBut h.src l s c).aside) b.entries s).trans
      (Moves.foldl (fun s p => (clearPosition_sameBut h.src l s p 0).aside) (List.finRange 16) _)

theorem expelFromLine_moves (k : StationId) (s : State) (l : LineId) : Moves s (expelFromLine k s l) := by
  unfold expelFromLine
  dsimp only
  refine Moves.ite (fun _ => Moves.refl s) fun _ => ?_
  refine Moves.trans ?_ (Moves.ite (fun _ => freeLine_moves _ l) (fun _ => setEntry_moves _ l _))
  exact Moves.foldl (fun s p => (losePosition_sameBut k l s p).aside) (List.finRange 16) s

theorem expelFromLines_moves (k : StationId) (s : State) : Moves s (expelFromLines k s) :=
  (Moves.foldl (expelFromLine_moves k) _ s).trans (giveNotice_moves _)

theorem deferralExpired_moves (l : LineId) (p : PosId) (s : State) : Moves s (deferralExpired l p s) :=
  Moves.ite (fun _ => (retime_moves s l p _ _).trans (giveNotice_moves _)) (fun _ => Moves.refl s)

theorem queueUnclaimed_moves (pos : PosRef) (s : State) : Moves s (queueUnclaimed pos s) :=
  Moves.ite (fun _ => Moves.refl s) (fun _ => request_moves rfl s)

theorem unclaimedExpired_moves (l : LineId) (p : PosId) (s : State) : Moves s (unclaimedExpired l p s) :=
  Moves.ite (fun _ => Moves.ite
    (fun _ => (retime_moves s l p _ _).trans (queueUnclaimed_moves _ _)) (fun _ => retime_moves s l p _ _)) (fun _ => Moves.refl s)

theorem closeForSilence_moves (g : Node) (s : State) : Moves s (closeForSilence g s) :=
  Moves.foldl (fun s _ => Moves.ite (fun _ => request_moves rfl s) (fun _ => Moves.refl s)) _ s

theorem setWatch_moves (s : State) (g : Node) (t : TimerState) : Moves s (setWatch s g t) := (setWatch_sameBut s g t).aside

theorem gatewayExpired_moves (g : Node) (s : State) : Moves s (gatewayExpired g s) :=
  Moves.ite (fun _ => Moves.ite (fun _ => (setWatch_moves s g _).trans (closeForSilence_moves g _))
    (fun _ => setWatch_moves s g _)) (fun _ => Moves.refl s)

theorem noteGateway_moves (h : Header) (s : State) : Moves s (noteGateway h s) :=
  Moves.ite (fun _ => (setWatch_moves s _ _).trans (retract_moves _ _)) (fun _ => Moves.refl s)

theorem lineDutyGained_moves (s : State) : Moves s (lineDutyGained s) := by
  unfold lineDutyGained
  dsimp only
  refine Moves.trans (Moves.foldl (fun s l => Moves.ite (fun _ => Moves.refl s) fun _ => ?_) _ s)
    (Moves.foldl (fun s g => Moves.ite (fun _ => closeForSilence_moves g s) (fun _ => Moves.refl s)) _ _)
  exact Moves.foldl (fun s p => Moves.ite (fun _ => queueUnclaimed_moves _ s) (fun _ => Moves.refl s)) _ s

/-- A position that an image has overwritten keeps the note that it had, or none (R124). -/
theorem imagedLocal_note {x y : Position} {loc : LocalPos} {n : PostingNote} (h : (imagedLocal x y loc).note = some n) :
    loc.note = some n := by
  unfold imagedLocal at h
  split at h
  · split at h
    · exact h
    · cases h
  · cases h

theorem imageLine_moves (s : State) (l : LineId) (e : LineEntry) : Moves s (imageLine s l e) := by
  unfold imageLine
  dsimp only
  refine Moves.trans ((imageTwo_sameBut s l e _).aside (notes := fun _ hs k q note hn => ?_))
    (Moves.ite (fun _ => Moves.refl _) (fun _ => setWatch_moves _ _ _))
  unfold localAt at hn
  by_cases hk : k = l
  · subst hk
    rw [tget_tset_self, tget_tableOf] at hn
    split at hn
    · cases hn
    · exact hs k _ note (imagedLocal_note hn)
  · rw [tget_tset_of_ne _ _ hk] at hn
    exact hs k q note hn

/-! ## Tamper, zeroisation and the start events -/

theorem zeroise_emptied (c : CauseRecord) (own : Option ZeroCause) (s : State) : Emptied s (zeroise c own s) := by
  have hl := dropPendingQuery_link s
  have hz : ∀ l : Link, (zeroiseLink own l).queue = l.queue ∧ (zeroiseLink own l).admissions = l.admissions
      ∧ (zeroiseLink own l).nextAge = l.nextAge ∧ (zeroiseLink own l).bus = busAfterErasure l.bus := by
    intro l
    unfold zeroiseLink loadAlarm
    dsimp only
    split
    · exact ⟨rfl, rfl, rfl, rfl⟩
    · split <;> exact ⟨rfl, rfl, rfl, rfl⟩
  obtain ⟨h1, h2, h3, h4⟩ := hz (eraseBlocks (emptyQueue s)).link
  refine ⟨h1, h2, h3.trans ?_, .inr (h4.trans ?_), rfl, rfl, rfl, ?_, rfl⟩
  · show (dropPendingQuery s).link.nextAge = _
    rw [hl]
  · show busAfterErasure (dropPendingQuery s).link.bus = _
    rw [hl]
  · show (dropPendingQuery s).rep.queries.length ≤ _
    unfold dropPendingQuery
    split <;> simp

theorem zeroise_moves (c : CauseRecord) (own : Option ZeroCause) (s : State) : Moves s (zeroise c own s) :=
  (Move.empty (zeroise_emptied c own s)).moves

theorem declareTamper_moves (ch : Channel) (s : State) : Moves s (declareTamper ch s) := by
  unfold declareTamper
  split
  case h_6 =>
    exact Aside.moves ⟨⟨rfl, rfl, rfl⟩, rfl, fun _ => by simp [eraseBlocks, RoundControl.empty],
      fun _ => by simp [eraseBlocks, RoundControl.empty], fun _ => by simp [eraseBlocks], le_refl _, id,
      fun _ => notesPlaced_of_empty rfl⟩
  all_goals first | exact zeroise_moves _ _ s | exact Moves.refl s

theorem tamper_moves (s : State) (t : Tamper) : Moves s { s with tamper := t } := (tamper_sameBut s t).aside

theorem closeReading_moves (s : State) : Moves s (closeReading s) :=
  (tamper_moves s _).trans (Moves.ite (fun _ => declareTamper_moves _ _) (fun _ => Moves.refl _))

theorem closeWindow_moves (s : State) : Moves s (closeWindow s) := by
  unfold closeWindow
  split
  · exact Moves.refl s
  · exact (tamper_moves s _).trans (closeReading_moves _)

theorem leavingCabinet_moves {c : List Part} {s t : State} (h : SameBut c s t) (hq : Part.txQueue ∉ c) (hb : Part.bus ∉ c)
    (hc : Part.custodyQueue ∉ c) (hr : Part.queries ∉ c) (list : t.rounds.list = []) (serve : t.catchUp.serve = [])
    (lines : t.lines = LineTable.empty) : Moves s t :=
  h.aside hq hb (custody := fun m => absurd m hc) (list := fun _ _ => by simp [list]) (serve := fun _ _ => by simp [serve])
    (queries := fun m => absurd m hr) (notes := fun _ _ => notesPlaced_of_empty (by rw [lines]))

theorem enterListening_moves (s : State) : Moves s (enterListening s) :=
  leavingCabinet_moves (enterListening_sameBut s) (by decide) (by decide) (by decide) (by decide) rfl rfl rfl

theorem enterDetached_moves (c : DetachedCause) (s : State) : Moves s (enterDetached c s) :=
  leavingCabinet_moves (enterDetached_sameBut c s) (by decide) (by decide) (by decide) (by decide) rfl rfl rfl

theorem clearVolatile_moves (s : State) : Moves s (clearVolatile s) := by
  refine (Move.empty (s := s) ⟨rfl, rfl, ?_, .inl rfl, rfl, rfl, rfl, Nat.zero_le _, rfl⟩).moves
  show (dropPendingQuery s).link.nextAge = _
  rw [dropPendingQuery_link]

theorem clearCounters_moves (s : State) : Moves s (clearCounters s) := moves_of_eq ⟨rfl, rfl, rfl⟩ rfl rfl rfl rfl rfl rfl

theorem loadPresence_keeps (l : Link) : (loadPresence l).queue = l.queue ∧ (loadPresence l).admissions = l.admissions
    ∧ (loadPresence l).nextAge = l.nextAge ∧ (loadPresence l).bus = l.bus := by
  unfold loadPresence; split <;> exact ⟨rfl, rfl, rfl, rfl⟩

theorem startPresence_moves (s : State) : Moves s (startPresence s) := by
  obtain ⟨h1, h2, h3, h4⟩ := loadPresence_keeps s.link
  exact Moves.ite (fun _ => moves_of_eq ⟨rfl, rfl, rfl⟩ rfl rfl rfl rfl rfl rfl)
    (fun _ => moves_of_eq ⟨h1, h2, h3⟩ h4 rfl rfl rfl rfl rfl)

theorem coldStart_moves (s : State) : Moves s (coldStart s) := by
  unfold coldStart
  refine Moves.trans ?_ (startPresence_moves _)
  refine ((clearVolatile_moves s).trans (clearCounters_moves _)).trans ?_
  exact moves_of_eq ⟨rfl, rfl, rfl⟩ rfl rfl rfl rfl rfl rfl

theorem warmValues_moves (y : Bool) (s : State) : Moves s (warmValues y s) := by
  unfold warmValues
  refine Moves.trans ?_ (startPresence_moves _)
  refine ((clearVolatile_moves s).trans (clearCounters_moves _)).trans ?_
  exact moves_of_eq ⟨rfl, rfl, rfl⟩ rfl rfl rfl rfl rfl rfl

theorem reportDirectOrder_moves (s : State) : Moves s (reportDirectOrder s) := by
  unfold reportDirectOrder
  split
  · exact Moves.refl s
  · have h : Moves s { s with cust := { s.cust with record := none } } :=
      moves_of_eq ⟨rfl, rfl, rfl⟩ rfl rfl rfl rfl rfl rfl
    dsimp only
    split
    · exact h.trans (request_moves rfl _)
    · exact h.trans (request_moves rfl _)
    · exact h

theorem warmStart_moves (y : Bool) (s : State) : Moves s (warmStart y s) :=
  ((warmValues_moves y s).trans (closeWindow_moves _)).trans (reportDirectOrder_moves _)

theorem enterRetention_moves (s : State) : Moves s (enterRetention s) := by
  unfold enterRetention
  refine Moves.trans ?_ (closeWindow_moves _)
  refine (clearVolatile_moves s).trans ?_
  exact moves_of_eq ⟨rfl, rfl, rfl⟩ rfl rfl rfl rfl rfl rfl

theorem loadAlarm_keeps (l : Link) (c : ZeroCause) : (loadAlarm l c).queue = l.queue
    ∧ (loadAlarm l c).admissions = l.admissions ∧ (loadAlarm l c).nextAge = l.nextAge ∧ (loadAlarm l c).bus = l.bus := by
  unfold loadAlarm; split <;> exact ⟨rfl, rfl, rfl, rfl⟩

theorem returnZeroised_moves (s : State) : Moves s (returnZeroised s) := by
  unfold returnZeroised
  dsimp only
  refine Moves.trans (t := startPresence { s with
    inputs := { s.inputs with powerFail := false }
    memb := { s.memb with state := .zeroised, retainedZeroised := false } }) (Moves.trans ?_ (startPresence_moves _)) ?_
  · exact moves_of_eq ⟨rfl, rfl, rfl⟩ rfl rfl rfl rfl rfl rfl
  · generalize startPresence _ = u
    refine Moves.ite (fun _ => ?_) (fun _ => Moves.refl _)
    split
    · rename_i ch _
      obtain ⟨h1, h2, h3, h4⟩ := loadAlarm_keeps u.link (.channel ch)
      exact moves_of_eq ⟨h1, h2, h3⟩ h4 rfl rfl rfl rfl rfl
    · exact tamper_moves u _

end Sys2Proof.Machine


namespace Sys2Proof.Machine

/-! ## Rounds -/

theorem openList_length_le (l : List (Option RoundEntry)) : (openList l).length ≤ l.length := List.length_filterMap_le _ _

theorem closeUp_length (l : List (Option RoundEntry)) : (closeUp l).length = (openList l).length := List.length_map _

theorem openList_closeUp (l : List (Option RoundEntry)) : openList (closeUp l) = openList l := by
  unfold closeUp openList
  simp

theorem trimPlaces_sublist (l : List (Option RoundEntry)) : (trimPlaces l).Sublist l := by
  unfold trimPlaces
  have h := (List.dropWhile_sublist (p := fun x : Option RoundEntry => x.isNone) (l := l.reverse)).reverse
  rwa [List.reverse_reverse] at h

/-- A list with room takes a round within its four places (R66, R116). -/
theorem addRound_length {l : List (Option RoundEntry)} (h : (openList l).length < 4) (e : RoundEntry) :
    (addRound l e).length ≤ 4 := by
  have ht : (openList (trimPlaces l)).length ≤ (openList l).length :=
    ((trimPlaces_sublist l).filterMap id).length_le
  unfold addRound Config.openRounds
  dsimp only
  rw [List.length_append]
  split
  · exact Nat.succ_le_of_lt ‹_›
  · rw [closeUp_length]
    exact Nat.succ_le_of_lt (lt_of_le_of_lt ht h)

theorem removeRounds_length (b : Bool) (p : Round → Bool) (l : List (Option RoundEntry)) :
    (removeRounds b p l).length ≤ l.length := by
  unfold removeRounds
  split
  · rw [List.length_map]
  · exact List.length_filter_le _ _

theorem setRounds_moves {s : State} {l : List (Option RoundEntry)} (h : s.rounds.list.length ≤ 4 → l.length ≤ 4) :
    Moves s (setRounds s l) :=
  (setRounds_sameBut s l).aside (list := fun _ => h)

theorem openRoundNotice_moves (b s : State) : Moves s (openRoundNotice b s) := (openRoundNotice_sameBut b s).aside

theorem changeRounds_moves {s : State} {l : List (Option RoundEntry)} (h : s.rounds.list.length ≤ 4 → l.length ≤ 4) :
    Moves s (changeRounds s l) :=
  (setRounds_moves h).trans (openRoundNotice_moves _ _)

theorem dropRound_moves (n : Node) (k : Byte) (s : State) : Moves s (dropRound n k s) :=
  changeRounds_moves (removeRounds_length _ _ _).trans

theorem modRound_moves (s : State) (n : Node) (k : Byte) (f : RoundEntry → RoundEntry) : Moves s (modRound s n k f) :=
  setRounds_moves fun h => by rw [List.length_map]; exact h

theorem endPlain_moves (o : OrderOutcome) (d : Byte) (s : State) : Moves s (endPlain o d s) := endItem_moves o d _ _ s

theorem decisionTest_moves (s : State) : Moves s (decisionTest s) :=
  Moves.ite (fun _ => Moves.refl s) fun _ => Moves.ite (fun _ => (setOwn_moves s _).trans (request_moves rfl _)) fun _ =>
    Moves.ite (fun _ => (setOwn_moves s _).trans (request_moves rfl _)) (fun _ => Moves.refl s)

theorem proposerEntry_moves (r : Round) (s : State) : Moves s (proposerEntry r s) := by
  unfold proposerEntry
  dsimp only
  split
  · exact setOwn_moves s _
  · exact (setOwn_moves s _).trans (request_moves rfl _)

theorem castVote_moves (r : Round) (s : State) : Moves s (castVote r s) := by
  unfold castVote
  dsimp only
  refine Moves.ite (fun _ => ?_) (fun _ => Moves.refl s)
  split
  · exact (modRound_moves s _ _ _).trans (request_moves rfl _)
  · exact (modRound_moves s _ _ _).trans (request_moves rfl _)

theorem beginVote_moves (r : Round) (s : State) : Moves s (beginVote r s) := by
  unfold beginVote
  refine Moves.ite (fun _ => ?_) (fun _ => castVote_moves r s)
  split
  · exact Moves.ite (fun _ => proposerEntry_moves r s) (fun _ => Moves.refl s)
  · exact Moves.ite (fun _ => proposerEntry_moves r s) (fun _ => Moves.refl s)
  · exact Moves.refl s

theorem ownProposeIgnored_moves (c : Option OrderOutcome) (s : State) : Moves s (ownProposeIgnored c s) := by
  unfold ownProposeIgnored
  refine Moves.ite (fun _ => ?_) (fun _ => Moves.refl s)
  split
  · exact endPlain_moves _ _ s
  · exact setOwn_moves s _

theorem withdrawForClash_moves (s : State) : Moves s (withdrawForClash s) := by
  unfold withdrawForClash
  refine Moves.ite (fun _ => ?_) (fun _ => Moves.refl s)
  split
  · exact Moves.refl s
  · split
    · exact Moves.refl s
    · exact (retract_moves _ s).trans (Moves.ite (fun _ => setOwn_moves _ _) (fun _ => endPlain_moves _ _ _))

theorem proposeWithdrawn_moves (s : State) : Moves s (proposeWithdrawn s) := by
  unfold proposeWithdrawn
  refine Moves.ite (fun _ => ?_) (fun _ => Moves.refl s)
  split
  · exact endPlain_moves _ _ s
  · exact setOwn_moves s _

theorem ownProposeEntered_moves (b : ProposeBody) (s : State) : Moves s (ownProposeEntered b s) := by
  unfold ownProposeEntered
  dsimp only
  refine Moves.ite (fun _ => ?_) (fun _ => Moves.refl s)
  refine Moves.ite (fun _ => ?_) (fun _ => setOwn_moves s _)
  split
  · exact ((setOwn_moves s _).trans (setOwn_moves _ _)).trans (request_moves rfl _)
  · exact (setOwn_moves s _).trans (setOwn_moves _ _)

/-- A proposal that clashes with nothing finds room in the open round list (R66). -/
theorem room_of_noClash {s : State} {slot kind : Byte} {l : Label} (h : proposalClash s slot kind l = none) :
    (openList s.rounds.list).length < 4 := by
  unfold proposalClash at h
  split at h
  · cases h
  · split at h
    · cases h
    · split at h
      · cases h
      · exact not_le.mp ‹_›

theorem onPropose_moves (h : Header) (b : ProposeBody) (s : State) : Moves s (onPropose h b s) := by
  unfold onPropose
  split
  · exact Moves.refl s
  · dsimp only
    refine Moves.ite (fun _ => Moves.refl s) fun _ => ?_
    refine Moves.ite (fun _ => Moves.ite (fun _ => ownProposeIgnored_moves _ s) (fun _ => Moves.refl s)) fun hc => ?_
    rename_i proposer _ _
    have room : (openList s.rounds.list).length < 4 := by
      by_cases hh : ((openEntries s).any fun e => e.round.proposer == proposer) = true
      · simp [hh] at hc
      · rw [if_neg hh] at hc
        refine room_of_noClash (slot := b.slot) (kind := b.kind) (l := b.label) ?_
        by_contra hne
        exact hc (by simp [Option.isSome_iff_ne_none.mpr hne])
    refine (changeRounds_moves (l := addRound s.rounds.list ⟨proposedRound proposer b, .none⟩)
      (fun _ => addRound_length room _)).trans ?_
    refine Moves.trans ?_ (Moves.ite (fun _ => Moves.refl _) (fun _ => withdrawForClash_moves _))
    refine Moves.trans ?_ (Moves.ite (fun _ => Moves.refl _) (fun _ => beginVote_moves _ _))
    exact Moves.ite (fun _ => ownProposeEntered_moves b _) (fun _ => Moves.refl _)

theorem onBody_moves (h : Header) (n : Byte) (k : Key) (c : Check) (s : State) : Moves s (onBody h n k c s) := by
  unfold onBody
  split
  · exact Moves.refl s
  · exact Moves.ite (fun _ => (modRound_moves s _ _ _).trans (beginVote_moves _ _)) (fun _ => Moves.refl s)

theorem onAccept_moves (h : Header) (p n : Byte) (s : State) : Moves s (onAccept h p n s) :=
  Moves.ite (fun _ => (setOwn_moves s _).trans (decisionTest_moves _)) (fun _ => Moves.refl s)

theorem onRefuse_moves (h : Header) (p n r : Byte) (s : State) : Moves s (onRefuse h p n r s) :=
  Moves.ite (fun _ => (setOwn_moves s _).trans (decisionTest_moves _)) (fun _ => Moves.refl s)

theorem roundDeadline_moves (s : State) : Moves s (roundDeadline s) :=
  Moves.ite (fun _ => (setOwn_moves s _).trans (Moves.ite
    (fun _ => ((setOwn_moves _ _).trans (request_moves rfl _)).trans (retract_moves _ _)) (fun _ => Moves.refl _)))
    (fun _ => Moves.refl s)

theorem applyRound_moves (r : Round) (s : State) : Moves s (applyRound r s) := by
  unfold applyRound
  refine Moves.trans ?_ (dropRound_moves _ _ _)
  exact moves_of_eq ⟨rfl, rfl, rfl⟩ rfl rfl rfl rfl rfl rfl

theorem applyWindowClose_moves (r : Round) (s : State) : Moves s (applyWindowClose r s) :=
  Moves.ite (fun _ => closeWindow_moves s) (fun _ => Moves.refl s)

theorem commitApplied_moves (h : Header) (n : Byte) (q : Word) (r : Round) (s : State) : Moves s (commitApplied h n q r s) := by
  unfold commitApplied
  refine Moves.trans ?_ (applyWindowClose_moves r _)
  refine Moves.trans ?_ (Moves.ite (fun _ => selfExpel_moves _ _) (fun _ => Moves.refl _))
  exact (applyRound_moves r s).trans (Moves.ite (fun _ => endItem_moves _ _ _ _ _) (fun _ => Moves.refl _))

theorem commitRefused_moves (h : Header) (n : Byte) (c : ExpelReason) (s : State) : Moves s (commitRefused h n c s) := by
  unfold commitRefused
  refine Moves.trans ?_ (selfExpel_moves _ _)
  exact (dropRound_moves _ _ s).trans (Moves.ite (fun _ => endPlain_moves _ _ _) (fun _ => Moves.refl _))

theorem onCommit_moves (h : Header) (n : Byte) (q : Word) (v : Half) (s : State) : Moves s (onCommit h n q v s) := by
  unfold onCommit
  refine Moves.ite (fun _ => ?_) (fun _ => ?_)
  · split
    · exact commitRefused_moves _ _ _ s
    · exact commitApplied_moves _ _ _ _ s
    · exact Moves.refl s
  · unfold commitCatchup
    split
    · exact Moves.refl s
    · exact Moves.ite (fun _ => dropRound_moves _ _ s)
        (fun _ => (applyRound_moves _ s).trans (applyWindowClose_moves _ _))

theorem onAbandon_moves (h : Header) (n r : Byte) (s : State) : Moves s (onAbandon h n r s) := by
  unfold onAbandon
  dsimp only
  have hd : Moves s (if (findRound s h.src n).isSome then dropRound h.src n s else s) :=
    Moves.ite (fun _ => dropRound_moves _ _ s) (fun _ => Moves.refl s)
  refine Moves.ite (fun _ => Moves.refl s) fun _ => Moves.ite (fun _ => ?_) (fun _ => hd)
  split
  · exact hd.trans (endPlain_moves _ _ _)
  · exact hd

theorem expelFromRounds_moves (k : StationId) (s : State) : Moves s (expelFromRounds k s) := by
  unfold expelFromRounds
  exact (changeRounds_moves (removeRounds_length _ _ _).trans).trans
    (Moves.ite (fun _ => (setOwn_moves _ _).trans (decisionTest_moves _)) (fun _ => Moves.refl _))

/-! ## Custody -/

theorem refuseOrder_moves (h : Header) (k : Byte) (b : OrderBody) (o : OrderOutcome) (d : Byte) (s : State) :
    Moves s (refuseOrder h k b o d s) := request_moves rfl s

theorem acceptRoundOrder_moves (k : ChangeKind) (h : Header) (b : OrderBody) (s : State) :
    Moves s (acceptRoundOrder k h b s) :=
  Moves.ite (fun _ => refuseOrder_moves _ _ _ _ _ s) (fun hl => addItem_moves _ (not_le.mp hl))

theorem acceptRestart_moves (h : Header) (b : OrderBody) (s : State) : Moves s (acceptRestart h b s) := by
  unfold acceptRestart
  have hr : Moves s (recordOrder h codeRestart b s) := moves_of_eq ⟨rfl, rfl, rfl⟩ rfl rfl rfl rfl rfl rfl
  refine Moves.ite (fun _ => refuseOrder_moves _ _ _ _ _ s) fun _ => Moves.ite (fun _ => ?_)
    (fun _ => hr.trans (warmStart_moves _ _))
  refine Moves.trans ?_ (selfExpel_moves _ _)
  exact moves_of_eq ⟨rfl, rfl, rfl⟩ rfl rfl rfl rfl rfl rfl

theorem acceptYield_moves (h : Header) (b : OrderBody) (s : State) : Moves s (acceptYield h b s) := by
  unfold acceptYield
  refine Moves.ite (fun _ => refuseOrder_moves _ _ _ _ _ s) fun _ => Moves.trans ?_ (warmStart_moves _ _)
  exact moves_of_eq ⟨rfl, rfl, rfl⟩ rfl rfl rfl rfl rfl rfl

theorem orderArrives_moves (k : Byte) {accept : State → State} (h : Header) (b : OrderBody) (s : State)
    (ha : Moves s (accept s)) : Moves s (orderArrives k accept h b s) :=
  Moves.ite (fun _ => Moves.refl s) fun _ => Moves.ite (fun _ => refuseOrder_moves _ _ _ _ _ s) fun _ =>
    Moves.ite (fun _ => refuseOrder_moves _ _ _ _ _ s) fun _ =>
      Moves.ite (fun _ => refuseOrder_moves _ _ _ _ _ s) (fun _ => ha)

theorem onOrder_moves (h : Header) (k : Byte) (b : OrderBody) (s : State) : Moves s (onOrder h k b s) := by
  unfold onOrder
  split
  case h_9 => exact orderArrives_moves _ h b s (acceptRestart_moves h b s)
  case h_10 => exact orderArrives_moves _ h b s (acceptYield_moves h b s)
  case h_11 => exact orderArrives_moves _ h b s (zeroise_moves _ _ s)
  case h_12 => exact orderArrives_moves _ h b s (Moves.refl s)
  all_goals exact orderArrives_moves _ h b s (acceptRoundOrder_moves _ h b s)

theorem setArea_moves (s : State) (a : AreaId) (x : Option Area) : Moves s (setArea s a x) := (setArea_sameBut s a x).aside

theorem refuseComponent_moves (h : Header) (b : ComponentBody) (d : AssemblyDetail) (s : State) :
    Moves s (refuseComponent h b d s) := by
  unfold refuseComponent
  split
  · exact request_moves rfl s
  · exact request_moves rfl s

theorem completeSlot_moves (h : Header) (b : ComponentBody) (a : AreaId) (x : Area) (s : State) :
    Moves s (completeSlot h b a x s) := by
  unfold completeSlot
  dsimp only
  refine Moves.ite (fun _ => ?_) (fun _ => (setArea_moves s a _).trans (request_moves rfl _))
  split
  · exact Moves.refl s
  · exact (setArea_moves s a _).trans (request_moves rfl _)

theorem takeSlotComponent_moves (h : Header) (b : ComponentBody) (a : AreaId) (x : Area) (s : State) :
    Moves s (takeSlotComponent h b a x s) :=
  Moves.ite (fun _ => completeSlot_moves _ _ _ _ s) (fun _ => (setArea_moves s a _).trans (request_moves rfl _))

theorem onComponentSlot_moves (h : Header) (b : ComponentBody) (s : State) : Moves s (onComponentSlot h b s) := by
  have hr : ∀ d, Moves s (refuseComponent h b d s) := fun d => refuseComponent_moves h b d s
  unfold onComponentSlot
  refine Moves.ite (fun _ => hr _) fun _ => Moves.ite (fun _ => Moves.refl s) fun _ => Moves.ite (fun _ => hr _) fun _ =>
    Moves.ite (fun _ => hr _) fun _ => Moves.ite (fun _ => hr _) fun _ => ?_
  split
  · exact hr _
  · exact Moves.ite (fun _ => hr _) (fun _ => takeSlotComponent_moves h b _ _ s)

theorem takeCabinetComponent_moves (h : Header) (b : ComponentBody) (a : AreaId) (x : Area) (s : State) :
    Moves s (takeCabinetComponent h b a x s) := by
  refine Moves.ite (fun _ => Moves.ite (fun _ => ?_) (fun _ => (setArea_moves s a _).trans (request_moves rfl _)))
    (fun _ => (setArea_moves s a _).trans (request_moves rfl _))
  unfold installCabinetKey
  refine Moves.trans ?_ (enterListening_moves _)
  refine Moves.trans ?_ (areas_sameBut _ _).aside
  refine Moves.trans ?_ (request_moves rfl _)
  exact moves_of_eq ⟨rfl, rfl, rfl⟩ rfl rfl rfl rfl rfl rfl

theorem onComponentCabinet_moves (h : Header) (b : ComponentBody) (s : State) : Moves s (onComponentCabinet h b s) := by
  have hr : ∀ b d, Moves s (refuseComponent h b d s) := fun b d => refuseComponent_moves h b d s
  unfold onComponentCabinet
  refine Moves.ite (fun _ => ?_) (fun _ => Moves.refl s)
  refine Moves.ite (fun _ => hr _ _) fun _ => Moves.ite (fun _ => hr _ _) fun _ => ?_
  split
  · exact hr _ _
  · exact takeCabinetComponent_moves h _ _ _ s

theorem onComponent_moves (h : Header) (b : ComponentBody) (s : State) : Moves s (onComponent h b s) :=
  Moves.ite (fun _ => onComponentCabinet_moves h b s) (fun _ => onComponentSlot_moves h b s)

theorem areaTimeout_moves (a : AreaId) (s : State) : Moves s (areaTimeout a s) := by
  unfold areaTimeout
  split
  · exact Moves.refl s
  · split
    · exact Moves.refl s
    · exact (setArea_moves s a _).trans (request_moves rfl _)

/-! ## Catch-up -/

/-- The pulling side changes, the pull queue stays. -/
theorem setCatchUp_moves {s : State} {c : CatchUp} (h : c.serve = s.catchUp.serve := by rfl) : Moves s (setCatchUp s c) :=
  moves_of_eq ⟨rfl, rfl, rfl⟩ rfl rfl h rfl rfl rfl

theorem queuePull_moves (s : State) : Moves s (queuePull s) := by
  unfold queuePull
  split
  · exact Moves.refl s
  · exact request_moves rfl s

theorem startAttempt_moves (k : StationId) (s : State) : Moves s (startAttempt k s) := by
  unfold startAttempt
  exact Moves.trans setCatchUp_moves (queuePull_moves _)

theorem nextAttempt_moves (f : Option StationId) (s : State) : Moves s (nextAttempt f s) := by
  unfold nextAttempt
  split
  · exact enterListening_moves s
  · exact startAttempt_moves _ s

theorem aheadCheck_moves (k : StationId) (q : Word) (s : State) : Moves s (aheadCheck k q s) :=
  Moves.ite (fun _ => enterDetached_moves _ s) (fun _ => startAttempt_moves k s)

theorem enterCatchup_moves (s : State) : Moves s (enterCatchupFromListening s) := by
  unfold enterCatchupFromListening
  split
  · exact enterListening_moves s
  · dsimp only
    have h := (toCatchup_sameBut s).aside
    refine Moves.ite (fun _ => h.trans (startAttempt_moves _ _)) fun _ => ?_
    split
    · exact h.trans (aheadCheck_moves _ _ _)
    · exact h.trans setCatchUp_moves

theorem txClass_stalePull (f : TxFrame) : txClass (stalePull f) = txClass f := by
  unfold stalePull; split <;> rfl

theorem markPullsStale_moves (s : State) : Moves s (markPullsStale s) := (Move.relabel txClass_stalePull).moves

theorem closeUpRounds_moves (s : State) : Moves s (setRounds s (closeUp s.rounds.list)) :=
  setRounds_moves fun h => by rw [closeUp_length]; exact (openList_length_le _).trans h

theorem failAttempt_moves (s : State) : Moves s (failAttempt s) := by
  unfold failAttempt
  dsimp only
  refine Moves.trans ?_ (Moves.ite (fun _ => enterDetached_moves _ _) fun _ =>
    Moves.ite (fun _ => enterListening_moves _) (fun _ => nextAttempt_moves _ _))
  refine Moves.trans ?_ setCatchUp_moves
  exact ((retract_moves isPull s).trans (markPullsStale_moves _)).trans (closeUpRounds_moves _)

theorem findFailure_moves (c : FailCause) (s : State) : Moves s (findFailure c s) := by
  unfold findFailure
  split
  · exact Moves.refl s
  · exact (retract_moves _ s).trans (Moves.ite (fun _ => setCatchUp_moves) (fun _ => failAttempt_moves _))
  all_goals exact failAttempt_moves s

theorem pullTimedOut_moves (s : State) : Moves s (pullTimedOut s) :=
  Moves.ite (fun _ => findFailure_moves _ s) (fun _ => Moves.refl s)

theorem verificationTimedOut_moves (s : State) : Moves s (verificationTimedOut s) :=
  Moves.ite (fun _ => findFailure_moves _ s) (fun _ => Moves.refl s)

theorem serveHead_moves (s : State) : Moves s (serveHead s) := by
  unfold serveHead
  split
  · exact Moves.refl s
  · exact Moves.foldl (fun s _ => request_moves rfl s) _ s

theorem setServe_moves {s : State} {l : List PullEntry} (h : s.catchUp.serve.length ≤ 4 → l.length ≤ 4) :
    Moves s (setCatchUp s { s.catchUp with serve := l }) :=
  (setServe_sameBut s l).aside (serve := fun _ => h)

theorem onPull_moves (h : Header) (a i : Byte) (s : State) : Moves s (onPull h a i s) := by
  unfold onPull
  split
  · exact Moves.refl s
  · dsimp only
    refine Moves.ite (fun hc => ?_) (fun _ => Moves.refl s)
    have hlen : s.catchUp.serve.length < 4 := by
      simp only [Bool.and_eq_true, decide_eq_true_eq] at hc
      exact hc.1.2
    have hs : Moves s (setCatchUp s { s.catchUp with
        serve := s.catchUp.serve ++ [⟨h.src, a, i, burstItems a i⟩] }) :=
      setServe_moves fun _ => by rw [List.length_append]; exact hlen
    exact Moves.ite (fun _ => hs.trans (serveHead_moves _)) (fun _ => hs)

theorem imageSent_moves (n : Node) (a i : Byte) (s : State) : Moves s (imageSent n a i s) := by
  unfold imageSent
  split
  · exact Moves.refl s
  · rename_i x rest hx
    dsimp only
    refine Moves.ite (fun _ => Moves.ite (fun _ => (setServe_moves fun h => ?_).trans (serveHead_moves _))
      (fun _ => setServe_moves fun h => ?_)) (fun _ => Moves.refl s)
    · rw [hx] at h; exact (Nat.le_succ _).trans h
    · rw [hx] at h; exact h

theorem pullSent_moves (b : Bool) (s : State) : Moves s (pullSent b s) := (pullSent_sameBut b s).aside

theorem burstDone_moves (s : State) : Moves s (burstDone s) := by
  unfold burstDone
  exact Moves.ite (fun _ => Moves.trans setCatchUp_moves (queuePull_moves _)) (fun _ => setCatchUp_moves)

theorem placeRound_length (k : Nat) (r : Option Round) {l : List (Option RoundEntry)} (h : l.length ≤ 4) :
    (placeRound k r l).length ≤ 4 := by
  have h4 : (fourPlaces l).length = 4 := by
    unfold fourPlaces Config.openRounds
    rw [List.length_append, List.length_replicate]; omega
  unfold placeRound
  dsimp only
  split
  · rw [List.length_set, h4]
  · rw [List.length_set, List.length_map, h4]

theorem overwriteItem_moves (x : ImageItem) (s : State) : Moves s (overwriteItem x s) := by
  unfold overwriteItem
  split
  · exact (liveSet_sameBut s _).aside
  · refine Moves.trans ?_ (openRoundNotice_moves _ _)
    unfold settlePlaces
    refine Moves.trans ?_ (Moves.ite (fun _ => Moves.refl _) (fun _ => closeUpRounds_moves _))
    exact setRounds_moves (placeRound_length _ _)
  · exact (imageSlot_sameBut s _ _ _).aside.trans (giveNotice_moves _)
  · exact imageLine_moves s _ _

theorem onImage_moves (h : Header) (a i : Byte) (q : Word) (bs : List Byte) (s : State) : Moves s (onImage h a i q bs s) := by
  unfold onImage
  split
  · exact Moves.refl s
  · dsimp only
    refine Moves.ite (fun _ => ?_) (fun _ => Moves.refl s)
    have hi : ∀ x, Moves s (overwriteItem x (tookItem a i { s with dir := { s.dir with seq := q } })) := fun x =>
      ((seq_sameBut s q).aside.trans (tookItem_sameBut a i _).aside).trans (overwriteItem_moves x _)
    exact Moves.ite (fun _ => (hi _).trans (findFailure_moves _ _)) fun _ =>
      Moves.ite (fun _ => (hi _).trans (burstDone_moves _)) (fun _ => hi _)

theorem sourceHeard_moves (b : PresenceBody) (k : StationId) (s : State) : Moves s (sourceHeard b k s) := by
  unfold sourceHeard
  dsimp only
  split
  · exact Moves.refl s
  · exact Moves.ite (fun _ => Moves.trans setCatchUp_moves (aheadCheck_moves _ _ _)) (fun _ => findFailure_moves _ s)
  · exact Moves.ite (fun _ => Moves.refl s) (fun _ => findFailure_moves _ s)
  · exact Moves.ite (fun _ => Moves.trans setCatchUp_moves (request_moves rfl _)) fun _ =>
      Moves.ite (fun _ => findFailure_moves _ s) (fun _ => findFailure_moves _ s)
  · exact Moves.ite (fun _ => Moves.refl s) (fun _ => findFailure_moves _ s)

theorem catchUpPresence_moves (k : StationId) (b : PresenceBody) (s : State) : Moves s (catchUpPresence k b s) :=
  Moves.ite (fun _ => sourceHeard_moves b k s) (fun _ => Moves.refl s)

/-! ## Membership -/

theorem setSilence_moves (s : State) (k : StationId) (t : TimerState) : Moves s (setSilence s k t) :=
  (setSilence_sameBut s k t).aside

theorem ensureSilent_moves (k : StationId) (s : State) : Moves s (ensureSilent k s) :=
  Moves.ite (fun _ => Moves.refl s) (fun _ => request_moves rfl s)

theorem silentUpkeep_moves (s : State) : Moves s (silentUpkeep s) := by
  unfold silentUpkeep
  refine Moves.ite (fun _ => ?_) (fun _ => Moves.refl s)
  dsimp only
  split
  · exact Moves.refl s
  · exact Moves.ite (fun _ => ensureSilent_moves _ s) (fun _ => retract_moves _ s)

theorem silenceExpired_moves (k : StationId) (s : State) : Moves s (silenceExpired k s) :=
  Moves.ite (fun _ => (setSilence_moves s k _).trans
    (Moves.ite (fun _ => ensureSilent_moves k _) (fun _ => silentUpkeep_moves _))) (fun _ => Moves.refl s)

theorem dutyGained_moves (s : State) : Moves s (dutyGained s) :=
  (Moves.foldl (fun s k => Moves.ite (fun _ => ensureSilent_moves k s) (fun _ => Moves.refl s)) _ s).trans
    (lineDutyGained_moves _)

theorem dutyLost_moves (s : State) : Moves s (dutyLost s) :=
  ((retract_moves _ s).trans (retract_moves _ _)).trans (retract_moves _ _)

theorem liveSetChanged_moves (d : Bool) (s : State) : Moves s (liveSetChanged d s) := by
  unfold liveSetChanged
  refine Moves.trans ?_ (giveNotice_moves _)
  refine Moves.trans ?_ (silentUpkeep_moves _)
  refine Moves.trans ?_ (Moves.ite (fun _ => Moves.refl _) (fun _ => withdrawPropose_moves _))
  exact Moves.ite (fun _ => dutyLost_moves s) fun _ => Moves.ite (fun _ => dutyGained_moves s) (fun _ => Moves.refl s)

theorem enterLive_moves (s : State) : Moves s (enterLive s) := by
  unfold enterLive
  dsimp only
  have h : Moves s { s with
      memb := { s.memb with
        state := .live, cause := none, windowOpen := false, watches := startedWatches (self s) s.memb.live }
      catchUp := { idleCatchUp s.catchUp with failures := 0 } } := moves_of_eq ⟨rfl, rfl, rfl⟩ rfl rfl rfl rfl rfl rfl
  refine Moves.trans (t := giveNotice _) (h.trans (Moves.trans ?_ (giveNotice_moves _)))
    (Moves.ite (fun _ => selfExpel_moves _ _) (fun _ => Moves.refl _))
  exact Moves.ite (fun _ => dutyGained_moves _) (fun _ => silentUpkeep_moves _)

theorem founderCheck_moves (s : State) : Moves s (founderCheck s) :=
  Moves.ite (fun _ => (retract_moves _ s).trans (Moves.ite (fun _ => Moves.refl _) (fun _ => enterCatchup_moves _)))
    (fun _ => Moves.refl s)

theorem listeningExpired_moves (s : State) : Moves s (listeningExpired s) :=
  Moves.ite (fun _ => Moves.ite (fun _ => enterCatchup_moves s) fun _ =>
    Moves.ite (fun _ => (windowShut_sameBut s).aside.trans (request_moves rfl _)) (fun _ => (heard_sameBut s _).aside))
    (fun _ => Moves.refl s)

theorem listeningPresence_moves (k : StationId) (st : StationState) (b : PresenceBody) (s : State) :
    Moves s (listeningPresence k st b s) := by
  unfold listeningPresence
  dsimp only
  have h : Moves s (if (s.memb.windowOpen && k != self s) = true then
      { s with memb := { s.memb with heard := tset s.memb.heard k (some ⟨st, b.seq, b.yield, b.check⟩) } } else s) :=
    Moves.ite (fun _ => (heard_sameBut s _).aside) (fun _ => Moves.refl s)
  exact Moves.ite (fun _ => (h.trans (liveSet_sameBut _ _).aside).trans (founderCheck_moves _)) (fun _ => h)

theorem presenceCauses_moves (k : StationId) (b : PresenceBody) (s : State) : Moves s (presenceCauses k b s) := by
  unfold presenceCauses
  refine Moves.ite (fun _ => selfExpel_moves _ s) fun _ => ?_
  split
  · exact Moves.ite (fun _ => selfExpel_moves _ s) (fun _ => Moves.refl s)
  · exact Moves.refl s

theorem watchPresence_moves (k : StationId) (st : StationState) (s : State) : Moves s (watchPresence k st s) := by
  unfold watchPresence
  refine (setSilence_moves s k .running).trans ?_
  exact Moves.ite (fun _ => (retract_moves _ _).trans (silentUpkeep_moves _)) fun _ =>
    Moves.ite (fun _ => ensureSilent_moves k _) (fun _ => silentUpkeep_moves _)

theorem livePresence_moves (k : StationId) (st : StationState) (b : PresenceBody) (s : State) :
    Moves s (livePresence k st b s) :=
  Moves.ite (fun _ => (watchPresence_moves k st s).trans
    (Moves.ite (fun _ => presenceCauses_moves k b _) (fun _ => Moves.refl _))) (fun _ => Moves.refl s)

theorem onPresence_moves (h : Header) (b : PresenceBody) (s : State) : Moves s (onPresence h b s) := by
  unfold onPresence
  split
  · rename_i k st _ _
    dsimp only
    refine Moves.ite (fun _ => ?_) (fun _ => Moves.refl s)
    have h : Moves s (recordPresence k st b s) := (recordPresence_sameBut k st b s).aside
    split
    · exact h.trans (livePresence_moves _ _ _ _)
    · exact h.trans (listeningPresence_moves _ _ _ _)
    · exact h.trans (catchUpPresence_moves _ _ _)
    · exact h
  · exact Moves.refl s

theorem joinTaken_moves (k : StationId) (d : Bool) (s : State) : Moves s (joinTaken k d s) := by
  unfold joinTaken
  refine Moves.ite (fun _ => enterLive_moves s) fun _ => ?_
  split
  · exact (setSilence_moves s k _).trans (liveSetChanged_moves d _)
  · exact founderCheck_moves s
  · exact Moves.refl s

theorem joined_moves (s : State) (l : StationSet) (before : State) (k : StationId) (b : JoinBody) (d : Bool) :
    Moves s (joinTaken k d (recordJoin before k b { s with memb := { s.memb with live := l } })) :=
  ((liveSet_sameBut s l).aside.trans (recordJoin_sameBut before k b _).aside).trans (joinTaken_moves k d _)

theorem onJoin_moves (h : Header) (b : JoinBody) (s : State) : Moves s (onJoin h b s) := by
  unfold onJoin
  split
  · exact Moves.refl s
  · exact Moves.ite (fun _ => Moves.refl s) fun _ => Moves.ite (fun _ => joined_moves s _ s _ b _) fun _ =>
      Moves.ite (fun _ => failAttempt_moves s) (fun _ => Moves.refl s)

theorem onJoinFounding_moves (h : Header) (b : JoinBody) (s : State) : Moves s (onJoinFounding h b s) := by
  unfold onJoinFounding
  split
  · exact Moves.refl s
  · exact Moves.ite (fun _ => Moves.refl s) fun _ => Moves.ite (fun _ => joined_moves s _ s _ b _) fun _ =>
      Moves.ite (fun _ => enterCatchup_moves s) (fun _ => Moves.refl s)

theorem removeMember_moves (k : StationId) (s : State) : Moves s (removeMember k s) := by
  unfold removeMember
  refine Moves.trans ?_ (retract_moves _ _)
  refine Moves.trans ?_ (setSilence_moves _ _ _)
  exact ((liveSet_sameBut s _).aside.trans (expelFromRounds_moves _ _)).trans (expelFromLines_moves _ _)

theorem removedSelf_moves (s : State) : Moves s (removedSelf s) := by
  unfold removedSelf
  refine ((purge_moves s).trans (dropJobs_moves _)).trans ?_
  exact Aside.moves ⟨⟨rfl, rfl, rfl⟩, rfl, fun _ => Nat.zero_le _, fun h => by simpa [roundsRemoved] using h,
    fun _ => Nat.zero_le _, le_refl _, id, fun h => h.of_locals rfl (le_refl _)⟩

/-- The LOST reports at the own removal are reports, no query's. -/
theorem lostReport_kinds (s : State) (f : TxFrame) (h : f ∈ lostReports s ++ areaLostReports s.cust) :
    (∃ g b, f = .roundReport g b) ∨ ∃ g b, f = .custodyReport g b := by
  rw [List.mem_append] at h
  rcases h with h | h
  · unfold lostReports at h
    split at h
    · cases h
    · left
      rcases List.mem_cons.mp h with rfl | h
      · exact ⟨_, _, rfl⟩
      · obtain ⟨x, -, rfl⟩ := List.mem_map.mp h
        exact ⟨_, _, rfl⟩
  · right
    unfold areaLostReports at h
    obtain ⟨a, -, ha⟩ := List.mem_filterMap.mp h
    split at ha
    · cases ha
    · split at ha
      · cases ha
      · cases ha; exact ⟨_, _, rfl⟩

theorem requests_moves (l : List TxFrame) (hl : ∀ f ∈ l, isQueryReport f = false) (s : State) :
    Moves s (l.foldl (fun s f => request f s) s) := by
  induction l generalizing s with
  | nil => exact Moves.refl s
  | cons f l ih =>
    exact (request_moves (hl f List.mem_cons_self) s).trans (ih (fun g hg => hl g (List.mem_cons_of_mem _ hg)) _)

theorem selfRemoved_moves (r : ExpelReason) (s : State) : Moves s (selfRemoved r s) := by
  have hr : ∀ f ∈ lostReports s ++ areaLostReports s.cust, isQueryReport f = false := fun f hf => by
    rcases lostReport_kinds s f hf with ⟨g, b, rfl⟩ | ⟨g, b, rfl⟩ <;> rfl
  unfold selfRemoved
  refine Moves.ite (fun _ => ?_) (fun _ => ?_)
  · refine Moves.trans ?_ (warmStart_moves _ _)
    exact (removedSelf_moves s).trans (moves_of_eq ⟨rfl, rfl, rfl⟩ rfl rfl rfl rfl rfl rfl)
  · refine Moves.trans ?_ (nextAttempt_moves _ _)
    refine Moves.trans ?_ (requests_moves _ hr _)
    exact (removedSelf_moves s).trans (moves_of_eq ⟨rfl, rfl, rfl⟩ rfl rfl rfl rfl rfl rfl)

theorem expelMember_moves (k : StationId) (r : ExpelReason) (s : State) : Moves s (expelMember k r s) := by
  unfold expelMember
  split
  · exact (liveSet_sameBut s _).aside
  · exact (removeMember_moves k s).trans (Moves.ite (fun _ => findFailure_moves _ _) (fun _ => Moves.refl _))
  · exact (removeMember_moves k s).trans (Moves.ite (fun _ => selfRemoved_moves r _) (fun _ => liveSetChanged_moves _ _))
  · exact Moves.refl s

theorem onExpel_moves (node r : Byte) (s : State) : Moves s (onExpel node r s) := by
  unfold onExpel
  split
  · exact Moves.ite (fun _ => expelMember_moves _ _ s) (fun _ => Moves.refl s)
  · exact Moves.refl s

theorem onZero_moves (h : Header) (c : Byte) (s : State) : Moves s (onZero h c s) := by
  unfold onZero
  split
  · exact Moves.refl s
  · exact Moves.ite (fun _ => zeroise_moves _ _ s) (fun _ => Moves.refl s)

/-! ## Queries, the receive filter -/

theorem onQuery_sameBut (h : Header) (tag : Half) (arg : QueryArg) (s : State) :
    SameBut [.queries, .dropped] s (onQuery h tag arg s) := by
  unfold onQuery
  refine SameBut.ite ?_ ?_ <;>
  · intro p hp
    cases p <;> first | rfl | exact ⟨rfl, rfl⟩ | exact ⟨rfl, rfl, rfl⟩ | exact absurd (by decide) hp

theorem onQuery_moves (h : Header) (tag : Half) (arg : QueryArg) (s : State) : Moves s (onQuery h tag arg s) := by
  refine (onQuery_sameBut h tag arg s).aside (queries := fun _ => ?_)
  unfold onQuery Config.queryEntries
  split
  · exact ⟨le_refl _, id⟩
  · rw [List.length_append]
    exact ⟨Nat.le_add_right _ _, fun _ => not_le.mp ‹_›⟩

/-- What any block does with a frame that the filter hands it is made of moves of the queue. -/
theorem deliver_moves (h : Header) (f : Frame) (s : State) : Moves s (deliver h f s) := by
  unfold deliver
  split
  · exact onZero_moves _ _ s
  · exact onPresence_moves _ _ s
  · exact onJoin_moves _ _ s
  · exact onJoinFounding_moves _ _ s
  · exact onExpel_moves _ _ s
  · exact onClaim_moves _ _ s
  · exact onDecline_moves _ _ s
  · exact settleFrame_moves _ _ _ s
  · exact onCancel_moves _ _ _ s
  · exact onPropose_moves _ _ s
  · exact onBody_moves _ _ _ _ s
  · exact onAccept_moves _ _ _ s
  · exact onRefuse_moves _ _ _ _ s
  · exact onCommit_moves _ _ _ _ s
  · exact onAbandon_moves _ _ _ s
  · exact onOrder_moves _ _ _ s
  · exact onComponent_moves _ _ s
  · exact onOpen_moves _ _ s
  · exact onClose_moves _ _ s
  · exact onCleared_moves _ _ s
  · exact post_moves _ _ _ _ _ _ _ s
  · exact post_moves _ _ _ _ _ _ _ s
  · exact onCards_moves _ _ s
  · exact Moves.refl s
  · exact onFinal_moves _ _ s
  · exact onPull_moves _ _ _ s
  · exact onImage_moves _ _ _ _ _ s
  · unfold onQueryFrame
    split
    · exact Moves.refl s
    · exact onQuery_moves _ _ _ s
  · exact Moves.refl s

theorem receivedIntact_moves (s : State) : Moves s (receivedIntact s) :=
  (receivedIntact_sameBut s).aside (notes := fun _ h => NotesPlaced.of_locals (s := s) rfl (Nat.le_succ _) h)

theorem slotUndriven_moves (s : State) : Moves s (slotUndriven s) := (slotUndriven_sameBut s).aside

theorem countMisplaced_moves (s : State) : Moves s (countMisplaced s) := moves_of_eq ⟨rfl, rfl, rfl⟩ rfl rfl rfl rfl rfl rfl

theorem filterFrame_moves (h : Header) (f : Frame) {g : State → State} (hg : ∀ s, Moves s (g s)) (s : State) :
    Moves s (filterFrame h f g s) := by
  unfold filterFrame handOver
  refine Moves.ite (fun _ => (receivedIntact_moves s).trans ?_) (fun _ => slotUndriven_moves s)
  refine Moves.ite (fun _ => countMisplaced_moves _) fun _ => (noteGateway_moves h _).trans ?_
  exact Moves.ite (fun _ => Moves.refl _) fun _ =>
    Moves.ite (fun _ => moves_of_eq ⟨rfl, rfl, rfl⟩ rfl rfl rfl rfl rfl rfl) fun _ =>
      Moves.ite (fun _ => hg _) (fun _ => Moves.refl _)

theorem receive_moves (h : Header) (f : Frame) {g : State → State} (hg : ∀ s, Moves s (g s)) (s : State) :
    Moves s (receive h f g s) := (filterFrame_moves h f hg s).trans (settle_moves _)

theorem receiveError_moves (s : State) : Moves s (receiveError s) := by
  unfold receiveError
  refine Moves.ite (fun _ => ?_) (fun _ => slotUndriven_moves s)
  refine Moves.trans (t := { s with link := { s.link with
    receiveErrors := raise16 s.link.receiveErrors, slotDriven := false } })
    (moves_of_eq ⟨rfl, rfl, rfl⟩ rfl rfl rfl rfl rfl rfl) ?_
  unfold receiveErrorFound
  split
  · exact selfExpel_moves _ _
  · exact findFailure_moves _ _
  · exact Moves.refl _

theorem receiveRaw_moves (r : RawFrame) (s : State) : Moves s (receiveRaw r s) := by
  unfold receiveRaw
  refine Moves.ite (fun _ => receiveError_moves s) fun _ => ?_
  split
  · exact Moves.ite (fun _ => (receivedIntact_moves s).trans (countMisplaced_moves _)) (fun _ => slotUndriven_moves s)
  · exact filterFrame_moves _ _ (deliver_moves _ _) s

theorem takePins_moves (p : Pins) (s : State) : Moves s (takePins p s) := moves_of_eq ⟨rfl, rfl, rfl⟩ rfl rfl rfl rfl rfl rfl

end Sys2Proof.Machine


namespace Sys2Proof.Machine

/-! ## The own transmitter (R4 to R9) -/

/-- The properties of a state that O56 and O60 speak of, as far as every move keeps them. -/
structure Orderly (s : State) : Prop where
  bounded : QueueBounded s
  ordered : QueueOrdered s
  capacity : WithinCapacity s

theorem Orderly.moves {s t : State} (h : Moves s t) (hs : Orderly s) : Orderly t :=
  h.keeps (fun m a => ⟨m.keeps_bounded a.bounded, m.keeps_ordered a.ordered, m.keeps_capacity a.capacity⟩) hs

/-- A state that another one's queue, freed of entries perhaps and with ages and frames kept, sets apart. -/
theorem Orderly.of_link {s t : State} (hs : Orderly s) (q : List TxEntry) (g : TxEntry → TxEntry)
    (sub : q.Sublist s.link.queue) (age : ∀ e, (g e).age = e.age) (frame : ∀ e, (g e).frame = e.frame)
    (hq : t.link.queue = q.map g) (ha : t.link.admissions = s.link.admissions) (hn : t.link.nextAge = s.link.nextAge)
    (hr : t.rounds.queue = s.rounds.queue) (hl : t.rounds.list = s.rounds.list)
    (hs' : t.catchUp.serve = s.catchUp.serve) (hp : t.rep.queries = s.rep.queries) : Orderly t := by
  obtain ⟨⟨h16, h12⟩, ⟨hpw, hlt⟩, hc⟩ := hs
  have hage : (fun e : TxEntry => e.age) ∘ g = fun e => e.age := funext age
  have h3 : ((fun e : TxEntry => txClass e.frame == 3) ∘ g) = fun e => txClass e.frame == 3 :=
    funext fun e => by simp [frame e]
  refine ⟨⟨?_, ?_⟩, ⟨?_, ?_⟩, ?_⟩
  · rw [hq, List.length_map]; exact sub.length_le.trans h16
  · rw [hq, List.filter_map, List.length_map, h3]; exact (sub.filter _).length_le.trans h12
  · rw [hq, List.map_map, hage]; exact hpw.sublist (sub.map _)
  · rw [hq, hn]
    simp only [List.mem_map]
    rintro e ⟨x, hx, rfl⟩
    rw [age]; exact hlt x (sub.mem hx)
  · unfold WithinCapacity at hc ⊢
    rw [ha, hr, hl, hs', hp]; exact hc

/-- A state with the same queue, and the same bounded lists. -/
theorem Orderly.of_same {s t : State} (hs : Orderly s) (hq : t.link.queue = s.link.queue)
    (ha : t.link.admissions = s.link.admissions) (hn : t.link.nextAge = s.link.nextAge)
    (hr : t.rounds.queue = s.rounds.queue) (hl : t.rounds.list = s.rounds.list)
    (hs' : t.catchUp.serve = s.catchUp.serve) (hp : t.rep.queries = s.rep.queries) : Orderly t :=
  hs.of_link s.link.queue id (List.Sublist.refl _) (fun _ => rfl) (fun _ => rfl) (by simpa using hq) ha hn hr hl hs' hp

theorem orderly_freeEntry {s : State} (age : Nat) (hs : Orderly s) : Orderly { s with link := freeEntry s.link age } :=
  hs.of_link (s.link.queue.filter (fun e => e.age != age)) id List.filter_sublist (fun _ => rfl) (fun _ => rfl)
    (by simp [freeEntry]) rfl rfl rfl rfl rfl rfl

theorem orderly_setBus {s : State} (b : Bus) (hs : Orderly s) : Orderly (setBus s b) := hs.of_same rfl rfl rfl rfl rfl rfl rfl

theorem orderly_clearHold {s : State} (age : Nat) (hs : Orderly s) : Orderly { s with link := clearHold s.link age } :=
  hs.of_link s.link.queue (fun e => if e.age == age then { e with hold := .none } else e) (List.Sublist.refl _)
    (fun e => by split <;> rfl) (fun e => by split <;> rfl) rfl rfl rfl rfl rfl rfl rfl

theorem beforeFetch_sameBut (f : TxFrame) (s : State) : SameBut [.maintenance, .freeIndex] s (beforeFetch f s) := by
  unfold beforeFetch
  split
  · split
    · exact SameBut.refl _ s
    · intro p hp
      cases p <;> first | rfl | exact ⟨rfl, rfl⟩ | exact ⟨rfl, rfl, rfl⟩ | exact absurd (by decide) hp
  · exact SameBut.refl _ s

theorem refuseHeld_sameBut (f : TxFrame) (s : State) : SameBut [.ownRound] s (refuseHeld f s) := by
  unfold refuseHeld
  split
  · exact setOwn_sameBut s _
  · exact SameBut.refl _ s

/-- What the fetch of a won frame notes first leaves the queue alone. -/
theorem fetched_moves (f : TxFrame) (s : State) : Moves s (refuseHeld f (beforeFetch f s)) :=
  (beforeFetch_sameBut f s).aside.trans (refuseHeld_sameBut f _).aside

theorem withdrawn_moves (f : TxFrame) (s : State) : Moves s (withdrawn f s) := by
  unfold withdrawn
  split
  · exact (returnClaim_sameBut _ s).aside
  · exact proposeWithdrawn_moves s
  · exact Moves.ite (fun _ => enterCatchup_moves s) (fun _ => Moves.refl s)
  · exact Moves.ite (fun _ => failAttempt_moves s) (fun _ => Moves.refl s)
  · exact finalWithdrawn_moves _ s
  · exact Moves.refl s

theorem completed_moves (f : TxFrame) (m : NodeMap) (s : State) : Moves s (completed f m s) := by
  unfold completed
  split
  · exact Moves.ite (fun _ => (returnClaim_sameBut _ s).aside) (fun _ => Moves.refl s)
  · exact (answerSent_sameBut _ _ _ _ s).aside
  · exact finalSent_moves _ _ _ s
  · exact pullSent_moves _ s
  · exact imageSent_moves _ _ _ s
  · exact Moves.refl s

/-- The two ways an own transmission's end can go on: what is delivered to the sender, and what the producer is told. -/
theorem delivered_moves (h : Header) (f : Frame) (t : Option TxFrame) (m : NodeMap) (s : State) :
    Moves s (match t with
      | none => filterFrame h f (deliver h f) s
      | some t => completed t m (filterFrame h f (deliver h f) s)) := by
  have hf := filterFrame_moves h f (deliver_moves h f) s
  split
  · exact hf
  · exact hf.trans (completed_moves _ _ _)

/-- A property that moves keep, and that the bus's own changes keep: the bus set free, a candidate taken from the queue, an entry
freed or its hold cleared. -/
structure Transmits (I : State → Prop) : Prop where
  move : ∀ {s t}, Moves s t → I s → I t
  idle : ∀ {s}, I s → I (setBus s .idle)
  alarm : ∀ {s}, I s → I (setBus s (.contending .alarm))
  presence : ∀ {s}, I s → I (setBus s (.contending .presence))
  entry : ∀ {s} {e : TxEntry}, e ∈ s.link.queue → I s → I (setBus s (.contending (.entry e.age)))
  send : ∀ {s} {c : Candidate} (d : Dest) (f : Frame), s.link.bus = .contending c → I s → I (setBus s (.sending c d f))
  free : ∀ {s} (age : Nat), s.link.bus = .idle → I s → I { s with link := freeEntry s.link age }
  hold : ∀ {s} (age : Nat), I s → I { s with link := clearHold s.link age }

theorem Transmits.contend {I : State → Prop} (hI : Transmits I) {s : State} (hs : I s) : I (contend s) := by
  unfold Machine.contend
  split
  · split
    · split
      · exact hs
      · rename_i c hc
        unfold candidate at hc
        split at hc
        · cases hc; exact hI.alarm hs
        · split at hc
          · cases hc; exact hI.presence hs
          · obtain ⟨e, he, rfl⟩ := Option.map_eq_some_iff.mp hc
            unfold queueHead at he
            obtain ⟨k, -, hk⟩ := List.exists_of_findSome?_eq_some he
            exact hI.entry (List.mem_of_find?_eq_some hk) hs
    · exact hs
  · exact hs

theorem Transmits.winArbitration {I : State → Prop} (hI : Transmits I) {s : State} {c : Candidate}
    (hb : s.link.bus = .contending c) (hs : I s) : I (winArbitration c s) := by
  unfold Machine.winArbitration
  split
  · split
    · exact hI.idle hs
    · exact hI.send _ _ hb hs
  · exact hI.send _ _ hb hs
  · rename_i age
    split
    · exact hI.idle hs
    · rename_i e _
      have hb' : (refuseHeld e.frame (beforeFetch e.frame s)).link.bus = .contending (.entry age) := by
        rw [((refuseHeld_sameBut e.frame _) .bus (by decide)).trans ((beforeFetch_sameBut e.frame s) .bus (by decide)), hb]
      exact hI.send _ _ hb' (hI.hold age (hI.move (fetched_moves e.frame s) hs))

theorem Transmits.loseArbitration {I : State → Prop} (hI : Transmits I) (c : Candidate) {s : State} (hs : I s) :
    I (loseArbitration c s) := by
  have h0 := hI.idle hs
  unfold Machine.loseArbitration
  dsimp only
  split
  · exact h0
  · exact h0
  · split
    · exact h0
    · split
      · exact h0
      · exact hI.move (fillQueue_moves _) (hI.free _ rfl h0)
      · exact hI.move ((fillQueue_moves _).trans (withdrawn_moves _ _)) (hI.free _ rfl h0)

theorem Transmits.endArbitration {I : State → Prop} (hI : Transmits I) (won : Bool) {s : State} (hs : I s) :
    I (endArbitration won s) := by
  unfold Machine.endArbitration
  split
  · split
    · exact hI.winArbitration ‹_› hs
    · exact hI.loseArbitration _ hs
  · exact hs

theorem Transmits.frameCompleted {I : State → Prop} (hI : Transmits I) (receipt : NodeMap) {s : State} (hs : I s) :
    I (frameCompleted receipt s) := by
  unfold Machine.frameCompleted
  split
  · rename_i c dst f _
    dsimp only
    refine hI.move ((fillQueue_moves _).trans (delivered_moves _ f _ receipt _)) ?_
    have h0 := hI.idle hs
    unfold releaseSent
    split
    · exact hI.move (s := setBus s .idle) (moves_of_eq ⟨rfl, rfl, rfl⟩ rfl rfl rfl rfl rfl rfl) h0
    · exact hI.move (s := setBus s .idle) (moves_of_eq ⟨rfl, rfl, rfl⟩ rfl rfl rfl rfl rfl rfl) h0
    · exact hI.free _ rfl h0
  · exact hs

theorem Transmits.abortFrame {I : State → Prop} (hI : Transmits I) {s : State} (hs : I s) : I (abortFrame s) := by
  have h0 := hI.move (slotUndriven_moves s) hs
  unfold Machine.abortFrame
  dsimp only
  split
  · split
    · exact hI.idle h0
    · exact h0
  · exact h0

/-! ## Every command -/

/-- A command that answers a state which moves lead to. -/
theorem Transmits.next {I : State → Prop} (hI : Transmits I) {s u t : State} (hs : I s) (m : Moves s u)
    (h : (Host.Outcome.next u : Host.Outcome State Fault Refusal) = .next t) : I t := by
  cases h
  exact hI.move m hs

theorem noteDoor_moves (ch : Channel) (v : BitVec 10) (s : State) : Moves s (noteDoor ch v s) := by
  unfold noteDoor
  split
  · exact moves_of_eq ⟨rfl, rfl, rfl⟩ rfl rfl rfl rfl rfl rfl
  · exact Moves.refl s

theorem supplyReturn_moves (s : State) : Moves s (match s.memb.state with
    | .retention => supplyToRetained s
    | .strapFault => if s.inputs.powerFail then coldStart s else s
    | _ => s) := by
  split
  · exact Moves.ite (fun _ => coldStart_moves s) fun _ =>
      Moves.ite (fun _ => returnZeroised_moves s) (fun _ => warmStart_moves _ s)
  · exact Moves.ite (fun _ => coldStart_moves s) (fun _ => Moves.refl s)
  · exact Moves.refl s

theorem powerFail_moves (s : State) : Moves s (match s.memb.state with
    | .retention => s
    | .strapFault => { s with
        inputs := { s.inputs with powerFail := true }, tamper := { s.tamper with storeValid := false } }
    | _ => enterRetention { s with inputs := { s.inputs with powerFail := true } }) := by
  split
  · exact Moves.refl s
  · exact moves_of_eq ⟨rfl, rfl, rfl⟩ rfl rfl rfl rfl rfl rfl
  · refine Moves.trans ?_ (enterRetention_moves _)
    exact moves_of_eq ⟨rfl, rfl, rfl⟩ rfl rfl rfl rfl rfl rfl

theorem sampleChannel_moves (ch : Channel) (v : BitVec 10) (s : State) : Moves s (sampleChannel ch v s) :=
  (tamper_moves s _).trans (Moves.ite (fun _ => declareTamper_moves _ _) (fun _ => Moves.refl _))

theorem execClearAsserted_moves {s t : State} (h : execClearAsserted s = .next t) : Moves s t := by
  unfold execClearAsserted at h
  split at h
  · cases h; exact Moves.refl s
  · rw [← Host.Outcome.next.inj h]
    refine Moves.trans (t := { s with inputs := { s.inputs with clear := true } })
      (moves_of_eq ⟨rfl, rfl, rfl⟩ rfl rfl rfl rfl rfl rfl) (Moves.trans ?_ (settle_moves _))
    exact Moves.ite (fun _ => moves_of_eq ⟨rfl, rfl, rfl⟩ rfl rfl rfl rfl rfl rfl) (fun _ => Moves.refl _)

theorem clearReleased_moves (s : State) : Moves s { s with inputs := { s.inputs with clear := false } } :=
  moves_of_eq ⟨rfl, rfl, rfl⟩ rfl rfl rfl rfl rfl rfl

theorem presenceLoad_moves (s : State) :
    Moves s (if s.memb.presenceLoading then { s with link := loadPresence s.link } else s) := by
  obtain ⟨h1, h2, h3, h4⟩ := loadPresence_keeps s.link
  exact Moves.ite (fun _ => moves_of_eq ⟨h1, h2, h3⟩ h4 rfl rfl rfl rfl rfl) (fun _ => Moves.refl s)

theorem storePowerLoss_moves (s : State) :
    Moves s (if s.memb.state = .retention then { s with tamper := { s.tamper with storeValid := false } } else s) :=
  Moves.ite (fun _ => tamper_moves s _) (fun _ => Moves.refl s)

/-- Every command keeps what moves and the bus's own changes keep. -/
theorem Transmits.exec {I : State → Prop} (hI : Transmits I) (c : Instr) {s t : State} (hs : I s)
    (ht : Machine.exec c s = .next t) : I t := by
  have settled : ∀ {u : State}, I u → (Host.Outcome.next (settle u) : Host.Outcome State Fault Refusal) = .next t → I t :=
    fun hu h => hI.next hu (settle_moves _) h
  have received : ∀ {h : Header} {f : Frame} {g : State → State}, (∀ s, Moves s (g s)) →
      (Host.Outcome.next (receive h f g s) : Host.Outcome State Fault Refusal) = .next t → I t :=
    fun hg h => hI.next hs (receive_moves _ _ hg s) h
  have receivedPins : ∀ {pins : Pins} {h : Header} {f : Frame} {g : State → State}, (∀ s, Moves s (g s)) →
      (Host.Outcome.next (receive h f g (takePins pins s)) : Host.Outcome State Fault Refusal) = .next t → I t :=
    fun hg h => hI.next hs ((takePins_moves _ s).trans (receive_moves _ _ hg _)) h
  have accepted : ∀ (k : Byte) (change : ChangeKind) (h : Header) (b : OrderBody) (s : State),
      Moves s (orderArrives k (acceptRoundOrder change h b) h b s) :=
    fun k change h b s => orderArrives_moves k h b s (acceptRoundOrder_moves change h b s)
  cases c with
  | supplyReturn pins => exact settled (hI.move ((takePins_moves pins s).trans (supplyReturn_moves _)) hs) ht
  | powerFail pins => exact settled (hI.move ((takePins_moves pins s).trans (powerFail_moves _)) hs) ht
  | clearAsserted => exact hI.move (execClearAsserted_moves ht) hs
  | contention => exact hI.next (hI.contend hs) (Moves.refl _) ht
  | arbitrationEnd won => exact settled (hI.endArbitration won hs) ht
  | frameSent receipt pins => exact settled (hI.frameCompleted receipt (hI.move (takePins_moves pins s) hs)) ht
  | abort => exact hI.next (hI.abortFrame hs) (Moves.refl _) ht
  | receiveError => exact settled (hI.move (receiveError_moves s) hs) ht
  | misplacedFrame raw => exact settled (hI.move (receiveRaw_moves raw s) hs) ht
  | zero h cause => exact received (onZero_moves h cause) ht
  | presence h b => exact received (onPresence_moves h b) ht
  | join h b => exact received (onJoin_moves h b) ht
  | joinFounding h b => exact received (onJoinFounding_moves h b) ht
  | expel h node reason pins => exact receivedPins (onExpel_moves node reason) ht
  | claim h b => exact received (onClaim_moves h b) ht
  | decline h pos reason => exact received (onDecline_moves pos reason) ht
  | unclaimed h pos => exact received (settleFrame_moves pos .unclaimed .unclaimed) ht
  | cancel h line position => exact received (onCancel_moves h line position) ht
  | propose h b => exact received (onPropose_moves h b) ht
  | roundBody h number material check => exact received (onBody_moves h number material check) ht
  | accept h proposer number => exact received (onAccept_moves h proposer number) ht
  | refuse h proposer number reason => exact received (onRefuse_moves h proposer number reason) ht
  | commit h number seq version pins => exact receivedPins (onCommit_moves h number seq version) ht
  | abandon h number reason => exact received (onAbandon_moves h number reason) ht
  | orderActivate h b => exact received (accepted _ _ h b) ht
  | orderSuspend h b => exact received (accepted _ _ h b) ht
  | orderResume h b => exact received (accepted _ _ h b) ht
  | orderRetire h b => exact received (accepted _ _ h b) ht
  | orderDestroy h b => exact received (accepted _ _ h b) ht
  | orderEdit h b => exact received (accepted _ _ h b) ht
  | orderWindowOpen h b => exact received (accepted _ _ h b) ht
  | orderWindowClose h b => exact received (accepted _ _ h b) ht
  | orderRestart h b pins => exact receivedPins (fun s => orderArrives_moves _ h b s (acceptRestart_moves h b s)) ht
  | orderYield h b pins => exact receivedPins (fun s => orderArrives_moves _ h b s (acceptYield_moves h b s)) ht
  | orderErase h b => exact received (fun s => orderArrives_moves _ h b s (zeroise_moves .order (some .order) s)) ht
  | orderUnknownKind h kind b => exact received (fun s => orderArrives_moves kind (accept := id) h b s (Moves.refl s)) ht
  | componentSlot h b => exact received (onComponentSlot_moves h b) ht
  | componentCabinet h b => exact received (onComponentCabinet_moves h b) ht
  | openLine h line => exact received (onOpen_moves h line) ht
  | close h b => exact received (onClose_moves h b) ht
  | cleared h b => exact received (onCleared_moves h b) ht
  | job h b => exact received (fun s => post_moves _ _ _ _ _ _ _ s) ht
  | batch h b => exact received (fun s => post_moves _ _ _ _ _ _ _ s) ht
  | cards h b => exact received (onCards_moves h b) ht
  | answer h body => exact received (g := passedOver) Moves.refl ht
  | final h b => exact received (onFinal_moves h b) ht
  | pull h area start => exact received (onPull_moves h area start) ht
  | image h area item seq contents => exact received (onImage_moves h area item seq contents) ht
  | queryIdentity h tag => exact received (onQuery_moves h tag _) ht
  | queryStatus h tag => exact received (onQuery_moves h tag _) ht
  | querySlot h tag sel => exact received (onQuery_moves h tag _) ht
  | queryLine h tag gateway line => exact received (onQuery_moves h tag _) ht
  | querySensors h tag => exact received (onQuery_moves h tag _) ht
  | report h body => exact received (g := passedOver) Moves.refl ht
  | presenceLoad => exact hI.next hs (presenceLoad_moves s) ht
  | silenceWatchExpiry k => exact settled (hI.move (silenceExpired_moves k s) hs) ht
  | listeningWindowExpiry => exact settled (hI.move (listeningExpired_moves s) hs) ht
  | roundDeadlineExpiry => exact settled (hI.move (roundDeadline_moves s) hs) ht
  | assemblyTimeout a => exact settled (hI.move (areaTimeout_moves a s) hs) ht
  | pullTimerExpiry => exact settled (hI.move (pullTimedOut_moves s) hs) ht
  | verificationTimerExpiry => exact settled (hI.move (verificationTimedOut_moves s) hs) ht
  | deferralTimerExpiry l p => exact settled (hI.move (deferralExpired_moves l p s) hs) ht
  | unclaimedDeadlineExpiry l p => exact settled (hI.move (unclaimedExpired_moves l p s) hs) ht
  | gatewayWatchExpiry g => exact settled (hI.move (gatewayExpired_moves g s) hs) ht
  | cardGapDeadlineExpiry d =>
    exact settled (hI.move (Moves.ite (fun _ => endLoading_moves _ s d) (fun _ => Moves.refl s)) hs) ht
  | channelSample ch reading =>
    exact settled (hI.move ((noteDoor_moves ch reading s).trans
      (Moves.ite (fun _ => sampleChannel_moves ch reading _) (fun _ => Moves.refl _))) hs) ht
  | windowExpiry => exact settled (hI.move (closeWindow_moves s) hs) ht
  | cardCompletion => exact settled (hI.move (completeCard_moves s) hs) ht
  | retainedStorePowerLoss => exact hI.next hs (storePowerLoss_moves s) ht
  | clearReleased => exact hI.next hs (clearReleased_moves s) ht

/-- Every step keeps what commands keep, for a property that does not look at the commands that wait. -/
theorem Transmits.step {I : State → Prop} (hI : Transmits I) {s t : State} (hs : I s) (ht : Machine.step s = .next t) : I t := by
  unfold Machine.step at ht
  split at ht
  · cases ht; exact hs
  · rename_i rest _
    have h0 : Moves s { s with pending := rest } := moves_of_eq ⟨rfl, rfl, rfl⟩ rfl rfl rfl rfl rfl rfl
    exact hI.exec _ (hI.move h0 hs) ht

/-! ## The properties of O56 and O60 -/

theorem orderly_transmits : Transmits Orderly where
  move := Orderly.moves
  idle := orderly_setBus _
  alarm := orderly_setBus _
  presence := orderly_setBus _
  entry := fun _ => orderly_setBus _
  send := fun _ _ _ => orderly_setBus _
  free := fun age _ => orderly_freeEntry age
  hold := orderly_clearHold

theorem candidateQueued_idle {s : State} (h : s.link.bus = .idle) : CandidateQueued s :=
  NoEntryOnBus.candidateQueued (by unfold NoEntryOnBus contendingAge sendingAge; simp [h])

theorem candidateQueued_transmits : Transmits CandidateQueued where
  move := fun h => h.keeps Move.keeps_candidate
  idle := fun _ => candidateQueued_idle rfl
  alarm := fun _ => NoEntryOnBus.candidateQueued ⟨rfl, rfl⟩
  presence := fun _ => NoEntryOnBus.candidateQueued ⟨rfl, rfl⟩
  entry := by
    intro s e he _
    rw [candidateQueued_iff]
    rintro a (ha | ha)
    · cases ha
      exact (entryOf_ne_none_iff _ _).mpr ⟨e, he, rfl⟩
    · cases ha
  send := by
    intro s c d f hb hs age ha
    refine hs age (.inl ?_)
    rcases ha with ha | ⟨d', f', ha⟩
    · cases ha
    · cases ha; exact hb
  free := fun _ hb _ => candidateQueued_idle hb
  hold := by
    intro s age hs
    rw [candidateQueued_iff] at hs ⊢
    intro a ha
    obtain ⟨e, he, hea⟩ := (entryOf_ne_none_iff _ _).mp (hs a ha)
    refine (entryOf_ne_none_iff _ _).mpr ⟨_, List.mem_map_of_mem he, ?_⟩
    split <;> exact hea

theorem notesPlaced_transmits : Transmits NotesPlaced where
  move := fun h => h.keeps Move.keeps_notes
  idle := id
  alarm := id
  presence := id
  entry := fun _ => id
  send := fun _ _ _ => id
  free := fun _ _ => id
  hold := fun _ => id

/-- Settles O56: the capacities and the order of admission are kept by every move of the queue and every change of the bus. -/
theorem stepKeepsCapacities : Obligations.StepKeepsCapacities := by
  intro s t h1 h2 h3 ht
  obtain ⟨g1, g2, g3⟩ := orderly_transmits.step ⟨h1, h2, h3⟩ ht
  exact ⟨g1, g2, g3⟩

/-- Settles O60: no move takes the candidate on the bus out of the queue, and none places a note ahead. -/
theorem stepKeepsReferences : Obligations.StepKeepsReferences :=
  ⟨fun _ _ h ht => candidateQueued_transmits.step h ht, fun _ _ h ht => notesPlaced_transmits.step h ht⟩

end Sys2Proof.Machine


namespace Sys2Proof.Machine

/-! ## The queue's head (R4, R14, R34) -/

theorem txKind_pos (f : TxFrame) : 0 < txKind f := by
  cases f <;> exact Nat.zero_lt_succ _

/-- R3 gives every frame that can be queued one of the classes 1 to 3. -/
theorem txClass_cases (f : TxFrame) : txClass f = 1 ∨ txClass f = 2 ∨ txClass f = 3 := by
  have hk := txKind_pos f
  unfold txClass classOf?
  rw [if_neg (by omega)]
  split
  · simp
  · split
    · simp
    · split <;> simp

/-- Searched class by class, the queue answers its oldest entry of the lowest class among those that may be chosen. -/
theorem queueHead_eq {s : State} {l1 l2 : List TxEntry} {e : TxEntry} (hq : s.link.queue = l1 ++ e :: l2)
    (he : mayChoose s e.frame = true) (older : ∀ x ∈ l1, mayChoose s x.frame = true → txClass e.frame < txClass x.frame)
    (younger : ∀ x ∈ l2, mayChoose s x.frame = true → txClass e.frame ≤ txClass x.frame) : queueHead s = some e := by
  have lower : ∀ c < txClass e.frame, s.link.queue.find? (fun x => txClass x.frame == c && mayChoose s x.frame) = none := by
    intro c hc
    rw [List.find?_eq_none, hq]
    intro x hx hp
    obtain ⟨hxc, hxm⟩ : txClass x.frame = c ∧ mayChoose s x.frame = true := by simpa using hp
    rcases List.mem_append.mp hx with h | h
    · have := older x h hxm; omega
    · rcases List.mem_cons.mp h with rfl | h
      · omega
      · have := younger x h hxm; omega
  have own : s.link.queue.find? (fun x => txClass x.frame == txClass e.frame && mayChoose s x.frame) = some e := by
    rw [hq, List.find?_append, List.find?_eq_none.mpr]
    · simp [he]
    · intro x hx hp
      obtain ⟨hxc, hxm⟩ : txClass x.frame = txClass e.frame ∧ mayChoose s x.frame = true := by simpa using hp
      have := older x hx hxm; omega
  unfold queueHead
  rcases txClass_cases e.frame with h | h | h <;> rw [h] at lower own
  · simp [own]
  · simp [own, lower 1 (by omega)]
  · simp [own, lower 1 (by omega), lower 2 (by omega)]

theorem queueHead_eq_none {s : State} (h : ∀ e ∈ s.link.queue, mayChoose s e.frame = false) : queueHead s = none := by
  unfold queueHead
  rw [List.findSome?_eq_none_iff]
  intro c _
  rw [List.find?_eq_none]
  intro e he
  simp [h e he]

theorem contend_of_candidate {s : State} {c : Candidate} (hb : s.link.bus = .idle) (ho : onLink s = true)
    (hc : candidate s = some c) : contend s = setBus s (.contending c) := by
  simp only [contend, hb, ho, hc, if_true]

theorem contend_of_none {s : State} (hc : candidate s = none) : contend s = s := by
  unfold contend
  rw [hc]
  split
  · exact ite_self s
  · rfl

theorem contend_of_blocked {s : State} (h : s.link.bus ≠ .idle ∨ onLink s = false) : contend s = s := by
  unfold contend
  split
  · rename_i hb
    rw [if_neg (by simpa using h.resolve_left (· hb))]
  · rfl

/-- Settles O9: the candidate, register by register and then class by class. -/
theorem contentionChoosesCandidate : Obligations.ContentionChoosesCandidate := by
  refine ⟨?_, ?_, ?_, ?_, ?_⟩
  · intro s hb ho ha
    exact congrArg _ (contend_of_candidate hb ho (by simp [candidate, Option.isSome_iff_ne_none, ha]))
  · intro s hb ho ha hp
    exact congrArg _ (contend_of_candidate hb ho (by simp [candidate, ha, hp]))
  · intro s l1 l2 e hb ho ha hp hq he older younger
    exact congrArg _ (contend_of_candidate hb ho (by simp [candidate, ha, hp, queueHead_eq hq he older younger]))
  · intro s ha hp hn
    exact congrArg _ (contend_of_none (by simp [candidate, ha, hp, queueHead_eq_none hn]))
  · intro s h
    exact congrArg _ (contend_of_blocked h)

end Sys2Proof.Machine


namespace Sys2Proof.Machine

/-! ## What the end of a step does to the transmit queue -/

/-- The frames that the end of a step may ask for (R64, R86, R127, R129, R188). -/
def isSettleFrame : TxFrame → Bool
  | .claim _ | .decline _ _ | .propose _ | .roundReport _ _ | .queryReport _ => true
  | _ => false

/-- A change that leaves the link, the station state, the queries, the pool and the engine alone. -/
structure Beside (s t : State) : Prop where
  link : t.link = s.link
  state : t.memb.state = s.memb.state
  queries : t.rep.queries = s.rep.queries
  pool : t.pool = s.pool
  engine : t.engine = s.engine

/-- A property that the end of a step keeps up to the queries: frames asked for, the settlement frames that a LIVE station withdraws
for a position, claims returned and granted, and changes beside all that. -/
structure ReactKeeps (I : State → Prop) : Prop where
  request : ∀ {f s}, isSettleFrame f = true → isQueryReport f = false → I s → I (request f s)
  claims : ∀ {s} (pos : PosRef), isLive s = true → I s → I (retract (isClaimFor pos) s)
  declines : ∀ {s} (pos : PosRef), isLive s = true → I s → I (retract (isDeclineFor pos) s)
  returns : ∀ (fs : List TxFrame) {s}, I s → I (returnClaims fs s)
  grants : ∀ (pos : PosRef) (x : Position) (note : PostingNote) {s}, I s → I (grantClaim pos x note s).2
  beside : ∀ {s t}, Beside s t → I s → I t

theorem returnClaims_station (fs : List TxFrame) (s : State) : (returnClaims fs s).memb.state = s.memb.state :=
  ((returnClaims_sameBut fs s) .station (by decide)).1

/-- A property that no change outside the link, the station state and the queries touches. -/
theorem ReactKeeps.of_aside {I : State → Prop}
    (request : ∀ {f s}, isSettleFrame f = true → isQueryReport f = false → I s → I (Machine.request f s))
    (claims : ∀ {s} (pos : PosRef), isLive s = true → I s → I (retract (isClaimFor pos) s))
    (declines : ∀ {s} (pos : PosRef), isLive s = true → I s → I (retract (isDeclineFor pos) s))
    (aside : ∀ (s : State) {t}, t.link = s.link → t.memb.state = s.memb.state → t.rep.queries = s.rep.queries → I s → I t) :
    ReactKeeps I where
  request := request
  claims := claims
  declines := declines
  returns := fun fs s => aside s (returnClaims_link fs s) (returnClaims_station fs s) ((returnClaims_sameBut fs s) .queries (by decide))
  grants := fun pos x note s => aside s (grantClaim_link pos x note s) ((grantClaim_sameBut pos x note s) .station (by decide)).1
    ((grantClaim_sameBut pos x note s) .queries (by decide))
  beside := fun {s _} h => aside s h.link h.state h.queries

/-- A property that the whole end of a step keeps: also the REPORT of the query at the head asked for, where none is pending, or the
query gone that the state does not answer (R188). -/
structure SettleKeeps (I : State → Prop) : Prop extends ReactKeeps I where
  ask : ∀ {s : State} {q : Query} {rest : List Query}, s.rep.queries = q :: rest → hasPending s isQueryReport = false →
    queryAnswered s.memb.state q.arg = true → I s → I (Machine.request (.queryReport q) s)
  skip : ∀ {s : State} {q : Query} {rest : List Query}, s.rep.queries = q :: rest → hasPending s isQueryReport = false →
    queryAnswered s.memb.state q.arg = false → I s → I { s with rep := { s.rep with queries := rest } }

/-- A property that no query's REPORT and no change of the query queue touches. -/
theorem SettleKeeps.of_link {I : State → Prop} (request : ∀ {f s}, isSettleFrame f = true → I s → I (Machine.request f s))
    (claims : ∀ {s} (pos : PosRef), isLive s = true → I s → I (retract (isClaimFor pos) s))
    (declines : ∀ {s} (pos : PosRef), isLive s = true → I s → I (retract (isDeclineFor pos) s))
    (aside : ∀ (s : State) {t}, t.link = s.link → t.memb.state = s.memb.state → I s → I t) : SettleKeeps I where
  toReactKeeps := .of_aside (fun hf _ => request hf) claims declines fun s _ hl hm _ => aside s hl hm
  ask := fun _ _ _ => request rfl
  skip := fun {s} _ _ _ _ _ => aside s rfl rfl

theorem freeQueuedArea_beside (item : CustodyItem) (s : State) : Beside s (freeQueuedArea item s) := by
  unfold freeQueuedArea
  split <;> exact ⟨rfl, rfl, rfl, rfl, rfl⟩

section

variable {I : State → Prop}

theorem ReactKeeps.considerPosition (hI : ReactKeeps I) {s : State} (hlive : isLive s = true) (l : LineId) (p : PosId)
    (hs : I s) : I (considerPosition s l p) := by
  unfold Machine.considerPosition
  dsimp only
  split
  · exact hs
  · split
    · have hr := hI.returns (takenBy s.link (isClaimFor (posRefOf (entryAt s l) p))) (hI.claims (posRefOf (entryAt s l) p) hlive hs)
      split
      · split
        · exact hr
        · exact hI.request rfl rfl hr
      · refine hI.declines _ ?_ hr
        unfold isLive
        rw [((retractClaims_sameBut (isClaimFor (posRefOf (entryAt s l) p)) s) .station (by decide)).1]
        exact hlive
    · have hr := hI.declines (posRefOf (entryAt s l) p) hlive hs
      split
      · exact hr
      · rename_i note _
        split
        · have hg := hI.grants (posRefOf (entryAt s l) p) (tget (entryAt s l).positions p) note hr
          split <;> rename_i e <;> rw [e] at hg
          · exact hI.request rfl rfl hg
          · exact hg
        · exact hr

theorem ReactKeeps.considerList (hI : ReactKeeps I) (ps : List (Nat × LineId × PosId)) {s : State} (hlive : isLive s = true)
    (hs : I s) : I (ps.foldl (fun s x => Machine.considerPosition s x.2.1 x.2.2) s)
      ∧ isLive (ps.foldl (fun s x => Machine.considerPosition s x.2.1 x.2.2) s) = true := by
  induction ps generalizing s with
  | nil => exact ⟨hs, hlive⟩
  | cons x ps ih =>
    have hm := ((considerPosition_sameBut s x.2.1 x.2.2) .station (by decide)).1
    exact ih (by unfold isLive; rw [hm]; exact hlive) (hI.considerPosition hlive x.2.1 x.2.2 hs)

theorem ReactKeeps.considerLoop (hI : ReactKeeps I) (k : Nat) {s : State} (hlive : isLive s = true) (hs : I s) :
    I (considerLoop k s) := by
  induction k generalizing s with
  | zero => exact hI.beside (s := s) ⟨rfl, rfl, rfl, rfl, rfl⟩ hs
  | succ k ih =>
    rw [Machine.considerLoop]
    split
    · obtain ⟨hr, hl⟩ := hI.considerList (sortPosted (postedPositions { s with lines := { s.lines with notice := false } }))
        (s := { s with lines := { s.lines with notice := false } }) hlive (hI.beside (s := s) ⟨rfl, rfl, rfl, rfl, rfl⟩ hs)
      exact ih hl hr
    · exact hs

theorem ReactKeeps.considerPosted (hI : ReactKeeps I) {s : State} (hs : I s) : I (considerPosted s) := by
  unfold Machine.considerPosted
  split
  · exact hI.considerLoop 64 ‹_› hs
  · exact hI.beside (s := s) ⟨rfl, rfl, rfl, rfl, rfl⟩ hs

theorem ReactKeeps.endItem (hI : ReactKeeps I) (o : OrderOutcome) (d : Byte) (v : Half) (q : Word) {s : State} (hs : I s) :
    I (endItem o d v q s) := by
  unfold Machine.endItem
  split
  · exact hI.beside (s := s) ⟨rfl, rfl, rfl, rfl, rfl⟩ hs
  · refine hI.beside (freeQueuedArea_beside _ _) ?_
    exact hI.beside (s := Machine.request _ s) ⟨rfl, rfl, rfl, rfl, rfl⟩ (hI.request rfl rfl hs)

theorem ReactKeeps.takeRoom (hI : ReactKeeps I) {s : State} (hs : I s) : I (takeRoom s) := by
  unfold Machine.takeRoom
  split
  · split
    · exact hs
    · exact hI.beside (s := s) ⟨rfl, rfl, rfl, rfl, rfl⟩ hs
  · exact hs

theorem ReactKeeps.admissionCheck (hI : ReactKeeps I) {s : State} (hs : I s) : I (admissionCheck s) := by
  unfold Machine.admissionCheck
  split
  · split
    · split
      · exact hI.endItem _ _ _ _ hs
      · exact hI.request rfl rfl (hI.beside (s := s) ⟨rfl, rfl, rfl, rfl, rfl⟩ hs)
    · exact hs
  · exact hs

theorem ReactKeeps.custodyLoop (hI : ReactKeeps I) (k : Nat) {s : State} (hs : I s) : I (custodyLoop k s) := by
  induction k generalizing s with
  | zero => exact hs
  | succ k ih => exact ih (hI.admissionCheck (hI.takeRoom (hI.takeRoom hs)))

/-- What the end of a step does before it serves queries keeps such a property. -/
theorem ReactKeeps.reacts (hI : ReactKeeps I) {s : State} (hs : I s) : I (Machine.considerPosted (custodyWork s)) :=
  hI.considerPosted (hI.custodyLoop 8 hs)

theorem SettleKeeps.serveQueriesLoop (hI : SettleKeeps I) (k : Nat) {s : State} (hs : I s) : I (serveQueriesLoop k s) := by
  induction k generalizing s with
  | zero => exact hs
  | succ k ih =>
    unfold Machine.serveQueriesLoop
    split
    · exact hs
    · rename_i hq
      split
      · exact hs
      · rename_i hn
        have hn' : hasPending s isQueryReport = false := by simpa using hn
        split
        · exact ih (hI.ask hq hn' ‹_› hs)
        · rename_i ha
          exact ih (hI.skip hq hn' (by simpa using ha) hs)

/-- The end of a step keeps such a property. -/
theorem SettleKeeps.settle (hI : SettleKeeps I) {s : State} (hs : I s) : I (settle s) :=
  hI.serveQueriesLoop _ (hI.toReactKeeps.reacts hs)

end

/-! ## Frames that are not there -/

/-- No frame with a property is queued or pending. -/
theorem noFrame_iff (s : State) (p : TxFrame → Bool) :
    hasFrame s p = false ↔ (∀ f ∈ s.link.admissions, p f = false) ∧ ∀ e ∈ s.link.queue, p e.frame = false := by
  unfold hasFrame
  simp [List.any_eq_false]

theorem noFrame_placeFrame {p : TxFrame → Bool} (hp : NoAnswer p) {f : TxFrame} {s : State} (hf : p f = false)
    (h : hasFrame s p = false) : hasFrame (placeFrame f s) p = false := by
  obtain ⟨f', hq, hf'⟩ := placeFrame_queue f s
  rw [noFrame_iff] at h ⊢
  obtain ⟨ha, hqs⟩ := h
  rw [placeFrame_admissions, hq]
  refine ⟨ha, fun e he => ?_⟩
  rcases List.mem_append.mp he with he | he
  · exact hqs e he
  · rw [List.mem_singleton.mp he]
    rcases hf' with rfl | ⟨j, g, n, b, b', rfl, rfl⟩
    · exact hf
    · exact hp ..

theorem noFrame_request {p : TxFrame → Bool} (hp : NoAnswer p) {f : TxFrame} {s : State} (hf : p f = false)
    (h : hasFrame s p = false) : hasFrame (request f s) p = false := by
  unfold request
  split
  · exact noFrame_placeFrame hp hf h
  · rw [noFrame_iff] at h ⊢
    obtain ⟨ha, hq⟩ := h
    refine ⟨fun g hg => ?_, hq⟩
    rcases List.mem_append.mp hg with hg | hg
    · exact ha g hg
    · rw [List.mem_singleton.mp hg]; exact hf

theorem noFrame_fillLoop {p : TxFrame → Bool} (hp : NoAnswer p) (k : Nat) {s : State} (h : hasFrame s p = false) :
    hasFrame (fillLoop k s) p = false := by
  induction k generalizing s with
  | zero => exact h
  | succ k ih =>
    unfold fillLoop
    split
    · exact h
    · split
      · exact h
      · rename_i f hf
        obtain ⟨ha, hq⟩ := (noFrame_iff _ _).mp h
        refine ih (noFrame_placeFrame hp (ha f (List.mem_of_getElem? hf)) ?_)
        rw [noFrame_iff]
        exact ⟨fun g hg => ha g (List.mem_of_mem_eraseIdx hg), hq⟩

/-- A withdrawal that leaves no entry with a property leaves no frame with it. -/
theorem noFrame_retracted {p q : TxFrame → Bool} (hp : NoAnswer p) {s : State}
    (ha : ∀ f ∈ s.link.admissions, q f = false → p f = false)
    (hq : ∀ e ∈ s.link.queue, (q e.frame && isWaiting s.link e) = false → p e.frame = false) :
    hasFrame (retract q s) p = false := by
  unfold retract fillQueue
  refine noFrame_fillLoop hp _ ((noFrame_iff _ _).mpr ⟨?_, ?_⟩)
  · intro f hf
    obtain ⟨hm, hn⟩ := List.mem_filter.mp hf
    exact ha f hm (by simpa using hn)
  · intro e he
    obtain ⟨x, hx, rfl⟩ := List.mem_map.mp he
    obtain ⟨hm, hn⟩ := List.mem_filter.mp hx
    rw [holdEntry_frame]
    exact hq x hm (Bool.eq_false_of_not_eq_true' hn)

theorem noFrame_retract {p : TxFrame → Bool} (hp : NoAnswer p) (q : TxFrame → Bool) {s : State} (h : hasFrame s p = false) :
    hasFrame (retract q s) p = false := by
  obtain ⟨ha, hq⟩ := (noFrame_iff _ _).mp h
  exact noFrame_retracted hp (fun f hf _ => ha f hf) (fun e he _ => hq e he)

/-- The end of a step asks for no frame of other kinds than its own. -/
theorem noFrame_settleKeeps {p : TxFrame → Bool} (hp : NoAnswer p) (hn : ∀ f, isSettleFrame f = true → p f = false) :
    SettleKeeps (fun s => hasFrame s p = false) :=
  .of_link (fun hf h => noFrame_request hp (hn _ hf) h) (fun _ _ h => noFrame_retract hp _ h)
    (fun _ _ h => noFrame_retract hp _ h) (fun _ _ hl _ h => by rw [hasFrame_of_link hl]; exact h)

/-! ## Entries that stay -/

theorem mem_queue_placeFrame (f : TxFrame) {s : State} {e : TxEntry} (he : e ∈ s.link.queue) : e ∈ (placeFrame f s).link.queue := by
  obtain ⟨f', hq, -⟩ := placeFrame_queue f s
  rw [hq]; exact List.mem_append_left _ he

theorem mem_queue_request (f : TxFrame) {s : State} {e : TxEntry} (he : e ∈ s.link.queue) : e ∈ (request f s).link.queue := by
  unfold request
  split
  · exact mem_queue_placeFrame f he
  · exact he

/-- A station that is not LIVE withdraws nothing at the end of a step: every entry stays. -/
theorem mem_queue_settleKeeps (e : TxEntry) : SettleKeeps (fun s => isLive s = false ∧ e ∈ s.link.queue) := by
  refine .of_link (fun {f s} _ h => ⟨?_, mem_queue_request f h.2⟩) ?_ ?_ (fun s t hlink hm h => ⟨?_, by rw [hlink]; exact h.2⟩)
  · unfold isLive
    rw [((request_sameBut f s) .station (by decide)).1]
    exact h.1
  · intro s _ hl h
    rw [h.1] at hl; cases hl
  · intro s _ hl h
    rw [h.1] at hl; cases hl
  · unfold isLive
    rw [hm]
    exact h.1

/-- The entry with an age is in transmission and looks like this. -/
def SendsEntry (age : Nat) (e : TxEntry) (s : State) : Prop := sendingAge s.link = some age ∧ entryOf s.link age = some e

theorem SendsEntry.placeFrame {age : Nat} {e : TxEntry} {s : State} (h : SendsEntry age e s) (f : TxFrame) :
    SendsEntry age e (placeFrame f s) := by
  obtain ⟨f', hq, -⟩ := placeFrame_queue f s
  refine ⟨by rw [sendingAge_of_bus (placeFrame_bus f s)]; exact h.1, ?_⟩
  have he := h.2
  unfold entryOf at he ⊢
  rw [hq, List.find?_append, he]
  rfl

theorem SendsEntry.request {age : Nat} {e : TxEntry} {s : State} (h : SendsEntry age e s) (f : TxFrame) :
    SendsEntry age e (request f s) := by
  unfold Machine.request
  split
  · exact h.placeFrame f
  · exact h

theorem SendsEntry.fillLoop {age : Nat} {e : TxEntry} (k : Nat) {s : State} (h : SendsEntry age e s) :
    SendsEntry age e (fillLoop k s) := by
  induction k generalizing s with
  | zero => exact h
  | succ k ih =>
    unfold Machine.fillLoop
    split
    · exact h
    · rename_i i _
      split
      · exact h
      · have h' : SendsEntry age e { s with link := { s.link with admissions := s.link.admissions.eraseIdx i } } := h
        exact ih (h'.placeFrame _)

/-- The entry in transmission refuses a withdrawal (R18). -/
theorem SendsEntry.retract {age : Nat} {e : TxEntry} {s : State} (h : SendsEntry age e s) (p : TxFrame → Bool) :
    SendsEntry age e (retract p s) := by
  obtain ⟨hb, he⟩ := h
  have hc : contendingAge s.link = none := by
    unfold sendingAge at hb
    unfold contendingAge
    split at hb
    · rename_i hbus; rw [hbus]
    · cases hb
  have hold : ∀ x, holdEntry s.link p .withdraw x = x := fun x => by simp [holdEntry, hc]
  refine SendsEntry.fillLoop _ ⟨hb, ?_⟩
  unfold entryOf at he ⊢
  show ((s.link.queue.filter _).map (holdEntry s.link p .withdraw)).find? _ = _
  rw [funext hold, List.map_id', List.find?_filter, ← he]
  refine List.find?_congr fun x _ => ?_
  by_cases hx : x.age = age
  · simp [isWaiting, hb, hx]
  · simp [hx]

theorem sendsEntry_settleKeeps (age : Nat) (e : TxEntry) : SettleKeeps (SendsEntry age e) :=
  .of_link (fun _ h => h.request _) (fun _ _ h => h.retract _) (fun _ _ h => h.retract _)
    (fun _ _ hl _ h => by unfold SendsEntry; rw [hl]; exact h)

end Sys2Proof.Machine


namespace Sys2Proof.Machine

/-! ## Saturating counters (R190) -/

theorem raise16_toNat (c : Half) : (raise16 c).toNat = min 65535 (c.toNat + 1) := by
  have hc : c.toNat < 65536 := c.isLt
  unfold raise16
  split
  · omega
  · rw [BitVec.toNat_add]
    show (c.toNat + 1) % 65536 = _
    omega

/-! ## Frames that are counted and ignored (R10, R12, R13) -/

/-- A command that ends with a settled state yields what holds of it. -/
theorem yields_settle {c : Instr} {s u v : State} {P : State → Prop} (hx : exec c s = .next (settle u)) (hu : u = v)
    (h : P (settle v)) : Yields c s P := ⟨settle v, by rw [hx, hu], h⟩

theorem countMisplaced_sameBut (s : State) : SameBut [.misplaced] s (countMisplaced s) := by
  intro p hp
  cases p <;> first | rfl | exact ⟨rfl, rfl⟩ | exact ⟨rfl, rfl, rfl⟩ | exact absurd (by decide) hp

theorem countNonMember_sameBut (s : State) : SameBut [.nonMember] s (countNonMember s) := by
  intro p hp
  cases p <;> first | rfl | exact ⟨rfl, rfl⟩ | exact ⟨rfl, rfl, rfl⟩ | exact absurd (by decide) hp

theorem takePins_sameBut (pins : Pins) (s : State) : SameBut [.inputs] s (takePins pins s) := by
  intro p hp
  cases p <;> first | rfl | exact ⟨rfl, rfl⟩ | exact ⟨rfl, rfl, rfl⟩ | exact absurd (by decide) hp

/-- Bits that spell no frame, or one that does not fit, are counted as misplaced (R12). -/
theorem receiveRaw_misplaced {raw : RawFrame} {s : State} (ho : onLink s = true) (hl : raw.body.length ≤ 96)
    (hm : ∀ f, rawFrame? raw = some f → frameMisplaced f (stationCount s) (rawHeader raw) = true) :
    receiveRaw raw s = countMisplaced (receivedIntact s) := by
  unfold receiveRaw
  rw [if_neg (by simpa [Config.maxBody] using hl)]
  split
  · exact if_pos ho
  · rename_i f hf
    unfold filterFrame
    rw [if_pos ho, if_pos (hm f hf)]

theorem receiveRaw_tooLong {raw : RawFrame} {s : State} (hl : 96 < raw.body.length) : receiveRaw raw s = receiveError s :=
  if_pos hl

theorem receiveError_offLink {s : State} (ho : onLink s = false) : receiveError s = slotUndriven s := by
  unfold receiveError
  rw [ho]; rfl

theorem receiveRaw_offLink (raw : RawFrame) {s : State} (ho : onLink s = false) : receiveRaw raw s = slotUndriven s := by
  unfold receiveRaw filterFrame
  rw [receiveError_offLink ho, ho]
  split
  · rfl
  · split <;> rfl

/-- A slot left undriven, then the end of the step. -/
theorem settle_slotUndriven (s : State) : (settle (slotUndriven s)).link.slotDriven = false
    ∧ SameBut (.slotDriven :: reacting) s (settle (slotUndriven s)) :=
  ⟨settle_sameBut (slotUndriven s) .slotDriven (by decide), (slotUndriven_sameBut s).comp (settle_sameBut _)
    (by decide) (by decide)⟩

/-- The frame that a member's command is, as the command takes it: through the receive filter, with the pins where they are given. -/
theorem exec_memberCommand {h : Header} {f : Frame} {c : Instr} {pins : Pins} (s : State) (hc : memberCommand h f pins = some c) :
    ∃ g s', exec c s = .next (receive h f g s') ∧ (s' = s ∨ s' = takePins pins s) := by
  unfold memberCommand at hc
  split at hc <;> cases hc
  case h_1 => exact ⟨_, _, rfl, .inr rfl⟩
  case h_9 => exact ⟨_, _, rfl, .inr rfl⟩
  all_goals exact ⟨_, _, rfl, .inl rfl⟩

theorem memberCommand_needsMember {h : Header} {f : Frame} {c : Instr} {pins : Pins} (hc : memberCommand h f pins = some c) :
    frameNeedsMember f = true := by
  unfold memberCommand at hc
  split at hc <;> cases hc <;> rfl

/-- A frame that only members send is broadcast (R11). -/
theorem broadcast_of_needsMember {f : Frame} {n : Nat} {h : Header} (hm : frameMisplaced f n h = false)
    (hf : frameNeedsMember f = true) : h.dst.broadcast = true := by
  have fits : frameAddressingFits f h.dst = true := by
    unfold frameMisplaced at hm
    simp only [Bool.not_eq_false', Bool.and_eq_true] at hm
    exact hm.1.2
  unfold frameNeedsMember at hf
  split at hf
  all_goals first | exact fits | cases hf

theorem onLink_of_applies {s : State} (h : applies s = true) : onLink s = true := by
  unfold applies isLive inCatchup at h
  unfold onLink
  cases hs : s.memb.state <;> simp [hs] at h ⊢

/-- A frame from outside the live set: it is counted, driven and ignored (R13). -/
theorem receive_outsider {h : Header} {f : Frame} {c : Instr} {pins : Pins} (g : State → State) {s : State}
    (hc : memberCommand h f pins = some c) (hm : frameMisplaced f (stationCount s) h = false) (ha : applies s = true)
    (hl : setHas s.memb.live h.src.val = false) (hr : roleOf (stationCount s) h.src = .station) :
    receive h f g s = settle (countNonMember (receivedIntact s)) := by
  have hn := memberCommand_needsMember hc
  refine receive_nonMember g (onLink_of_applies ha) hm ?_ ?_
  · simp [passesOver, broadcast_of_needsMember hm hn]
  · simp [failsMembership, ha, hr, hn, hl]

/-- What a frame that is counted as a non-member's leaves. -/
theorem settle_countNonMember (s : State) :
    (settle (countNonMember (receivedIntact s))).link.nonMember.toNat = min 65535 (s.link.nonMember.toNat + 1)
    ∧ SameBut (.nonMember :: stationFrame) s (settle (countNonMember (receivedIntact s))) := by
  refine ⟨?_, ((receivedIntact_sameBut s).comp (countNonMember_sameBut _) (by decide) (by decide)).comp (settle_sameBut _)
    (c := .nonMember :: [.slotDriven, .wirePlace]) (by decide) (by decide)⟩
  have hs : (settle (countNonMember (receivedIntact s))).link.nonMember = raise16 s.link.nonMember :=
    settle_sameBut _ .nonMember (by decide)
  rw [hs, raise16_toNat]

/-! ## Receive errors (R10) -/

/-- A receive error as it is counted, before the membership unit acts on it. -/
def countReceiveError (s : State) : State :=
  { s with link := { s.link with receiveErrors := raise16 s.link.receiveErrors, slotDriven := false } }

theorem countReceiveError_sameBut (s : State) : SameBut [.receiveErrors, .slotDriven] s (countReceiveError s) := by
  intro p hp
  cases p <;> first | rfl | exact ⟨rfl, rfl⟩ | exact ⟨rfl, rfl, rfl⟩ | exact absurd (by decide) hp

theorem receiveError_onLink {s : State} (ho : onLink s = true) : receiveError s = receiveErrorFound (countReceiveError s) :=
  if_pos ho

theorem receiveErrorFound_live {s : State} (h : s.memb.state = .live) : receiveErrorFound s = selfExpel .receiveError s := by
  unfold receiveErrorFound; rw [h]

theorem receiveErrorFound_catchup {s : State} (h : s.memb.state = .catchup) :
    receiveErrorFound s = findFailure .receiveError s := by
  unfold receiveErrorFound; rw [h]

theorem receiveErrorFound_other {s : State} (hl : s.memb.state ≠ .live) (hc : s.memb.state ≠ .catchup) :
    receiveErrorFound s = s := by
  unfold receiveErrorFound
  split
  · exact absurd ‹_› hl
  · exact absurd ‹_› hc
  · rfl

theorem receiveErrorFound_counters (s : State) : (receiveErrorFound s).link.receiveErrors = s.link.receiveErrors
    ∧ (receiveErrorFound s).link.slotDriven = s.link.slotDriven := by
  unfold receiveErrorFound
  split
  · exact ⟨selfExpel_sameBut _ s .receiveErrors (by decide), selfExpel_sameBut _ s .slotDriven (by decide)⟩
  · exact ⟨findFailure_sameBut _ s .receiveErrors (by decide), findFailure_sameBut _ s .slotDriven (by decide)⟩
  · exact ⟨rfl, rfl⟩

/-- A receive error at a station on the link is counted and its slot not driven, whatever the membership unit finds. -/
theorem settle_receiveError {s : State} (ho : onLink s = true) :
    (settle (receiveError s)).link.receiveErrors.toNat = min 65535 (s.link.receiveErrors.toNat + 1)
    ∧ (settle (receiveError s)).link.slotDriven = false := by
  obtain ⟨hc, hd⟩ := receiveErrorFound_counters (countReceiveError s)
  have e1 : (settle (receiveError s)).link.receiveErrors = (receiveError s).link.receiveErrors :=
    settle_sameBut _ .receiveErrors (by decide)
  have e2 : (settle (receiveError s)).link.slotDriven = (receiveError s).link.slotDriven :=
    settle_sameBut _ .slotDriven (by decide)
  rw [e1, e2, receiveError_onLink ho, hc, hd]
  exact ⟨raise16_toNat _, rfl⟩

/-- Settles O13: each frame by the branch of the filter that ends it. -/
theorem filteredFramesAreCounted : Obligations.FilteredFramesAreCounted := by
  refine ⟨?_, ?_, ?_, ?_⟩
  · intro raw s ho hl hm
    refine yields_settle rfl (receiveRaw_misplaced ho hl hm) ?_
    have hs : (settle (countMisplaced (receivedIntact s))).link.misplaced = raise16 s.link.misplaced :=
      settle_sameBut _ .misplaced (by decide)
    refine ⟨by rw [hs, raise16_toNat], settle_sameBut (countMisplaced (receivedIntact s)) .slotDriven (by decide), ?_⟩
    exact ((receivedIntact_sameBut s).comp (countMisplaced_sameBut _) (by decide) (by decide)).comp (settle_sameBut _)
      (c := .misplaced :: [.slotDriven, .wirePlace]) (by decide) (by decide)
  · intro raw s ho hl
    exact yields_settle rfl (receiveRaw_tooLong hl) (settle_receiveError ho)
  · intro raw s ho
    exact yields_settle rfl (receiveRaw_offLink raw ho) (settle_slotUndriven s)
  · intro h f c pins s hc hm ha hl hr
    obtain ⟨g, s', hx, hs⟩ := exec_memberCommand s hc
    rcases hs with rfl | rfl
    · refine ⟨_, hx.trans (congrArg _ (receive_outsider g hc hm ha hl hr)), (settle_countNonMember s').1, ?_⟩
      exact (settle_countNonMember s').2.mono (by decide)
    · refine ⟨_, hx.trans (congrArg _ (receive_outsider g hc hm ha hl hr)), (settle_countNonMember (takePins pins s)).1, ?_⟩
      exact (takePins_sameBut pins s).comp (settle_countNonMember _).2 (by decide) (by decide)

end Sys2Proof.Machine


namespace Sys2Proof.Machine

/-! ## The failure of an attempt (R119) -/

theorem startAttempt_memb (k : StationId) (s : State) : (startAttempt k s).memb = s.memb :=
  (startAttempt_sameBut k s).memb (by decide)

theorem queuePull_catchUp (s : State) : (queuePull s).catchUp = s.catchUp := (queuePull_sameBut s).catchUp (by decide)

theorem startAttempt_catchUp (k : StationId) (s : State) : (startAttempt k s).catchUp = { s.catchUp with
    phase := .pulling, source := some k, pullIndex := 1, awaited := [], pullTimer := false, verifyTimer := false,
    joinFailure := none, attempts := raise16 s.catchUp.attempts } := queuePull_catchUp _

/-- An attempt's failure as it stands when the next thing to do is chosen: no PULL left, the rounds closed up, the failure counted. -/
def failureCounted (s : State) : State :=
  let u := markPullsStale (retract isPull s)
  let u := setRounds u (closeUp u.rounds.list)
  setCatchUp u { u.catchUp with
    pullTimer := false, verifyTimer := false, joinFailure := none, failures := u.catchUp.failures + 1 }

theorem failAttempt_eq (s : State) : failAttempt s =
    if 3 ≤ (failureCounted s).catchUp.failures then enterDetached .failed (failureCounted s)
    else if (failureCounted s).memb.live = 0#8 then enterListening (failureCounted s)
    else nextAttempt s.catchUp.source (failureCounted s) := rfl

theorem failureCounted_keeps (s : State) : (failureCounted s).memb = s.memb ∧ (failureCounted s).straps = s.straps
    ∧ (failureCounted s).catchUp = { s.catchUp with
        pullTimer := false, verifyTimer := false, joinFailure := none, failures := s.catchUp.failures + 1 } := by
  have h := retract_sameBut isPull s
  have hc : (retract isPull s).catchUp = s.catchUp := h.catchUp (by decide)
  refine ⟨h.memb (by decide), h .straps (by decide), ?_⟩
  show { (retract isPull s).catchUp with
    pullTimer := false, verifyTimer := false, joinFailure := none, failures := (retract isPull s).catchUp.failures + 1 } = _
  rw [hc]

/-- The choice of a source looks at the live set, the peer records and the own number only (R110). -/
theorem chooseSource_of_eq {s t : State} (hm : t.memb = s.memb) (hs : t.straps = s.straps) (f : Option StationId) :
    chooseSource t f = chooseSource s f := by
  have hself : self t = self s := by unfold self; simp only [hs]
  unfold chooseSource members qualifies
  rw [hself, hm]

/-- What a failed attempt leaves depends on the membership, the straps and the catch-up unit alone. -/
theorem AttemptFailed.of_eq {s s' t t' : State} (hm : s'.memb = s.memb) (hs : s'.straps = s.straps) (hc : s'.catchUp = s.catchUp)
    (hm' : t'.memb = t.memb) (hc' : t'.catchUp = t.catchUp) (h : AttemptFailed s t) : AttemptFailed s' t' := by
  unfold AttemptFailed at h ⊢
  rw [hm', hc', hm, hc, chooseSource_of_eq hm hs]
  exact h

/-- A failed attempt is counted, and goes where R119 says. -/
theorem failAttempt_attemptFailed {s : State} (hst : s.memb.state = .catchup) : AttemptFailed s (failAttempt s) := by
  obtain ⟨hm, hs, hc⟩ := failureCounted_keeps s
  have hf : (failureCounted s).catchUp.failures = s.catchUp.failures + 1 := by rw [hc]
  have ha : (failureCounted s).catchUp.attempts = s.catchUp.attempts := by rw [hc]
  rw [failAttempt_eq, hf, hm]
  unfold AttemptFailed
  by_cases h3 : 3 ≤ s.catchUp.failures + 1
  · rw [if_pos h3, if_pos h3]
    exact ⟨hf, rfl, rfl, rfl⟩
  · rw [if_neg h3, if_neg h3]
    by_cases h0 : s.memb.live = 0#8
    · rw [if_pos h0, if_pos h0]
      exact ⟨hf, rfl, rfl, rfl⟩
    · rw [if_neg h0, if_neg h0]
      unfold nextAttempt
      rw [chooseSource_of_eq hm hs]
      cases chooseSource s s.catchUp.source with
      | none => exact ⟨hf, rfl, rfl, rfl⟩
      | some k =>
        dsimp only
        rw [startAttempt_catchUp, startAttempt_memb, hm]
        exact ⟨hf, hst, rfl, rfl, rfl, by rw [ha, raise16_toNat]⟩

/-! ## The failure found in JOINING (R118) -/

/-- No JOIN is asked for by a failed attempt or the end of the step. -/
theorem noJoin_noAnswer : NoAnswer isJoin := fun _ _ _ _ => rfl

theorem noJoin_failAttempt {s : State} (h : hasFrame s isJoin = false) : hasFrame (failAttempt s) isJoin = false := by
  have hr := noFrame_retract noJoin_noAnswer isPull h
  have hc : hasFrame (failureCounted s) isJoin = false := by
    obtain ⟨ha, hq⟩ := (noFrame_iff _ _).mp hr
    refine (noFrame_iff _ _).mpr ⟨ha, fun e he => ?_⟩
    obtain ⟨x, hx, rfl⟩ := List.mem_map.mp he
    have hj := hq x hx
    cases hf : x.frame <;> simp_all [stalePull, isJoin]
  have enter : ∀ t : State, t.link = (failureCounted s).link → hasFrame t isJoin = false := fun t ht => by
    rw [hasFrame_of_link ht]; exact hc
  rw [failAttempt_eq]
  split
  · exact enter _ rfl
  · split
    · exact enter _ rfl
    · unfold nextAttempt
      split
      · exact enter _ rfl
      · exact noFrame_request noJoin_noAnswer rfl (enter _ rfl)

theorem noJoin_settle {s : State} (h : hasFrame s isJoin = false) : hasFrame (settle s) isJoin = false :=
  (noFrame_settleKeeps noJoin_noAnswer (fun f hf => by cases f <;> first | rfl | cases hf)).settle h

/-- A JOIN that is on the bus outlasts its withdrawal (R18). -/
theorem hasFrame_retract_onBus {p : TxFrame → Bool} (hp : NoAnswer p) {s : State} {e : TxEntry} (he : e ∈ s.link.queue)
    (hpe : p e.frame = true) (hw : isWaiting s.link e = false) (q : TxFrame → Bool) : hasFrame (retract q s) p = true := by
  unfold retract
  apply hasFrame_fillQueue hp
  rw [hasFrame_iff]
  refine .inr ⟨holdEntry s.link q .withdraw e, List.mem_map_of_mem (List.mem_filter.mpr ⟨he, by simp [hw]⟩), ?_⟩
  rw [holdEntry_frame]; exact hpe

/-- A cause found in JOINING, and the end of the step (R118). -/
theorem settle_failJoining {s : State} (hst : s.memb.state = .catchup) (c : FailCause) :
    JoiningFailed c s (settle (failJoining c s)) := by
  have hr := retract_sameBut isJoin s
  have hm : (retract isJoin s).memb = s.memb := hr.memb (by decide)
  have hc : (retract isJoin s).catchUp = s.catchUp := hr.catchUp (by decide)
  have hse : ∀ u : State, (settle u).memb = u.memb ∧ (settle u).catchUp = u.catchUp := fun u =>
    ⟨(settle_sameBut u).memb (by decide), (settle_sameBut u).catchUp (by decide)⟩
  refine ⟨fun hw => ?_, ?_⟩
  · have hno : hasFrame (retract isJoin s) isJoin = false :=
      noFrame_retracted noJoin_noAnswer (fun _ _ h => h) (fun e he h => by
        by_contra hj
        have hj' : isJoin e.frame = true := by simpa using hj
        rw [hj', hw e he hj'] at h
        cases h)
    have hu : failJoining c s = failAttempt (retract isJoin s) := by
      unfold failJoining
      dsimp only
      rw [if_neg (by rw [hno]; decide)]
    rw [hu]
    refine ⟨?_, noJoin_settle (noJoin_failAttempt hno)⟩
    exact (failAttempt_attemptFailed (by rw [hm]; exact hst)).of_eq hm.symm (hr .straps (by decide)).symm hc.symm
      (hse _).1 (hse _).2
  · rintro ⟨e, he, hj, hw⟩
    have hyes := hasFrame_retract_onBus noJoin_noAnswer he hj hw isJoin
    have hu : failJoining c s = setCatchUp (retract isJoin s)
        { (retract isJoin s).catchUp with joinFailure := some (keptFailure (retract isJoin s).catchUp.joinFailure c) } := by
      unfold failJoining
      dsimp only
      rw [if_pos hyes]
    rw [hu, (hse _).1, (hse _).2, hc]
    exact ⟨rfl, congrArg _ hm⟩

/-! ## A LIVE station leaves (R35) -/

/-- A station that becomes leaving, before its serving side stops: its EXPEL asked for, its CLAIM, PROPOSE, votes and COMMIT
withdrawn. -/
def departed (r : ExpelReason) (s : State) : State :=
  retract isVoteOrCommit (withdrawPropose (retractClaims isClaim
    (request (.expel (self s) r) { s with memb := { s.memb with leaving := true } })))

theorem selfExpel_eq {r : ExpelReason} {s : State} (hl : isLive s = true) (hn : s.memb.leaving = false) :
    selfExpel r s = stopServing (departed r s) := if_pos (by simp [hl, hn])

theorem hasFrame_withdrawPropose {p : TxFrame → Bool} (hp : NoAnswer p) (hd : Apart p isPropose) {s : State}
    (h : hasFrame s p = true) : hasFrame (withdrawPropose s) p = true := by
  have hr := hasFrame_retract hp hd h
  unfold withdrawPropose
  split
  · dsimp only
    split
    · exact hr
    · exact hr
  · exact h

theorem hasFrame_stopServing {p : TxFrame → Bool} (hp : NoAnswer p) (hd : Apart p isImage) {s : State} (h : hasFrame s p = true) :
    hasFrame (stopServing s) p = true :=
  hasFrame_retract hp hd (s := { s with catchUp := { s.catchUp with serve := [] } }) h

/-- The EXPEL that names the station itself outlasts the withdrawals that go with it. -/
theorem hasFrame_selfExpel {p : TxFrame → Bool} (hp : NoAnswer p) {r : ExpelReason} {s : State} (hl : isLive s = true)
    (hn : s.memb.leaving = false) (hx : p (.expel (self s) r) = true) (hc : Apart p isClaim) (hpr : Apart p isPropose)
    (hv : Apart p isVoteOrCommit) (hi : Apart p isImage) : hasFrame (selfExpel r s) p = true := by
  rw [selfExpel_eq hl hn]
  exact hasFrame_stopServing hp hi (hasFrame_retract hp hv (hasFrame_withdrawPropose hp hpr (hasFrame_retractClaims hp hc
    (hasFrame_requested hp _ hx))))

theorem departed_leaving (r : ExpelReason) (s : State) : (departed r s).memb.leaving = true := by
  have h1 := (retract_sameBut isVoteOrCommit (withdrawPropose (retractClaims isClaim
    (request (.expel (self s) r) { s with memb := { s.memb with leaving := true } })))) .leaving (by decide)
  have h2 := (withdrawPropose_sameBut (retractClaims isClaim
    (request (.expel (self s) r) { s with memb := { s.memb with leaving := true } }))) .leaving (by decide)
  have h3 := (retractClaims_sameBut isClaim
    (request (.expel (self s) r) { s with memb := { s.memb with leaving := true } })) .leaving (by decide)
  have h4 := (request_sameBut (.expel (self s) r) { s with memb := { s.memb with leaving := true } }) .leaving (by decide)
  exact h1.1.trans (h2.1.trans (h3.1.trans h4.1))

theorem stopServing_serve (s : State) : (stopServing s).catchUp.serve = [] :=
  (retract_sameBut isImage { s with catchUp := { s.catchUp with serve := [] } }) .serve (by decide)

theorem selfExpel_leaving {r : ExpelReason} {s : State} (hl : isLive s = true) (hn : s.memb.leaving = false) :
    (selfExpel r s).memb.leaving = true ∧ (selfExpel r s).catchUp.serve = [] := by
  rw [selfExpel_eq hl hn]
  have hm : (stopServing (departed r s)).memb = (departed r s).memb := (stopServing_sameBut (departed r s)).memb (by decide)
  rw [hm]
  exact ⟨departed_leaving r s, stopServing_serve _⟩

/-! ## Aborts (R6) -/

theorem abortFrame_sending {s : State} {c : Candidate} {d : Dest} {f : Frame} (ho : onLink s = true)
    (hb : s.link.bus = .sending c d f) :
    abortFrame s = { s with link := { s.link with slotDriven := false, bus := .idle } } := by
  have ho' : onLink (slotUndriven s) = true := ho
  unfold abortFrame
  dsimp only
  rw [if_pos ho', slotUndriven_link]
  dsimp only
  rw [hb]
  rfl

theorem abortFrame_other {s : State} (hb : onLink s = true → ∀ c d f, s.link.bus ≠ .sending c d f) :
    abortFrame s = slotUndriven s := by
  unfold abortFrame
  dsimp only
  split
  · rename_i ho
    split
    · rename_i c d f hs
      exact absurd hs (hb ho c d f)
    · rfl
  · rfl

theorem onLink_of_live {s : State} (h : s.memb.state = .live) : onLink s = true := by
  unfold onLink; rw [h]; rfl

theorem onLink_of_catchup {s : State} (h : s.memb.state = .catchup) : onLink s = true := by
  unfold onLink; rw [h]; rfl

/-- A receive error at a LIVE station that is not leaving (R35). -/
theorem settle_selfExpel {s : State} (hs : s.memb.state = .live) (hn : s.memb.leaving = false) :
    (settle (selfExpel .receiveError (countReceiveError s))).memb.leaving = true
    ∧ hasFrame (settle (selfExpel .receiveError (countReceiveError s))) (fun f => f == .expel (self s) .receiveError) = true
    ∧ (settle (selfExpel .receiveError (countReceiveError s))).catchUp.serve = []
    ∧ SameBut (.receiveErrors :: .slotDriven :: .leaving :: .serve :: reacting) s
        (settle (selfExpel .receiveError (countReceiveError s))) := by
  have hl : isLive (countReceiveError s) = true := by unfold isLive countReceiveError; simp [hs]
  have hl' : (countReceiveError s).memb.leaving = false := hn
  obtain ⟨h1, h2⟩ := selfExpel_leaving (r := .receiveError) hl hl'
  have hset := settle_sameBut (selfExpel .receiveError (countReceiveError s))
  have hlast : Lasting (fun f => f == TxFrame.expel (self s) .receiveError) :=
    ⟨fun _ _ _ _ => rfl, fun _ => rfl, fun _ _ => rfl⟩
  have apart : ∀ q, q (.expel (self s) .receiveError) = false → Apart (fun f => f == TxFrame.expel (self s) .receiveError) q :=
    fun q hq f hf => by rw [eq_of_beq hf]; exact hq
  refine ⟨by rw [(hset .leaving (by decide)).1]; exact h1, ?_, by rw [hset .serve (by decide)]; exact h2, ?_⟩
  · exact hasFrame_settle hlast (hasFrame_selfExpel hlast.1 hl hl' (beq_self_eq_true _) (apart _ rfl) (apart _ rfl)
      (apart _ rfl) (apart _ rfl))
  · exact ((countReceiveError_sameBut s).comp (selfExpel_sameBut _ _) (by decide) (by decide)).comp hset
      (c := .receiveErrors :: .slotDriven :: departing) (by decide) (by decide)

/-- Settles O12: aborts by computation, receive errors by the station state that finds them. -/
theorem framesNotReceived : Obligations.FramesNotReceived := by
  refine ⟨?_, ?_, ?_, ?_, ?_, ?_, ?_, ?_, ?_⟩
  · intro s c d f ho hb
    exact congrArg _ (abortFrame_sending ho hb)
  · intro s ho hb
    exact congrArg _ (abortFrame_other fun _ => hb)
  · intro s ho
    exact congrArg _ (abortFrame_other fun h => by rw [ho] at h; cases h)
  · intro s ho
    exact yields_settle rfl rfl (settle_receiveError ho)
  · intro s hs hn
    exact yields_settle rfl ((receiveError_onLink (onLink_of_live hs)).trans (receiveErrorFound_live hs)) (settle_selfExpel hs hn)
  · intro s hs hp
    have hu : receiveError s = failAttempt (countReceiveError s) := by
      rw [receiveError_onLink (onLink_of_catchup hs), receiveErrorFound_catchup (s := countReceiveError s) hs]
      have hp' : (countReceiveError s).catchUp.phase = s.catchUp.phase := rfl
      unfold findFailure
      rw [hp']
      rcases hp with h | h | h <;> rw [h]
    refine yields_settle rfl hu ?_
    exact (failAttempt_attemptFailed (s := countReceiveError s) hs).of_eq rfl rfl rfl
      ((settle_sameBut _).memb (by decide)) ((settle_sameBut _).catchUp (by decide))
  · intro s hs hp
    have hu : receiveError s = failJoining .receiveError (countReceiveError s) := by
      rw [receiveError_onLink (onLink_of_catchup hs), receiveErrorFound_catchup (s := countReceiveError s) hs]
      have hp' : (countReceiveError s).catchUp.phase = .joining := hp
      unfold findFailure
      rw [hp']
    exact yields_settle rfl hu (settle_failJoining (s := countReceiveError s) hs .receiveError)
  · intro s ho hl hc
    refine yields_settle rfl ((receiveError_onLink ho).trans (receiveErrorFound_other hl hc)) ?_
    exact (countReceiveError_sameBut s).comp (settle_sameBut _) (by decide) (by decide)
  · intro s ho
    exact yields_settle rfl (receiveError_offLink ho) (settle_slotUndriven s)

end Sys2Proof.Machine


namespace Sys2Proof.Machine

/-! ## Arbitration (R5, R16, R18, R19) -/

theorem setBus_sameBut (s : State) (b : Bus) : SameBut [.bus] s (setBus s b) := by
  intro p hp
  cases p <;> first | rfl | exact ⟨rfl, rfl⟩ | exact ⟨rfl, rfl, rfl⟩ | exact absurd (by decide) hp

theorem settle_bus (s : State) : (settle s).link.bus = s.link.bus := settle_sameBut s .bus (by decide)

theorem endArbitration_won {s : State} {c : Candidate} (h : s.link.bus = .contending c) :
    endArbitration true s = winArbitration c s := by
  unfold endArbitration; rw [h]; rfl

theorem endArbitration_lost {s : State} {c : Candidate} (h : s.link.bus = .contending c) :
    endArbitration false s = loseArbitration c s := by
  unfold endArbitration; rw [h]; rfl

theorem endArbitration_other {s : State} (h : ∀ c, s.link.bus ≠ .contending c) (won : Bool) : endArbitration won s = s := by
  unfold endArbitration
  split
  · exact absurd ‹_› (h _)
  · rfl

/-- What a step leaves of the bus, set anew before the step's end. -/
theorem settle_setBus (s : State) (b : Bus) : (settle (setBus s b)).link.bus = b
    ∧ SameBut (.bus :: reacting) s (settle (setBus s b)) :=
  ⟨settle_bus _, (setBus_sameBut s b).comp (settle_sameBut _) (by decide) (by decide)⟩

theorem mem_queue_settle_setBus {s : State} {e : TxEntry} {b : Bus} (hl : isLive s = false) (he : e ∈ s.link.queue) :
    e ∈ (settle (setBus s b)).link.queue := by
  have h : isLive (setBus s b) = false ∧ e ∈ (setBus s b).link.queue := ⟨hl, he⟩
  exact ((mem_queue_settleKeeps e).settle h).2

theorem beforeFetch_link (f : TxFrame) (s : State) : (beforeFetch f s).link = s.link := by
  unfold beforeFetch
  split
  · split <;> rfl
  · rfl

theorem refuseHeld_link (f : TxFrame) (s : State) : (refuseHeld f s).link = s.link := by
  unfold refuseHeld; split <;> rfl

/-- The fields of a frame do not depend on the own round's held request (R16). -/
theorem fetchFrame_refuseHeld (f : TxFrame) (s : State) : fetchFrame (refuseHeld f s) f = fetchFrame s f := by
  unfold refuseHeld
  split <;> rfl

theorem winArbitration_entry {s : State} {age : Nat} {e : TxEntry} (he : entryOf s.link age = some e) :
    winArbitration (.entry age) s =
      setBus { refuseHeld e.frame (beforeFetch e.frame s) with
          link := clearHold (refuseHeld e.frame (beforeFetch e.frame s)).link age }
        (.sending (.entry age) (txDest e.frame) (fetchFrame (beforeFetch e.frame s) e.frame)) := by
  unfold winArbitration
  dsimp only
  rw [he, ← fetchFrame_refuseHeld]

theorem winArbitration_presence (s : State) :
    winArbitration .presence s = setBus s (.sending .presence ⟨true, 0⟩ (.presence (presenceBody s))) := rfl

theorem winArbitration_alarm {s : State} {c : ZeroCause} (h : s.link.alarm = some c) :
    winArbitration .alarm s = setBus s (.sending .alarm ⟨true, 0⟩ (.zero c.code)) := by
  unfold winArbitration
  dsimp only
  rw [h]

theorem entryOf_age {l : Link} {age : Nat} {e : TxEntry} (he : entryOf l age = some e) : e.age = age := by
  simpa using List.find?_some he

theorem entryOf_clearHold {l : Link} {age : Nat} {e : TxEntry} (he : entryOf l age = some e) :
    entryOf (clearHold l age) age = some { e with hold := .none } := by
  have hage := entryOf_age he
  unfold entryOf clearHold at *
  have hp : ((fun x : TxEntry => x.age == age) ∘ fun x => if x.age == age then { x with hold := .none } else x)
      = fun x => x.age == age := funext fun x => by simp only [Function.comp]; split <;> rfl
  dsimp only
  rw [List.find?_map, hp, he]
  simp [hage]

theorem clearHold_sameBut (s : State) (age : Nat) : SameBut [.txQueue] s { s with link := clearHold s.link age } :=
  queueUpdate_sameBut s _ _ _

theorem freeEntry_sameBut (s : State) (age : Nat) : SameBut [.txQueue] s { s with link := freeEntry s.link age } :=
  queueUpdate_sameBut s _ _ _

/-- The winner's entry is in transmission, its held request refused. -/
theorem winArbitration_sends {s : State} {age : Nat} {e : TxEntry} (he : entryOf s.link age = some e) :
    SendsEntry age { e with hold := .none } (winArbitration (.entry age) s) := by
  rw [winArbitration_entry he, refuseHeld_link, beforeFetch_link]
  exact ⟨rfl, entryOf_clearHold he⟩

theorem winArbitration_sameBut {s : State} {age : Nat} {e : TxEntry} (he : entryOf s.link age = some e) :
    SameBut [.maintenance, .freeIndex, .ownRound, .txQueue, .bus] s (winArbitration (.entry age) s) := by
  rw [winArbitration_entry he]
  have h1 := (beforeFetch_sameBut e.frame s).comp (refuseHeld_sameBut e.frame _) (e := [.maintenance, .freeIndex, .ownRound])
    (by decide) (by decide)
  have h2 := h1.comp (clearHold_sameBut _ age) (e := [.maintenance, .freeIndex, .ownRound, .txQueue]) (by decide) (by decide)
  exact h2.comp (setBus_sameBut _ _) (by decide) (by decide)

theorem ageGone_freeEntry {s : State} {age : Nat} {e : TxEntry} (ho : QueueOrdered s) (he : entryOf s.link age = some e)
    {t : State} (hq : t.link = freeEntry s.link age) : AgeGone age t := by
  unfold AgeGone
  rw [hq, entryOf_eq_none_iff]
  refine ⟨fun x hx => by simpa using (List.mem_filter.mp hx).2, ?_⟩
  have := ho.2 e (List.mem_of_find?_eq_some he)
  rwa [entryOf_age he] at this

theorem loseArbitration_kept {s : State} {age : Nat} {e : TxEntry} (he : entryOf s.link age = some e) (hh : e.hold = .none) :
    loseArbitration (.entry age) s = setBus s .idle := by
  have he' : entryOf (setBus s .idle).link age = some e := he
  unfold loseArbitration
  dsimp only
  rw [he']
  dsimp only
  rw [hh]

theorem loseArbitration_purged {s : State} {age : Nat} {e : TxEntry} (he : entryOf s.link age = some e) (hh : e.hold = .purge) :
    loseArbitration (.entry age) s = fillQueue { setBus s .idle with link := freeEntry (setBus s .idle).link age } := by
  have he' : entryOf (setBus s .idle).link age = some e := he
  unfold loseArbitration
  dsimp only
  rw [he']
  dsimp only
  rw [hh]

theorem loseArbitration_withdrawn {s : State} {age : Nat} {e : TxEntry} (he : entryOf s.link age = some e)
    (hh : e.hold = .withdraw) : loseArbitration (.entry age) s =
      withdrawn e.frame (fillQueue { setBus s .idle with link := freeEntry (setBus s .idle).link age }) := by
  have he' : entryOf (setBus s .idle).link age = some e := he
  unfold loseArbitration
  dsimp only
  rw [he']
  dsimp only
  rw [hh]

theorem loseArbitration_register {s : State} {c : Candidate} (h : c = .alarm ∨ c = .presence) :
    loseArbitration c s = setBus s .idle := by
  rcases h with rfl | rfl <;> rfl

/-- The entry freed and its room filled. -/
theorem freed_sameBut (s : State) (age : Nat) : SameBut [.bus, .txQueue, .segments, .queries] s
    (fillQueue { setBus s .idle with link := freeEntry (setBus s .idle).link age }) :=
  ((setBus_sameBut s .idle).comp (freeEntry_sameBut _ age) (e := [.bus, .txQueue]) (by decide) (by decide)).comp
    (fillQueue_sameBut _) (by decide) (by decide)

/-- A freed entry stays gone, and the bus idle, through what a freed entry sets off. -/
theorem freed_gone {s : State} {age : Nat} {e : TxEntry} (ho : QueueOrdered s) (he : entryOf s.link age = some e) {t : State}
    (h : Moves (fillQueue { setBus s .idle with link := freeEntry (setBus s .idle).link age }) t) :
    t.link.bus = .idle ∧ entryOf t.link age = none := by
  have hg : AgeGone age { setBus s .idle with link := freeEntry (setBus s .idle).link age } :=
    ageGone_freeEntry (s := setBus s .idle) ho he rfl
  have hm := (fillQueue_moves _).trans h
  exact ⟨hm.keeps (I := fun t => t.link.bus = .idle) Move.keeps_idle rfl, (hm.keeps Move.keeps_ageGone hg).1⟩

theorem proposeWithdrawn_reacting (s : State) : SameBut reacting s (proposeWithdrawn s) := by
  unfold proposeWithdrawn
  split
  · split
    · exact (endItem_sameBut _ _ _ _ s).mono (by decide)
    · exact (setOwn_sameBut s _).mono (by decide)
  · exact SameBut.refl _ s

/-- What a producer does at a withdrawal stays within the reactions, but for a JOIN's, which decides the attempt (R40, R118). -/
theorem withdrawn_reacting {f : TxFrame} (hf : isJoin f = false) (s : State) : SameBut reacting s (withdrawn f s) := by
  unfold withdrawn
  split
  · exact (returnClaim_sameBut _ s).mono (by decide)
  · exact proposeWithdrawn_reacting s
  · cases hf
  · cases hf
  · exact (finalWithdrawn_sameBut _ s).mono (by decide)
  · exact SameBut.refl _ s

/-- Settles O10: the winner by what its fetch changes, the loser by the request that its entry holds. -/
theorem arbitrationEnds : Obligations.ArbitrationEnds := by
  refine ⟨?_, ?_, ?_, ?_, ?_, ?_, ?_, ?_⟩
  · intro s age e hb he
    refine yields_settle rfl (endArbitration_won hb) ⟨?_, ?_, ?_⟩
    · rw [settle_bus, winArbitration_entry he]; rfl
    · exact ((sendsEntry_settleKeeps age _).settle (winArbitration_sends he)).2
    · exact (winArbitration_sameBut he).comp (settle_sameBut _) (by decide) (by decide)
  · intro s hb
    exact yields_settle rfl ((endArbitration_won hb).trans (winArbitration_presence s)) (settle_setBus s _)
  · intro s c hb hc
    exact yields_settle rfl ((endArbitration_won hb).trans (winArbitration_alarm hc)) (settle_setBus s _)
  · intro s age e hb he hh
    have hu : endArbitration false s = setBus s .idle := (endArbitration_lost hb).trans (loseArbitration_kept he hh)
    obtain ⟨hbus, hsame⟩ := settle_setBus s .idle
    exact ⟨congrArg (fun t => Host.Outcome.next (settle t)) hu,
      yields_settle rfl hu ⟨hbus, fun hl => mem_queue_settle_setBus hl (List.mem_of_find?_eq_some he), hsame⟩⟩
  · intro s age e ho hb he hh
    refine yields_settle rfl ((endArbitration_lost hb).trans (loseArbitration_purged he hh)) ?_
    obtain ⟨hbus, hage⟩ := freed_gone ho he (settle_moves _)
    exact ⟨hbus, hage, (freed_sameBut s age).comp (settle_sameBut _) (by decide) (by decide)⟩
  · intro s age e ho hb he hh
    refine yields_settle rfl ((endArbitration_lost hb).trans (loseArbitration_withdrawn he hh)) ?_
    obtain ⟨hbus, hage⟩ := freed_gone ho he ((withdrawn_moves e.frame _).trans (settle_moves _))
    refine ⟨hbus, hage, fun hj => ?_⟩
    exact ((freed_sameBut s age).comp (withdrawn_reacting hj _) (e := .bus :: reacting) (by decide) (by decide)).comp
      (settle_sameBut _) (by decide) (by decide)
  · intro s h
    rcases h with hb | hb
    · exact yields_settle rfl ((endArbitration_lost hb).trans (loseArbitration_register (.inl rfl))) (settle_setBus s _)
    · exact yields_settle rfl ((endArbitration_lost hb).trans (loseArbitration_register (.inr rfl))) (settle_setBus s _)
  · intro won s hb
    exact yields_settle rfl (endArbitration_other hb won) (settle_sameBut s)

end Sys2Proof.Machine


namespace Sys2Proof.Machine

/-! ## A query's place in the query queue (R188) -/

/-- The REPORT that answers a query. -/
def isReportOf (q : Query) (f : TxFrame) : Bool := f == .queryReport q

theorem isReportOf_lasting (q : Query) : Lasting (isReportOf q) := ⟨fun _ _ _ _ => rfl, fun _ => rfl, fun _ _ => rfl⟩

theorem isQueryReport_of_isReportOf {q : Query} {f : TxFrame} (h : isReportOf q f = true) : isQueryReport f = true := by
  rw [eq_of_beq h]; rfl

theorem noReport_of_other {f : TxFrame} (h : isQueryReport f = false) (q : Query) : isReportOf q f = false := by
  by_contra hf
  rw [isQueryReport_of_isReportOf (by simpa using hf)] at h
  cases h

/-- A query waits behind at least as many others as REPORTs are pending. -/
def QueryWaits (q : Query) (s : State) : Prop :=
  ∃ before after, s.rep.queries = before ++ q :: after ∧ pendingReports s ≤ before.length

/-- A query waits, or its REPORT is queued or pending. -/
def QueryStands (q : Query) (s : State) : Prop := QueryWaits q s ∨ hasFrame s (isReportOf q) = true

theorem QueryWaits.of_eq {q : Query} {s t : State} (h : QueryWaits q s) (hq : t.rep.queries = s.rep.queries)
    (hp : pendingReports t ≤ pendingReports s) : QueryWaits q t := by
  obtain ⟨before, after, hs, hb⟩ := h
  exact ⟨before, after, by rw [hq, hs], hp.trans hb⟩

/-- A query that waits behind another moves up with the head's departure. -/
theorem QueryWaits.moveUp {q : Query} {s t : State} (h : QueryWaits q s) (hq : t.rep.queries = s.rep.queries.drop 1)
    (hp : pendingReports t + 1 ≤ pendingReports s) : QueryWaits q t := by
  obtain ⟨before, after, hs, hb⟩ := h
  match before, hb with
  | [], hb => simp at hb; omega
  | x :: before, hb => exact ⟨before, after, by rw [hq, hs]; rfl, by simp at hb; omega⟩

theorem QueryStands.request {q : Query} {s : State} {f : TxFrame} (hf : isQueryReport f = false) (h : QueryStands q s) :
    QueryStands q (request f s) := by
  rcases h with h | h
  · unfold Machine.request
    split
    · exact .inl (h.of_eq (placeFrame_queries_other hf s) (by unfold pendingReports; rw [placeFrame_admissions]))
    · exact .inl (h.of_eq rfl (by simp [pendingReports, List.filter_append, hf]))
  · exact .inr (hasFrame_request f h)

theorem QueryStands.fillLoop {q : Query} (k : Nat) {s : State} (h : QueryStands q s) : QueryStands q (fillLoop k s) := by
  induction k generalizing s with
  | zero => exact h
  | succ k ih =>
    rcases h with h | h
    · unfold Machine.fillLoop
      split
      · exact .inl h
      · rename_i i _
        split
        · exact .inl h
        · rename_i f hf
          have he := filter_eraseIdx_length isQueryReport _ _ hf
          refine ih (.inl ?_)
          have hp : pendingReports (placeFrame f { s with link := { s.link with admissions := s.link.admissions.eraseIdx i } })
              = ((s.link.admissions.eraseIdx i).filter isQueryReport).length := by
            unfold pendingReports; rw [placeFrame_admissions]
          by_cases hr : isQueryReport f = true
          · rw [if_pos hr] at he
            exact h.moveUp (placeFrame_queries_report hr _) (by rw [hp]; exact le_of_eq he)
          · exact h.of_eq (placeFrame_queries_other (by simpa using hr) _) (by rw [hp]; exact Nat.le.intro he)
    · exact .inr (hasFrame_fillLoop (isReportOf_lasting q).1 _ h)

theorem QueryStands.retract {q : Query} {p : TxFrame → Bool} (hp : Apart (isReportOf q) p) {s : State} (h : QueryStands q s) :
    QueryStands q (retract p s) := by
  rcases h with h | h
  · refine QueryStands.fillLoop _ (.inl (h.of_eq rfl ?_))
    exact (List.filter_sublist.filter _).length_le
  · exact .inr (hasFrame_retract (isReportOf_lasting q).1 hp h)

/-- The REPORT of the query at the head, asked for where none is pending. -/
theorem QueryStands.ask {q r : Query} {rest : List Query} {s : State} (hq : s.rep.queries = r :: rest)
    (hn : hasPending s isQueryReport = false) (h : QueryStands q s) : QueryStands q (Machine.request (.queryReport r) s) := by
  have h0 := pendingReports_eq_zero hn
  rcases h with ⟨before, after, hs, -⟩ | h
  · match before with
    | [] =>
      obtain ⟨rfl, -⟩ := List.cons.inj (hq.symm.trans hs)
      exact .inr (hasFrame_requested (isReportOf_lasting _).1 s (beq_self_eq_true _))
    | x :: before =>
      left
      unfold Machine.request
      split
      · exact ⟨before, after, by rw [placeFrame_queries_report rfl, hs]; rfl,
          by unfold pendingReports at h0 ⊢; rw [placeFrame_admissions, h0]; exact Nat.zero_le _⟩
      · refine ⟨x :: before, after, hs, ?_⟩
        unfold pendingReports at h0 ⊢
        show ((s.link.admissions ++ [TxFrame.queryReport r]).filter isQueryReport).length ≤ _
        rw [List.filter_append, List.length_append, h0]
        exact Nat.succ_le_succ (Nat.zero_le _)
  · exact .inr (hasFrame_request _ h)

/-- A query that the station state does not answer leaves from the head. -/
theorem QueryStands.skip {q r : Query} {rest : List Query} {s : State} (hq : s.rep.queries = r :: rest)
    (hn : hasPending s isQueryReport = false) (hne : r ≠ q) (h : QueryStands q s) :
    QueryStands q { s with rep := { s.rep with queries := rest } } := by
  rcases h with ⟨before, after, hs, -⟩ | h
  · match before with
    | [] => exact absurd (List.cons.inj (hq.symm.trans hs)).1 hne
    | x :: before =>
      refine .inl ⟨before, after, (List.cons.inj (hq.symm.trans hs)).2, ?_⟩
      show pendingReports s ≤ _
      rw [pendingReports_eq_zero hn]
      exact Nat.zero_le _
  · exact .inr h

/-- A query that the station state answers, on its way to its REPORT. -/
def QueryServed (q : Query) (s : State) : Prop := queryAnswered s.memb.state q.arg = true ∧ QueryStands q s

theorem QueryServed.of_state {q : Query} {s t : State} (hm : t.memb.state = s.memb.state) (h : QueryServed q s)
    (ht : QueryStands q s → QueryStands q t) : QueryServed q t := ⟨by rw [hm]; exact h.1, ht h.2⟩

theorem queryServed_settleKeeps (q : Query) : SettleKeeps (QueryServed q) where
  toReactKeeps := .of_aside
    (fun {f s} _ hf h => h.of_state ((request_sameBut f s) .station (by decide)).1 (·.request hf))
    (fun {s} pos _ h => h.of_state ((retract_sameBut (isClaimFor pos) s) .station (by decide)).1
      (·.retract ((isReportOf_lasting q).apartClaim pos)))
    (fun {s} pos _ h => h.of_state ((retract_sameBut (isDeclineFor pos) s) .station (by decide)).1
      (·.retract ((isReportOf_lasting q).apartDecline pos)))
    (fun s t hl hm hq h => h.of_state hm fun hs => hs.imp (fun w => w.of_eq hq (by unfold pendingReports; rw [hl]))
      (fun x => by rw [hasFrame_of_link hl]; exact x))
  ask := fun {s r _} hq hn _ h => h.of_state ((request_sameBut (.queryReport r) s) .station (by decide)).1 (·.ask hq hn)
  skip := fun {s _ _} hq hn ha h => QueryServed.of_state (s := s) rfl h (·.skip hq hn (by rintro rfl; rw [h.1] at ha; cases ha))

/-! ## A query that arrives -/

theorem fillLoop_queries_length (k : Nat) (s : State) : (fillLoop k s).rep.queries.length ≤ s.rep.queries.length := by
  induction k generalizing s with
  | zero => exact le_refl _
  | succ k ih =>
    unfold fillLoop
    split
    · exact le_refl _
    · split
      · exact le_refl _
      · rename_i f _
        refine (ih _).trans ?_
        by_cases hr : isQueryReport f = true
        · rw [placeFrame_queries_report hr]; simp
        · rw [placeFrame_queries_other (by simpa using hr)]

theorem retract_queries_length (p : TxFrame → Bool) (s : State) : (retract p s).rep.queries.length ≤ s.rep.queries.length :=
  fillLoop_queries_length _ _

/-- A frame's arrival lets no query in. -/
theorem arrived_queries_length (h : Header) (s : State) : (arrived h s).rep.queries.length ≤ s.rep.queries.length := by
  unfold arrived noteGateway
  split
  · exact retract_queries_length _ _
  · exact le_refl _

theorem arrived_moves (h : Header) (s : State) : Moves s (arrived h s) := (receivedIntact_moves s).trans (noteGateway_moves h _)

theorem arrived_capacity {h : Header} {s : State} (hc : WithinCapacity s) : WithinCapacity (arrived h s) :=
  (arrived_moves h s).keeps Move.keeps_capacity hc

/-- A query's arrival withdraws a CLOSE at most. -/
theorem hasFrame_arrived (q : Query) (h : Header) (s : State) :
    hasFrame (arrived h s) (isReportOf q) = hasFrame s (isReportOf q) := by
  have apart : Apart (isReportOf q) (isCloseSilenceOf (byteOf h.src)) := fun f hf => by rw [eq_of_beq hf]; rfl
  unfold arrived noteGateway
  split
  · unfold gatewayHeard
    cases hs : hasFrame s (isReportOf q) with
    | true => exact hasFrame_retract (isReportOf_lasting q).1 apart (s := setWatch (receivedIntact s) h.src .running) hs
    | false => exact noFrame_retract (isReportOf_lasting q).1 _ (s := setWatch (receivedIntact s) h.src .running) hs
  · rfl

theorem exec_queryCommand (h : Header) (tag : Half) (arg : QueryArg) (s : State) :
    exec (queryCommand h tag arg) s = .next (receive h (queryFrame tag arg) (onQuery h tag arg) s) := by
  cases arg <;> rfl

theorem onQuery_room {h : Header} {tag : Half} {arg : QueryArg} {s : State} (hl : s.rep.queries.length < 4) :
    onQuery h tag arg s = { s with rep := { s.rep with queries := s.rep.queries ++ [⟨h.src, tag, arg⟩] } } :=
  if_neg (by simpa [Config.queryEntries] using hl)

theorem onQuery_full {h : Header} {tag : Half} {arg : QueryArg} {s : State} (hl : s.rep.queries.length = 4) :
    onQuery h tag arg s = { s with rep := { s.rep with dropped := raise16 s.rep.dropped } } :=
  if_pos (by simp [Config.queryEntries, hl])

theorem queries_sameBut (s : State) (l : List Query) : SameBut [.queries] s { s with rep := { s.rep with queries := l } } := by
  intro p hp
  cases p <;> first | rfl | exact ⟨rfl, rfl⟩ | exact ⟨rfl, rfl, rfl⟩ | exact absurd (by decide) hp

theorem dropped_sameBut (s : State) (c : Half) : SameBut [.dropped] s { s with rep := { s.rep with dropped := c } } := by
  intro p hp
  cases p <;> first | rfl | exact ⟨rfl, rfl⟩ | exact ⟨rfl, rfl, rfl⟩ | exact absurd (by decide) hp

/-- A query that finds room waits behind all that are pending. -/
theorem queryServed_onQuery {h : Header} {tag : Half} {arg : QueryArg} {s : State} (hc : WithinCapacity s)
    (hl : s.rep.queries.length < 4) (ha : queryAnswered s.memb.state arg = true) :
    QueryServed ⟨h.src, tag, arg⟩ (onQuery h tag arg s) := by
  rw [onQuery_room hl]
  exact ⟨ha, .inl ⟨s.rep.queries, [], rfl, hc.2.2.2.2⟩⟩

/-! ## A query that the state does not answer -/

theorem hasFrame_request_other {p : TxFrame → Bool} (hp : NoAnswer p) {f : TxFrame} (hf : p f = false) (s : State) :
    hasFrame (request f s) p = hasFrame s p := by
  cases hs : hasFrame s p with
  | true => exact hasFrame_request f hs
  | false => exact noFrame_request hp hf hs

theorem hasFrame_retract_other {p q : TxFrame → Bool} (hp : NoAnswer p) (hd : Apart p q) (s : State) :
    hasFrame (retract q s) p = hasFrame s p := by
  cases hs : hasFrame s p with
  | true => exact hasFrame_retract hp hd hs
  | false => exact noFrame_retract hp q hs

theorem hasPending_iff (s : State) (p : TxFrame → Bool) : hasPending s p = false ↔ ∀ f ∈ s.link.admissions, p f = false := by
  unfold hasPending
  simp [List.any_eq_false]

/-- No REPORT of a query is pending, and these queries wait. -/
def NoReportPends (l : List Query) (s : State) : Prop := hasPending s isQueryReport = false ∧ s.rep.queries = l

theorem NoReportPends.fillLoop {l : List Query} (k : Nat) {s : State} (h : NoReportPends l s) : NoReportPends l (fillLoop k s) := by
  induction k generalizing s with
  | zero => exact h
  | succ k ih =>
    unfold Machine.fillLoop
    split
    · exact h
    · split
      · exact h
      · rename_i i _ _ f hf
        obtain ⟨hn, hq⟩ := h
        rw [hasPending_iff] at hn
        refine ih ⟨?_, ?_⟩
        · rw [hasPending_iff, placeFrame_admissions]
          exact fun g hg => hn g (List.mem_of_mem_eraseIdx hg)
        · rw [placeFrame_queries_other (hn f (List.mem_of_getElem? hf))]
          exact hq

theorem NoReportPends.retract {l : List Query} {s : State} (h : NoReportPends l s) (p : TxFrame → Bool) :
    NoReportPends l (retract p s) := by
  obtain ⟨hn, hq⟩ := h
  rw [hasPending_iff] at hn
  exact NoReportPends.fillLoop _ ⟨(hasPending_iff _ _).mpr fun f hf => hn f (List.mem_of_mem_filter hf), hq⟩

theorem NoReportPends.request {l : List Query} {s : State} {f : TxFrame} (hf : isQueryReport f = false) (h : NoReportPends l s) :
    NoReportPends l (request f s) := by
  obtain ⟨hn, hq⟩ := h
  unfold Machine.request
  rw [hasPending_iff] at hn
  split
  · exact ⟨by rw [hasPending_iff, placeFrame_admissions]; exact hn, by rw [placeFrame_queries_other hf]; exact hq⟩
  · refine ⟨(hasPending_iff _ _).mpr fun g hg => ?_, hq⟩
    rcases List.mem_append.mp hg with hg | hg
    · exact hn g hg
    · rw [List.mem_singleton.mp hg]; exact hf

theorem NoReportPends.arrived {l : List Query} {s : State} (h : NoReportPends l s) (hd : Header) :
    NoReportPends l (arrived hd s) := by
  unfold Machine.arrived noteGateway
  split
  · exact NoReportPends.retract (s := setWatch (receivedIntact s) hd.src .running) h _
  · exact h

/-- Before queries are served, the end of a step leaves queries and their REPORTs as they stand where none is pending. -/
theorem noReportPends_reactKeeps (l : List Query) (q : Query) (b : Bool) :
    ReactKeeps (fun s => NoReportPends l s ∧ hasFrame s (isReportOf q) = b) :=
  .of_aside
    (fun _ hf h => ⟨h.1.request hf, (hasFrame_request_other (isReportOf_lasting q).1 (noReport_of_other hf q) _).trans h.2⟩)
    (fun pos _ h => ⟨h.1.retract _,
      (hasFrame_retract_other (isReportOf_lasting q).1 ((isReportOf_lasting q).apartClaim pos) _).trans h.2⟩)
    (fun pos _ h => ⟨h.1.retract _,
      (hasFrame_retract_other (isReportOf_lasting q).1 ((isReportOf_lasting q).apartDecline pos) _).trans h.2⟩)
    (fun s t hl _ hq h => ⟨⟨by unfold hasPending; rw [hl]; exact h.1.1, by rw [hq]; exact h.1.2⟩,
      by rw [hasFrame_of_link hl]; exact h.2⟩)

theorem serveQueriesLoop_skip {s : State} {q : Query} {rest : List Query} (hq : s.rep.queries = q :: rest)
    (hn : hasPending s isQueryReport = false) (ha : queryAnswered s.memb.state q.arg = false) (k : Nat) :
    serveQueriesLoop (k + 1) s = serveQueriesLoop k { s with rep := { s.rep with queries := rest } } := by
  rw [serveQueriesLoop, hq]
  dsimp only
  rw [hn, ha]
  rfl

theorem serveQueriesLoop_nil {s : State} (hq : s.rep.queries = []) (k : Nat) : serveQueriesLoop k s = s := by
  cases k with
  | zero => rfl
  | succ k => rw [serveQueriesLoop, hq]

theorem serveQueries_skip {s : State} {q : Query} (h : NoReportPends [q] s) (ha : queryAnswered s.memb.state q.arg = false) :
    serveQueries s = { s with rep := { s.rep with queries := [] } } := by
  obtain ⟨hn, hq⟩ := h
  unfold serveQueries
  rw [serveQueriesLoop_skip hq hn ha, serveQueriesLoop_nil rfl]

theorem serveQueries_unanswered {s : State} {q : Query} (h : NoReportPends [q] s)
    (ha : queryAnswered s.memb.state q.arg = false) :
    (serveQueries s).rep.queries = [] ∧ hasFrame (serveQueries s) (isReportOf q) = hasFrame s (isReportOf q) := by
  rw [serveQueries_skip h ha]
  exact ⟨rfl, rfl⟩

/-- A query that the state does not answer leaves at the end of its own step, and no REPORT of it comes or goes. -/
theorem settle_unanswered {s : State} {q : Query} (h : NoReportPends [q] s) (ha : queryAnswered s.memb.state q.arg = false) :
    (settle s).rep.queries = [] ∧ hasFrame (settle s) (isReportOf q) = hasFrame s (isReportOf q) := by
  rw [show settle s = serveQueries (considerPosted (custodyWork s)) from rfl]
  have hx : NoReportPends [q] (considerPosted (custodyWork s))
      ∧ hasFrame (considerPosted (custodyWork s)) (isReportOf q) = hasFrame s (isReportOf q) :=
    (noReportPends_reactKeeps [q] q (hasFrame s (isReportOf q))).reacts ⟨h, rfl⟩
  have hm : (considerPosted (custodyWork s)).memb = s.memb :=
    ((considerPosted_sameBut _).memb (by decide)).trans ((custodyWork_sameBut s).memb (by decide))
  have ha' : queryAnswered (considerPosted (custodyWork s)).memb.state q.arg = false := by rw [hm]; exact ha
  have hy := serveQueries_unanswered hx.1 ha'
  exact ⟨hy.1, hy.2.trans hx.2⟩

/-! ## The REPORTs' contents (R189) -/

theorem toList_eq_map_tget {α : Type} {n : Nat} (t : Vector α n) : t.toList = (List.finRange n).map (tget t) := by
  refine List.ext_getElem (by simp) fun i h1 h2 => ?_
  simp [tget]

theorem fetch_sensors (g : Node) (tag : Half) (s : State) :
    fetchFrame s (.queryReport ⟨g, tag, .sensors⟩) = .report (field 2 tag ++ [5#8]
      ++ [Channel.T, .V, .L, .M, .D, .C].flatMap (fun ch => channelBytes (channelOf s.tamper ch))
      ++ windowBytes s.tamper.window ++ causeBytes s.tamper.cause) := by
  have h6 : s.tamper.channels.toList = [Channel.T, .V, .L, .M, .D, .C].map (channelOf s.tamper) := toList_eq_map_tget _
  show Frame.report (reportBody tag reportSensors (sensorsContents s)) = _
  unfold reportBody sensorsContents
  rw [h6, List.flatMap_map]
  simp only [List.append_assoc, reportSensors]

/-- The slot that a selector names (R188). -/
def selectedSlot (s : State) : SlotSelector → Option SlotId
  | .byNumber b => slotOf? b
  | .byLabel l => s.dir.lookup l

theorem slotContents_found {s : State} {sel : SlotSelector} {i : SlotId} (h : selectedSlot s sel = some i) :
    slotContents s sel = [1#8, byteOf i] ++ slotReportBytes (s.dir.slot i) ++ usageBytes (s.dir.usageOf i) := by
  cases sel with
  | byNumber b =>
    have h' : slotOf? b = some i := h
    simp only [slotContents, h']
  | byLabel l =>
    have h' : s.dir.lookup l = some i := h
    simp only [slotContents, h']

theorem slotContents_absent {s : State} {sel : SlotSelector} (h : selectedSlot s sel = none) : slotContents s sel = zeros 29 := by
  cases sel with
  | byNumber b =>
    have h' : slotOf? b = none := h
    simp only [slotContents, h']
  | byLabel l =>
    have h' : s.dir.lookup l = none := h
    simp only [slotContents, h']

/-! ## Frames that a station passes over (R11) -/

/-- A station's frame that no block acts on leaves the arrival alone. -/
theorem receive_passedOver {h : Header} {f : Frame} {s : State} (ho : onLink s = true)
    (hm : frameMisplaced f (stationCount s) h = false) (hs : roleOf (stationCount s) h.src = .station)
    (hf : frameNeedsMember f = false) : receive h f passedOver s = settle (receivedIntact s) := by
  have hg : noteGateway h (receivedIntact s) = receivedIntact s := noteGateway_station hs
  have hn : failsMembership (receivedIntact s) h f = false := by simp [failsMembership, hf]
  unfold receive filterFrame handOver
  rw [if_pos ho, hm, if_neg (by decide), hg]
  dsimp only
  rw [hn, if_neg (c := false = true) (by decide)]
  split
  · rfl
  · exact congrArg settle (ite_self _)

/-- A query at a station that acts on it and answers it. -/
theorem query_joins {h : Header} {tag : Half} {arg : QueryArg} {s : State} (hc : WithinCapacity s)
    (hl : s.rep.queries.length < 4) (ha : queryAnswered s.memb.state arg = true) :
    QueryServed ⟨h.src, tag, arg⟩ (settle (onQuery h tag arg (arrived h s))) := by
  have hm : (arrived h s).memb.state = s.memb.state := ((arrived_sameBut h s) .station (by decide)).1
  exact (queryServed_settleKeeps _).settle (queryServed_onQuery (arrived_capacity hc)
    ((arrived_queries_length h s).trans_lt hl) (by rw [hm]; exact ha))

/-- A query at a station that acts on it and does not answer it. -/
theorem query_leaves {h : Header} {tag : Half} {arg : QueryArg} {s : State} (hq : s.rep.queries = [])
    (ha : queryAnswered s.memb.state arg = false) (hn : hasPending s isQueryReport = false) :
    (settle (onQuery h tag arg (arrived h s))).rep.queries = []
    ∧ hasFrame (settle (onQuery h tag arg (arrived h s))) (isReportOf ⟨h.src, tag, arg⟩)
      = hasFrame s (isReportOf ⟨h.src, tag, arg⟩) := by
  have hm : (arrived h s).memb.state = s.memb.state := ((arrived_sameBut h s) .station (by decide)).1
  have ha' : queryAnswered (arrived h s).memb.state arg = false := by rw [hm]; exact ha
  have hs : NoReportPends [] s := ⟨hn, hq⟩
  have hu : NoReportPends [⟨h.src, tag, arg⟩] (onQuery h tag arg (arrived h s)) ∧
      queryAnswered (onQuery h tag arg (arrived h s)).memb.state arg = false
      ∧ hasFrame (onQuery h tag arg (arrived h s)) (isReportOf ⟨h.src, tag, arg⟩)
        = hasFrame (arrived h s) (isReportOf ⟨h.src, tag, arg⟩) := by
    obtain ⟨hn', hq'⟩ := hs.arrived h
    rw [onQuery_room (by rw [hq']; decide), hq']
    exact ⟨⟨hn', rfl⟩, ha', rfl⟩
  have hx := settle_unanswered hu.1 hu.2.1
  exact ⟨hx.1, hx.2.trans (hu.2.2.trans (hasFrame_arrived _ h s))⟩

theorem onQuery_sameBut_arrived {h : Header} {tag : Half} {arg : QueryArg} {s : State} (hl : s.rep.queries.length < 4) :
    SameBut gatewayFrame s (settle (onQuery h tag arg (arrived h s))) := by
  rw [onQuery_room ((arrived_queries_length h s).trans_lt hl)]
  exact ((arrived_sameBut h s).comp (queries_sameBut _ _) (e := gatewayFrame) (by decide) (by decide)).comp (settle_sameBut _)
    (by decide) (by decide)

theorem settle_dropped {h : Header} {tag : Half} {arg : QueryArg} {s : State} (hl : (arrived h s).rep.queries.length = 4) :
    (settle (onQuery h tag arg (arrived h s))).rep.dropped.toNat = min 65535 (s.rep.dropped.toNat + 1)
    ∧ SameBut (.dropped :: gatewayFrame) s (settle (onQuery h tag arg (arrived h s))) := by
  rw [onQuery_full hl]
  refine ⟨?_, ((arrived_sameBut h s).comp (dropped_sameBut _ _) (e := .dropped :: gatewayFrame) (by decide) (by decide)).comp
    (settle_sameBut _) (by decide) (by decide)⟩
  have h1 : (settle { arrived h s with rep := { (arrived h s).rep with dropped := raise16 (arrived h s).rep.dropped } }).rep.dropped
      = raise16 (arrived h s).rep.dropped := settle_sameBut _ .dropped (by decide)
  have h2 : (arrived h s).rep.dropped = s.rep.dropped := arrived_sameBut h s .dropped (by decide)
  rw [h1, h2, raise16_toNat]

/-- A query that reaches its block, and the end of the step. -/
theorem exec_query_reaches {h : Header} {tag : Half} {arg : QueryArg} {s : State} (hr : Reaches s h (queryFrame tag arg)) :
    exec (queryCommand h tag arg) s = .next (settle (onQuery h tag arg (arrived h s))) :=
  (exec_queryCommand h tag arg s).trans (congrArg _ (receive_reaches _ hr))

theorem settle_receivedIntact_sameBut (s : State) : SameBut stationFrame s (settle (receivedIntact s)) :=
  (receivedIntact_sameBut s).comp (settle_sameBut _) (by decide) (by decide)

/-- Settles O51: a query by what becomes of it until the end of its step, its REPORT by its contents. -/
theorem queriesAreQueued : Obligations.QueriesAreQueued := by
  refine ⟨?_, ?_, ?_, ?_, ?_, ?_, ?_, ?_, ?_, ?_, ?_⟩
  · intro h tag arg s hr hc hl ha
    refine yields_settle (exec_query_reaches hr) rfl ⟨?_, onQuery_sameBut_arrived hl⟩
    rcases (query_joins (h := h) (tag := tag) hc hl ha).2 with ⟨before, after, hq, -⟩ | hf
    · left; rw [hq]; simp
    · exact .inr hf
  · intro h tag arg s hr hq ha
    exact yields_settle (exec_query_reaches hr) rfl ⟨query_leaves hq ha, onQuery_sameBut_arrived (by rw [hq]; decide)⟩
  · intro h tag arg s hr hl
    exact yields_settle (exec_query_reaches hr) rfl (settle_dropped hl)
  · intro g tag s
    rfl
  · intro g tag s
    show Frame.report (reportBody tag reportStatus (statusContents s)) = _
    simp only [reportBody, statusContents, counterBytes, List.append_assoc]
    rfl
  · intro g tag sel i s h
    show Frame.report (reportBody tag reportSlot (slotContents s sel)) = _
    rw [slotContents_found h]
    simp only [reportBody, List.append_assoc]
    rfl
  · intro g tag sel s h
    show Frame.report (reportBody tag reportSlot (slotContents s sel)) = _
    rw [slotContents_absent h]
    rfl
  · intro g tag gateway line s
    rfl
  · intro g tag s
    exact fetch_sensors g tag s
  · intro h body s ho hm
    have hx : exec (.answer h body) s = .next (settle (receivedIntact s)) :=
      congrArg Host.Outcome.next (receive_passedOver ho hm (station_of_sent hm fun _ => rfl) rfl)
    exact ⟨hx, yields_settle hx rfl (settle_receivedIntact_sameBut s)⟩
  · intro h body s ho hm
    have hx : exec (.report h body) s = .next (settle (receivedIntact s)) :=
      congrArg Host.Outcome.next (receive_passedOver ho hm (station_of_sent hm fun _ => rfl) rfl)
    exact ⟨hx, yields_settle hx rfl (settle_receivedIntact_sameBut s)⟩

end Sys2Proof.Machine


namespace Sys2Proof.Machine

/-! ## Warm start (R23, R99, R179, R190) -/

theorem warmState_strapFault_iff (straps : Straps) (d : Directory) : warmState straps d = .strapFault ↔ straps.valid = false := by
  unfold warmState
  cases straps.valid <;> cases d.key <;> simp

theorem loadPresence_idle {l : Link} (hb : l.bus = .idle) (hp : l.presence = ⟨false, false⟩) :
    loadPresence l = { l with presence := ⟨true, false⟩ } := by
  cases l
  dsimp only at hb hp
  subst hb hp
  rfl

/-- The start of presence loading at a station whose bus is idle and whose register is empty (R27, R41). -/
theorem startPresence_idle {s : State} (hb : s.link.bus = .idle) (hp : s.link.presence = ⟨false, false⟩) {ok : Bool}
    (hok : s.memb.state = .strapFault ↔ ok = false) : startPresence s = { s with
      memb := { s.memb with presenceLoading := ok }, link := { s.link with presence := ⟨ok, false⟩ } } := by
  unfold startPresence
  cases ok with
  | false => rw [if_pos (hok.mpr rfl), ← hp]
  | true =>
    rw [if_neg (fun h => Bool.noConfusion (hok.mp h))]
    rw [loadPresence_idle hb hp]

/-- The membership unit, the link and the directory at their warm-start values (R23); the other blocks stand as `clearVolatile` and
`clearCounters` leave them. -/
theorem warmValues_eq (s : State) : warmValues false s =
    { clearCounters (clearVolatile s) with
      inputs := { s.inputs with powerFail := false }
      straps := strapsOf s.inputs.pins
      memb := { State.reset.memb with
        state := warmState (strapsOf s.inputs.pins) s.dir
        windowOpen := warmState (strapsOf s.inputs.pins) s.dir == .listening
        presenceLoading := (strapsOf s.inputs.pins).valid }
      dir := if (strapsOf s.inputs.pins).valid then s.dir.dropReserved else Directory.erased
      link := { (clearCounters (clearVolatile s)).link with presence := ⟨(strapsOf s.inputs.pins).valid, false⟩ } } := by
  obtain ⟨-, hi, -, hd, -⟩ := clearVolatile_keeps s
  have hi' : (clearCounters (clearVolatile s)).inputs = s.inputs := hi
  have hd' : (clearCounters (clearVolatile s)).dir = s.dir := hd
  unfold warmValues
  dsimp only
  rw [startPresence_idle rfl rfl (ok := (strapsOf s.inputs.pins).valid), hi', hd']
  · rfl
  · rw [hi', hd']; exact warmState_strapFault_iff _ _

/-- What the volatile blocks, the counters set to 0, leave of the link and of the rest (R20, R88, R108, R121, R140, R155, R173, R188,
R190). -/
theorem clearedBlocks (s : State) :
    (clearCounters (clearVolatile s)).link = { State.reset.link with
      nextAge := s.link.nextAge, presence := ⟨false, false⟩, slotDriven := s.link.slotDriven }
    ∧ (clearCounters (clearVolatile s)).rounds = RoundControl.empty
    ∧ (clearCounters (clearVolatile s)).cust = { Custody.empty with record := s.cust.record }
    ∧ (clearCounters (clearVolatile s)).catchUp = State.reset.catchUp
    ∧ (clearCounters (clearVolatile s)).lines = LineTable.empty
    ∧ (clearCounters (clearVolatile s)).pool = Pool.empty
    ∧ (clearCounters (clearVolatile s)).engine = State.reset.engine
    ∧ (clearCounters (clearVolatile s)).rep = State.reset.rep
    ∧ (clearCounters (clearVolatile s)).tamper = s.tamper
    ∧ (clearCounters (clearVolatile s)).wirePlace = s.wirePlace
    ∧ (clearCounters (clearVolatile s)).freeIndex = s.freeIndex
    ∧ (clearCounters (clearVolatile s)).pending = s.pending := by
  unfold clearVolatile emptyQueue dropPendingQuery
  dsimp only
  split <;> exact ⟨rfl, rfl, rfl, rfl, rfl, rfl, rfl, rfl, rfl, rfl, rfl, rfl⟩

/-- The close reading of an armed door switch that reads closed declares nothing (R179). -/
theorem closeReading_doorClosed {s : State} (hd : s.inputs.pins.doorOpen = false) (ha : (channelOf s.tamper .D).state = .armed) :
    closeReading s = { s with tamper := setChannel s.tamper .D { channelOf s.tamper .D with last := 0 } } := by
  unfold closeReading
  dsimp only
  rw [hd, takeSample_digital ha rfl]
  rfl

/-- The window's end arms the door switch (R179). -/
theorem shutWindow_door {t : Tamper} {n : Nat} (h : t.window = some n) : (channelOf (shutWindow t) .D).state = .armed := by
  unfold shutWindow
  rw [h]
  unfold setChannel channelOf
  dsimp only
  rw [tget_tset_of_ne _ _ (by decide), tget_tset_self]

theorem shutWindow_cause (t : Tamper) : (shutWindow t).cause = t.cause ∧ (shutWindow t).storeValid = t.storeValid := by
  unfold shutWindow
  split <;> exact ⟨rfl, rfl⟩

/-- A window that closes with the door closed, or that was not open, changes the channels alone (R179). -/
theorem closeWindow_doorClosed {s : State} (h : s.tamper.window = none ∨ s.inputs.pins.doorOpen = false) :
    ∃ tm : Tamper, closeWindow s = { s with tamper := tm } ∧ tm.window = none ∧ tm.cause = s.tamper.cause
      ∧ tm.storeValid = s.tamper.storeValid ∧ (s.tamper.window = none → tm = s.tamper) := by
  cases hw : s.tamper.window with
  | none => exact ⟨s.tamper, closeWindow_closed hw, hw, rfl, rfl, fun _ => rfl⟩
  | some n =>
    have hd := h.resolve_left (by rw [hw]; simp)
    have hc : closeWindow s = closeReading { s with tamper := shutWindow s.tamper } := by unfold closeWindow; rw [hw]
    obtain ⟨h1, h2⟩ := shutWindow_cause s.tamper
    refine ⟨_, hc.trans (closeReading_doorClosed hd (shutWindow_door hw)), shutWindow_window s.tamper, h1, h2, fun h => by cases h⟩

/-- With nothing queued, the report of a direct order changes the queue and empties the record (R99). -/
theorem reportDirectOrder_eq {s : State} (hq : s.link.queue = []) : ∃ q n,
    reportDirectOrder s = { s with
      cust := { s.cust with record := none }, link := { s.link with queue := q, nextAge := n } }
    ∧ (s.cust.record = none → q = []) := by
  unfold reportDirectOrder
  cases hr : s.cust.record with
  | none =>
    refine ⟨s.link.queue, s.link.nextAge, ?_, fun _ => hq⟩
    dsimp only
    rw [← hr]
  | some r =>
    dsimp only
    have hf : ∀ f, classFits s.link.queue (txClass f) = true := fun f => by rw [hq, classFits_iff]; simp
    split
    · exact ⟨_, _, if_pos (hf _), fun h => by cases h⟩
    · exact ⟨_, _, if_pos (hf _), fun h => by cases h⟩
    · exact ⟨s.link.queue, s.link.nextAge, rfl, fun h => by cases h⟩

/-- A warm start with the door closed or no window open, block by block. -/
theorem warmStart_eq {s : State} (h : s.tamper.window = none ∨ s.inputs.pins.doorOpen = false) : ∃ tm q n,
    warmStart false s = { warmValues false s with
      tamper := tm, cust := Custody.empty, link := { (warmValues false s).link with queue := q, nextAge := n } }
    ∧ tm.window = none ∧ tm.cause = s.tamper.cause ∧ tm.storeValid = s.tamper.storeValid
    ∧ (s.tamper.window = none → tm = s.tamper) ∧ (s.cust.record = none → q = []) := by
  obtain ⟨hl, -, hcu, -, -, -, -, -, ht, -⟩ := clearedBlocks s
  have ew := warmValues_eq s
  have et : (warmValues false s).tamper = s.tamper := by rw [ew]; exact ht
  have ec : (warmValues false s).cust = { Custody.empty with record := s.cust.record } := by rw [ew]; exact hcu
  have eq : (warmValues false s).link.queue = [] := by rw [ew, hl]; rfl
  have ei : (warmValues false s).inputs.pins = s.inputs.pins := by rw [ew]
  obtain ⟨tm, hc, h1, h2, h3, h4⟩ := closeWindow_doorClosed (s := warmValues false s) (by rw [et, ei]; exact h)
  rw [et] at h2 h3 h4
  obtain ⟨q, n, hr, h5⟩ := reportDirectOrder_eq (s := closeWindow (warmValues false s)) (by rw [hc]; exact eq)
  rw [hc] at hr h5
  refine ⟨tm, q, n, ?_, h1, h2, h3, h4, fun hn => h5 (by dsimp only; rw [ec]; exact hn)⟩
  unfold warmStart
  rw [hc, hr]
  dsimp only
  rw [ec]
  rfl

/-- Settles O5: the warm start's values, and an end of the step that finds nothing to do. -/
theorem supplyReturnWarmStart : Obligations.SupplyReturnWarmStart := by
  intro pins s hm hv hz hw ok st
  have hx : exec (.supplyReturn pins) s = .next (settle (warmStart false (takePins pins s))) := by
    have hs : supplyToRetained (takePins pins s) = warmStart false (takePins pins s) := by
      unfold supplyToRetained
      rw [takePins_tamper, hv, takePins_memb, hz]
      rfl
    unfold exec execSupplyReturn
    dsimp only
    rw [takePins_memb, hm]
    exact congrArg (fun t => Host.Outcome.next (settle t)) hs
  obtain ⟨tm, q, n, he, h1, h2, h3, h4, h5⟩ := warmStart_eq (s := takePins pins s) hw
  rw [warmValues_eq] at he
  obtain ⟨hl, hr, -, hc, hli, hp, hen, hre, -, hwp, hfi, hpe⟩ := clearedBlocks (takePins pins s)
  rw [hl] at he
  have hq : settle (warmStart false (takePins pins s)) = warmStart false (takePins pins s) := by
    rw [he]
    refine settle_quiet rfl (.inr (.inl ?_)) ?_ ?_
    · dsimp only; rw [hr]; rfl
    · dsimp only; rw [hli]; rfl
    · dsimp only; rw [hre]; rfl
  refine ⟨_, hx.trans (congrArg _ (hq.trans he)), rfl, rfl, rfl, rfl, rfl, rfl, rfl, rfl, rfl, rfl, rfl, hwp, hfi, ?_, hr, rfl, hc, hli, hp,
    hen, hre, h1, h2, h3.trans hv, h4, hpe⟩
  exact fun hn => ⟨h5 hn, rfl⟩

end Sys2Proof.Machine


namespace Sys2Proof.Machine

/-! ## Bytes and fields at an offset -/

@[simp] theorem natBytes_length (k x : Nat) : (natBytes k x).length = k := by
  induction k generalizing x with
  | zero => rfl
  | succ k ih => simp [natBytes, ih]

@[simp] theorem field_length {w : Nat} (k : Nat) (x : BitVec w) : (field k x).length = k := natBytes_length k _

@[simp] theorem zeros_length (k : Nat) : (zeros k).length = k := List.length_replicate

theorem bytesNat_concat (l : List Byte) (b : Byte) : bytesNat (l ++ [b]) = bytesNat l * 256 + b.toNat := by
  unfold bytesNat
  rw [List.foldl_append]
  rfl

/-- Bytes read back spell the number modulo what they can hold. -/
theorem bytesNat_natBytes (k x : Nat) : bytesNat (natBytes k x) = x % 256 ^ k := by
  induction k generalizing x with
  | zero => simp [natBytes, bytesNat, Nat.mod_one]
  | succ k ih =>
    have hm : x % (256 * 256 ^ k) = x % 256 + 256 * (x / 256 % 256 ^ k) := Nat.mod_mul
    rw [natBytes, bytesNat_concat, ih, BitVec.toNat_ofNat, Nat.pow_succ' (m := 256), hm]
    show x / 256 % 256 ^ k * 256 + x % 256 = _
    omega

theorem bytesNat_zeros (k : Nat) : bytesNat (zeros k) = 0 := by
  induction k with
  | zero => rfl
  | succ k ih =>
    have h : zeros (k + 1) = zeros k ++ [0#8] := List.replicate_succ'
    rw [h, bytesNat_concat, ih]
    rfl

@[simp] theorem byteAt_cons_zero (b : Byte) (l : List Byte) : byteAt 0 (b :: l) = b := rfl

@[simp] theorem byteAt_cons_pos {off : Nat} (h : 0 < off) (b : Byte) (l : List Byte) : byteAt off (b :: l) = byteAt (off - 1) l := by
  obtain ⟨n, rfl⟩ := Nat.exists_eq_succ_of_ne_zero h.ne'
  rfl

@[simp] theorem byteAt_append_right {off : Nat} {p : List Byte} (h : p.length ≤ off) (l : List Byte) :
    byteAt off (p ++ l) = byteAt (off - p.length) l := by
  unfold byteAt
  rw [List.getD_append_right _ _ _ _ h]

@[simp] theorem fieldAt_cons_pos {w k off : Nat} (h : 0 < off) (b : Byte) (l : List Byte) :
    fieldAt w k off (b :: l) = fieldAt w k (off - 1) l := by
  obtain ⟨n, rfl⟩ := Nat.exists_eq_succ_of_ne_zero h.ne'
  rfl

@[simp] theorem fieldAt_append_right {w k off : Nat} {p : List Byte} (h : p.length ≤ off) (l : List Byte) :
    fieldAt w k off (p ++ l) = fieldAt w k (off - p.length) l := by
  unfold fieldAt
  rw [List.drop_append, List.drop_eq_nil_of_le h, List.nil_append]

/-- A field that its bytes can hold is read back. -/
@[simp] theorem fieldAt_field_append {w k : Nat} (h : w ≤ 8 * k) (x : BitVec w) (l : List Byte) : fieldAt w k 0 (field k x ++ l) = x := by
  have hk : 2 ^ w ≤ 256 ^ k := by
    calc 2 ^ w ≤ 2 ^ (8 * k) := Nat.pow_le_pow_right (by decide) h
      _ = 256 ^ k := by rw [Nat.pow_mul]
  unfold fieldAt
  rw [List.drop_zero, List.take_left' (field_length k x)]
  unfold field
  rw [bytesNat_natBytes, Nat.mod_eq_of_lt (x.isLt.trans_le hk), BitVec.ofNat_toNat, BitVec.setWidth_eq]

@[simp] theorem fieldAt_field {w k : Nat} (h : w ≤ 8 * k) (x : BitVec w) : fieldAt w k 0 (field k x) = x := by
  have := fieldAt_field_append h x []
  rwa [List.append_nil] at this

@[simp] theorem fieldAt_zeros {w k off n : Nat} : fieldAt w k off (zeros n) = 0#w := by
  unfold fieldAt
  have h : ((zeros n).drop off).take k = zeros (min k (n - off)) := by simp [zeros, List.drop_replicate, List.take_replicate]
  rw [h, bytesNat_zeros]

@[simp] theorem flag_getElem (k j : Nat) (hj : j < 8) (b : Bool) : (flag k b)[j] = (b && decide (j = k)) := by
  unfold flag
  cases b <;> simp [eq_comm]

/-! ## Records that repeat -/

theorem flatMap_length {α : Type} {g : α → List Byte} {m : Nat} (hg : ∀ x, (g x).length = m) (xs : List α) :
    (xs.flatMap g).length = m * xs.length := by
  induction xs with
  | nil => rfl
  | cons x xs ih => rw [List.flatMap_cons, List.length_append, hg, ih, List.length_cons]; ring

/-- A list of records of one length, cut where the record with a number stands. -/
theorem flatMap_split {α : Type} {g : α → List Byte} {m : Nat} (hg : ∀ x, (g x).length = m) (pre : List Byte) {xs : List α} {i : Nat}
    (hi : i < xs.length) : ∃ p q, pre ++ xs.flatMap g = p ++ (g xs[i] ++ q) ∧ p.length = pre.length + m * i := by
  refine ⟨pre ++ (xs.take i).flatMap g, (xs.drop (i + 1)).flatMap g, ?_, ?_⟩
  · rw [List.append_assoc, ← List.flatMap_cons, ← List.flatMap_append, List.getElem_cons_drop, List.take_append_drop]
  · rw [List.length_append, flatMap_length hg, List.length_take, min_eq_left hi.le]

/-- Records of one length that follow one another are read back one by one. -/
theorem map_range_flatMap {α : Type} {g : α → List Byte} {m : Nat} {read : Nat → List Byte → α} (hg : ∀ x, (g x).length = m)
    (hr : ∀ p x q, read p.length (p ++ (g x ++ q)) = x) (pre : List Byte) (xs : List α) :
    (List.range xs.length).map (fun i => read (pre.length + m * i) (pre ++ xs.flatMap g)) = xs := by
  refine List.ext_getElem (by simp) fun i h1 h2 => ?_
  obtain ⟨p, q, he, hp⟩ := flatMap_split hg pre h2
  rw [List.getElem_map, List.getElem_range, he, ← hp, hr]

end Sys2Proof.Machine


namespace Sys2Proof.Machine

/-! ## Codes read back (section 11.5) -/

theorem SlotState.ofCode_code (x : SlotState) : SlotState.ofCode? x.code = some x := by cases x <;> rfl

theorem KeyClass.ofCode_code (x : KeyClass) : KeyClass.ofCode? x.code = some x := by cases x <;> rfl

theorem LineState.ofCode_code (x : LineState) : LineState.ofCode? x.code = some x := by cases x <;> rfl

theorem PosState.ofBits_bits (x : PosState) : PosState.ofBits x.bits = x := by cases x <;> rfl

theorem JobKind.ofBit_bit (x : JobKind) : JobKind.ofBit x.bit = x := by cases x <;> rfl

theorem JobFunction.ofBits_bits (x : JobFunction) : JobFunction.ofBits x.bits = x := by cases x <;> rfl

theorem SettledBy.ofBits_bits (x : SettledBy) : SettledBy.ofBits? x.bits = some x := by cases x <;> rfl

theorem DoneReason.ofBits_bits (x : DoneReason) : DoneReason.ofBits? x.bits = some x := by cases x <;> rfl

/-- Two half bytes side by side. -/
theorem extract_halves (a b : BitVec 4) : (a ++ b).extractLsb' 4 4 = a ∧ (a ++ b).extractLsb' 0 4 = b := by
  revert a b; decide

/-- The first byte of a position record: state, kind, function and what settled it (R194). -/
theorem extract_position (a : BitVec 2) (b : BitVec 1) (c : BitVec 2) (d : BitVec 3) :
    (a ++ b ++ c ++ d).extractLsb' 6 2 = a ∧ (a ++ b ++ c ++ d).extractLsb' 5 1 = b
      ∧ (a ++ b ++ c ++ d).extractLsb' 3 2 = c ∧ (a ++ b ++ c ++ d).extractLsb' 0 3 = d := by
  revert a b c d; decide

theorem indexOf_byteOf {n : Nat} (hn : n ≤ 256) (i : Fin n) : indexOf? n (byteOf i) = some i := by
  have h : (byteOf i).toNat = i.val := by
    unfold byteOf
    rw [BitVec.toNat_ofNat, Nat.mod_eq_of_lt (i.isLt.trans_le hn)]
  unfold indexOf?
  rw [dif_pos (by rw [h]; exact i.isLt)]
  exact congrArg some (Fin.ext h)

/-! ## Records (R194) -/

@[simp] theorem labelBytes_length (x : Label) : (labelBytes x).length = 4 := by simp [labelBytes]

@[simp] theorem labelAt_labelBytes (x : Label) (l : List Byte) : labelAt 0 (labelBytes x ++ l) = x := by
  simp [labelAt, labelBytes]

@[simp] theorem labelAt_cons_pos {off : Nat} (h : 0 < off) (b : Byte) (l : List Byte) :
    labelAt off (b :: l) = labelAt (off - 1) l := by
  obtain ⟨n, rfl⟩ := Nat.exists_eq_succ_of_ne_zero h.ne'
  rfl

@[simp] theorem labelAt_append_right {off : Nat} {p : List Byte} (h : p.length ≤ off) (l : List Byte) :
    labelAt off (p ++ l) = labelAt (off - p.length) l := by
  unfold labelAt
  rw [fieldAt_append_right h, byteAt_append_right (by omega), Nat.sub_add_comm h]

theorem slotBytes_length (x : Slot) : (slotBytes x).length = 50 := by simp [slotBytes]

theorem slotOfBytes_slotBytes (x : Slot) : slotOfBytes? (slotBytes x) = some x := by
  simp [slotOfBytes?, slotBytes, SlotState.ofCode_code, KeyClass.ofCode_code]

theorem usageBytes_length (u : Usage) : (usageBytes u).length = 9 := by simp [usageBytes]

theorem usageOfBytes_usageBytes (u : Usage) : usageOfBytes (usageBytes u) = u := by simp [usageOfBytes, usageBytes]

theorem positionBytes_length (x : Position) : (positionBytes x).length = 5 := rfl

/-- A position record is read back wherever it stands. -/
theorem positionAt_positionBytes (p : List Byte) (x : Position) (q : List Byte) :
    positionAt? p.length (p ++ (positionBytes x ++ q)) = some x := by
  obtain ⟨h1, h2, h3, h4⟩ := extract_position x.state.bits x.kind.bit x.function.bits x.settledBy.bits
  obtain ⟨h5, h6⟩ := extract_halves x.owner x.reason.bits
  simp [positionAt?, positionBytes, h1, h2, h3, h4, h5, h6, PosState.ofBits_bits, JobKind.ofBit_bit, JobFunction.ofBits_bits,
    SettledBy.ofBits_bits, DoneReason.ofBits_bits]

/-- The position records of a line entry are read back in order. -/
theorem positionsAt_range {l : List Byte} {n : Nat} {x : Nat → Position} (h : ∀ i < n, positionAt? (5 + 5 * i) l = some (x i)) :
    ∀ is : List Nat, (∀ i ∈ is, i < n) → positionsAt? l is = some (is.map x) := by
  intro is
  induction is with
  | nil => exact fun _ => rfl
  | cons i is ih =>
    intro hi
    rw [positionsAt?, h i (hi i (by simp)), ih fun j hj => hi j (List.mem_cons_of_mem _ hj)]
    rfl

theorem lineBytes_length (e : LineEntry) : (lineBytes e).length = 85 := by
  simp [lineBytes, flatMap_length positionBytes_length]

theorem positionAt_lineBytes (e : LineEntry) (i : Fin 16) :
    positionAt? (5 + 5 * i.val) (lineBytes e) = some (tget e.positions i) := by
  obtain ⟨p, q, he, hp⟩ := flatMap_split positionBytes_length [e.state.code, e.gateway, e.line, e.p ++ e.d, e.pendingClear]
    (xs := e.positions.toList) (i := i.val) (by simp)
  have hl : p.length = 5 + 5 * i.val := hp
  unfold lineBytes
  rw [he, ← hl, positionAt_positionBytes]
  simp [tget]

theorem tableOf_getD_positions (v : Vector Position 16) :
    tableOf 16 (fun i => ((List.range 16).map fun i => v[i]?.getD Position.zero).getD i Position.zero) = v := by
  refine table_ext fun i => ?_
  rw [tget_tableOf]
  simp [tget]

theorem lineOfBytes_lineBytes {e : LineEntry} (h : e.state ≠ .free ∨ e = LineEntry.zero) : lineOfBytes? (lineBytes e) = some e := by
  have hc : LineState.ofCode? (byteAt 0 (lineBytes e)) = some e.state := LineState.ofCode_code e.state
  unfold lineOfBytes?
  rw [hc]
  by_cases hf : e.state = .free
  · have he := h.resolve_left (fun hn => hn hf)
    rw [hf, he]
  · have hps : positionsAt? (lineBytes e) (List.range 16)
        = some ((List.range 16).map fun i => e.positions[i]?.getD Position.zero) := by
      refine positionsAt_range (n := 16) (fun i hi => ?_) _ (fun i hi => List.mem_range.mp hi)
      rw [positionAt_lineBytes e ⟨i, hi⟩]
      simp [tget, hi]
    obtain ⟨h1, h2⟩ := extract_halves e.p e.d
    have h3 : byteAt 3 (lineBytes e) = e.p ++ e.d := rfl
    cases hs : e.state with
    | free => exact absurd hs hf
    | opened =>
      dsimp only
      rw [hps]
      dsimp only
      rw [h3, h1, h2, tableOf_getD_positions, ← hs]
      rfl
    | closing =>
      dsimp only
      rw [hps]
      dsimp only
      rw [h3, h1, h2, tableOf_getD_positions, ← hs]
      rfl

/-! ## Rounds (R194) -/

@[simp] theorem approvalBytes_length (a : Approval) : (approvalBytes a).length = 9 := by simp [approvalBytes]

@[simp] theorem approvalAt_append_right {off : Nat} {p : List Byte} (h : p.length ≤ off) (l : List Byte) :
    approvalAt off (p ++ l) = approvalAt (off - p.length) l := by
  unfold approvalAt
  rw [fieldAt_append_right (by omega), byteAt_append_right h, Nat.sub_add_comm h]

@[simp] theorem approvalAt_cons_pos {off : Nat} (h : 0 < off) (b : Byte) (l : List Byte) :
    approvalAt off (b :: l) = approvalAt (off - 1) l := by
  obtain ⟨n, rfl⟩ := Nat.exists_eq_succ_of_ne_zero h.ne'
  rfl

@[simp] theorem approvalAt_approvalBytes (a : Approval) (l : List Byte) : approvalAt 0 (approvalBytes a ++ l) = a := by
  simp [approvalAt, approvalBytes]

theorem twoApprovals_length (as : List Approval) : (twoApprovals as).length = 18 := by
  match as with
  | [] => rfl
  | [a] => simp [twoApprovals]
  | a :: b :: _ => simp [twoApprovals]

/-- Up to two approvals are read back by their count. -/
theorem take_twoApprovals {as : List Approval} (h : as.length ≤ 2) (l : List Byte) :
    [approvalAt 0 (twoApprovals as ++ l), approvalAt 9 (twoApprovals as ++ l)].take as.length = as := by
  match as, h with
  | [], _ => rfl
  | [a], _ => simp [twoApprovals]
  | [a, b], _ => simp [twoApprovals]

theorem storedBytes_length (k : Option StoredKey) : (storedBytes k).length = 35 := by
  cases k <;> simp [storedBytes]

/-- A stored key reads back, an absent one as all zeros. -/
theorem fieldAt_storedBytes (k : Option StoredKey) : fieldAt 256 32 0 (storedBytes k) = (k.map (·.material)).getD 0#256
    ∧ fieldAt 24 3 32 (storedBytes k) = (k.map (·.check)).getD 0#24 := by
  cases k <;> simp [storedBytes]

theorem roundBytes_length (r : Round) : (roundBytes r).length = 74 := by
  simp [roundBytes, twoApprovals_length, storedBytes_length]

/-- The phase byte of a round record (R194). -/
def phaseByte (p : RoundPhase) : Byte := if p = .awaitingBody then 1#8 else 2#8

theorem phaseByte_read (p : RoundPhase) : phaseByte p ≠ 0#8 ∧ ¬ 2 < (phaseByte p).toNat
    ∧ (if (phaseByte p).toNat = 1 then RoundPhase.awaitingBody else .voting) = p := by
  cases p <;> decide

theorem storedOf_body {b : Option StoredKey} (h : b ≠ some ⟨0#256, 0#24⟩) :
    (if (⟨(b.map (·.material)).getD 0#256, (b.map (·.check)).getD 0#24⟩ : StoredKey) = ⟨0#256, 0#24⟩ then none
      else some (⟨(b.map (·.material)).getD 0#256, (b.map (·.check)).getD 0#24⟩ : StoredKey)) = b := by
  cases b with
  | none => rfl
  | some k => exact if_neg fun hk => h (congrArg some hk)

/-- Where the fields of a round record stand (R194). -/
theorem roundBytes_fields (r : Round) :
    byteAt 0 (roundBytes r) = byteOf r.proposer ∧ byteAt 1 (roundBytes r) = r.number ∧ byteAt 2 (roundBytes r) = r.slot
    ∧ byteAt 3 (roundBytes r) = r.kind ∧ byteAt 4 (roundBytes r) = r.mask ∧ labelAt 5 (roundBytes r) = r.label
    ∧ byteAt 9 (roundBytes r) = r.cls ∧ byteAt 10 (roundBytes r) = r.functions ∧ fieldAt 32 4 11 (roundBytes r) = r.limit
    ∧ fieldAt 16 2 15 (roundBytes r) = r.window ∧ byteAt 17 (roundBytes r) = BitVec.ofNat 8 r.approvals.length
    ∧ fieldAt 16 2 36 (roundBytes r) = r.expected ∧ byteAt 38 (roundBytes r) = phaseByte r.phase
    ∧ fieldAt 256 32 39 (roundBytes r) = (r.body.map (·.material)).getD 0#256
    ∧ fieldAt 24 3 71 (roundBytes r) = (r.body.map (·.check)).getD 0#24 := by
  obtain ⟨hm, hc⟩ := fieldAt_storedBytes r.body
  simp [roundBytes, twoApprovals_length, hm, hc, phaseByte]

theorem roundBytes_approvals {r : Round} (h : r.approvals.length ≤ 2) :
    [approvalAt 18 (roundBytes r), approvalAt 27 (roundBytes r)].take r.approvals.length = r.approvals := by
  simpa [roundBytes] using take_twoApprovals h _

theorem roundOfBytes_roundBytes {r : Round} (h : r.approvals.length ≤ 2) (hb : r.body ≠ some ⟨0#256, 0#24⟩) :
    roundOfBytes? (roundBytes r) = some (some r) := by
  obtain ⟨h0, h1, h2, h3, h4, h5, h9, h10, h11, h15, h17, h36, h38, h39, h71⟩ := roundBytes_fields r
  obtain ⟨hp0, hp2, hp⟩ := phaseByte_read r.phase
  have hcount : (BitVec.ofNat 8 r.approvals.length).toNat = r.approvals.length := by
    rw [BitVec.toNat_ofNat, Nat.mod_eq_of_lt (by omega)]
  unfold roundOfBytes?
  rw [h38, if_neg hp0, h0, indexOf_byteOf (by decide), h17, hcount]
  dsimp only
  rw [if_neg (by simp [hp2, h]), h1, h2, h3, h4, h5, h9, h10, h11, h15, roundBytes_approvals h, h36, h39, h71, hp, storedOf_body hb]

theorem roundOfBytes_noRound : roundOfBytes? noRoundBytes = some none := rfl

end Sys2Proof.Machine


namespace Sys2Proof.Machine

/-! ## Repeated records at the end of a body (R193) -/

@[simp] theorem posRefAt_posRefBytes (x : PosRef) (l : List Byte) : posRefAt 0 (posRefBytes x ++ l) = x := rfl

@[simp] theorem posRefBytes_length (x : PosRef) : (posRefBytes x).length = 3 := rfl

@[simp] theorem cardBytes_length (x : CardRecord) : (cardBytes x).length = 13 := by simp [cardBytes]

@[simp] theorem cardAt_append_right {off : Nat} {p : List Byte} (h : p.length ≤ off) (l : List Byte) :
    cardAt off (p ++ l) = cardAt (off - p.length) l := by
  unfold cardAt
  rw [fieldAt_append_right h, byteAt_append_right (by omega), fieldAt_append_right (by omega), Nat.sub_add_comm h,
    Nat.sub_add_comm h]

@[simp] theorem cardAt_cons_pos {off : Nat} (h : 0 < off) (b : Byte) (l : List Byte) : cardAt off (b :: l) = cardAt (off - 1) l := by
  obtain ⟨n, rfl⟩ := Nat.exists_eq_succ_of_ne_zero h.ne'
  unfold cardAt
  rw [fieldAt_cons_pos h, byteAt_cons_pos (by omega), fieldAt_cons_pos (by omega)]
  rfl

@[simp] theorem cardAt_cardBytes_append (x : CardRecord) (l : List Byte) : cardAt 0 (cardBytes x ++ l) = x := by
  simp [cardAt, cardBytes]

@[simp] theorem cardAt_cardBytes (x : CardRecord) : cardAt 0 (cardBytes x) = x := by
  have := cardAt_cardBytes_append x []
  rwa [List.append_nil] at this

/-- The approval list at the end of a body is read back (R193). -/
theorem approvalListAt_approvalListBytes (p : List Byte) (a : ApprovalList) :
    approvalListAt p.length (p ++ approvalListBytes a) = a := by
  have hl : (p ++ approvalListBytes a).length - (p.length + 1) = 9 * a.entries.length := by
    simp [approvalListBytes, flatMap_length approvalBytes_length]; omega
  have hc : byteAt p.length (p ++ approvalListBytes a) = a.count := by simp [approvalListBytes]
  have he : p ++ approvalListBytes a = (p ++ [a.count]) ++ a.entries.flatMap approvalBytes := by simp [approvalListBytes]
  have hm := map_range_flatMap (read := approvalAt) approvalBytes_length (by intro p x q; simp) (p ++ [a.count]) a.entries
  rw [List.length_append, ← he] at hm
  unfold approvalListAt
  rw [hl, Nat.mul_div_cancel_left _ (by decide), hc]
  exact congrArg (ApprovalList.mk a.count) hm

theorem approvalListAt_of_length {off : Nat} {p : List Byte} (h : p.length = off) (a : ApprovalList) :
    approvalListAt off (p ++ approvalListBytes a) = a := by
  rw [← h]; exact approvalListAt_approvalListBytes p a

/-- The entries of a CLEARED are read back (R193). -/
theorem clearedEntries_read (b : ClearedBody) :
    (List.range (((frameBody (.cleared b)).length - 3) / 2)).map
      (fun i => (⟨byteAt (3 + 2 * i) (frameBody (.cleared b)), byteAt (4 + 2 * i) (frameBody (.cleared b))⟩ : ClearedEntry))
      = b.entries := by
  have hg : ∀ e : ClearedEntry, [e.position, e.consumed].length = 2 := fun _ => rfl
  have hl : (frameBody (.cleared b)).length - 3 = 2 * b.entries.length := by simp [frameBody, flatMap_length hg]
  rw [hl, Nat.mul_div_cancel_left _ (by decide)]
  refine Eq.trans (List.map_congr_left fun i _ => ?_)
    (map_range_flatMap (read := fun off l => ⟨byteAt off l, byteAt (off + 1) l⟩) hg (by intro p x q; simp)
      [b.gateway, b.line, b.count] b.entries)
  rw [show 4 + 2 * i = 3 + 2 * i + 1 by omega]
  rfl

/-- The records of a CARDS are read back (R193). -/
theorem cardRecords_read (b : CardsBody) :
    (List.range (((frameBody (.cards b)).length - 3) / 13)).map (fun i => cardAt (3 + 13 * i) (frameBody (.cards b)))
      = b.records := by
  have hl : (frameBody (.cards b)).length - 3 = 13 * b.records.length := by simp [frameBody, flatMap_length cardBytes_length]
  rw [hl, Nat.mul_div_cancel_left _ (by decide)]
  exact map_range_flatMap (read := cardAt) cardBytes_length (by intro p x q; simp) [b.line, b.position, b.group] b.records

/-! ## Frames (R193) -/

/-- The fields of a frame's body are read back. -/
theorem frameOfBody_frameBody (f : Frame) : frameOfBody (frameKind f) (frameBody f) = f := by
  cases f with
  | zero cause => rfl
  | presence b => simp [frameKind, frameBody, frameOfBody]
  | join founding b => simp [frameKind, frameBody, frameOfBody]
  | expel node reason => rfl
  | claim b => rfl
  | decline pos reason => rfl
  | unclaimed pos => rfl
  | cancel line position => rfl
  | propose b =>
    have ha : approvalListAt 19 (frameBody (.propose b)) = b.approvals := approvalListAt_of_length (by simp) _
    simp only [frameKind, frameOfBody, ha]
    simp [frameBody]
  | roundBody number material check => simp [frameKind, frameBody, frameOfBody]
  | accept proposer number => rfl
  | refuse proposer number reason => rfl
  | commit number seq version => simp [frameKind, frameBody, frameOfBody]
  | abandon number reason => rfl
  | order kind b =>
    have ha : approvalListAt 16 (frameBody (.order kind b)) = b.approvals := approvalListAt_of_length (by simp) _
    simp only [frameKind, frameOfBody, ha]
    simp [frameBody]
  | component b =>
    have ha : approvalListAt 53 (frameBody (.component b)) = b.approvals := approvalListAt_of_length (by simp) _
    simp only [frameKind, frameOfBody, ha]
    simp [frameBody]
  | openLine line => rfl
  | close b => cases b <;> rfl
  | cleared b =>
    simp only [frameKind, frameOfBody, clearedEntries_read]
    rfl
  | job b =>
    obtain ⟨line, position, function, master, transport, card⟩ := b
    cases transport <;> simp [frameKind, frameBody, frameOfBody]
  | batch b => simp [frameKind, frameBody, frameOfBody]
  | cards b =>
    simp only [frameKind, frameOfBody, cardRecords_read]
    rfl
  | answer body => rfl
  | final b => rfl
  | pull area start => rfl
  | image area item seq contents => simp [frameKind, frameBody, frameOfBody]
  | query tag kind arg =>
    have hd : (field 2 tag).drop 3 = [] := List.drop_eq_nil_of_le (by simp)
    simp [frameKind, frameBody, frameOfBody, List.drop_append, hd]
  | report body => rfl

theorem approvalListBytes_length (a : ApprovalList) : (approvalListBytes a).length = 1 + 9 * a.entries.length := by
  simp [approvalListBytes, flatMap_length approvalBytes_length, Nat.add_comm]

theorem approvals_le {a : ApprovalList} {most : Nat} (h : approvalsFit a most = true) : a.entries.length ≤ most := by
  unfold approvalsFit at h
  simp only [Bool.and_eq_true, decide_eq_true_eq] at h
  exact h.1

theorem queryLength_listed {kind : Byte} {arg : List Byte} (h : queryLengthOk kind arg = true) :
    arg.length = 0 ∨ arg.length = 2 ∨ arg.length = 5 := by
  have lengths : ∀ n m : Nat, (n == m) = true → n = m := fun _ _ => eq_of_beq
  unfold queryLengthOk at h
  split at h
  · exact .inl (lengths _ _ h)
  · exact .inl (lengths _ _ h)
  · exact .inl (lengths _ _ h)
  · cases arg with
    | nil => cases h
    | cons sel rest =>
      dsimp only at h
      split at h
      · exact .inr (.inl (lengths _ _ h))
      · split at h
        · exact .inr (.inr (lengths _ _ h))
        · exact .inr ((Bool.or_eq_true _ _ ▸ h).imp (lengths _ _) (lengths _ _))
  · exact .inr (.inl (lengths _ _ h))
  · simpa [or_assoc] using h

/-- A frame whose length fits has a body length that is listed for its kind (R12, R193). -/
theorem bodyLengthListed_frameBody {f : Frame} (h : frameLengthFits f = true) :
    bodyLengthListed (frameKind f) (frameBody f).length = true := by
  cases f with
  | propose b =>
    have ha := approvals_le (show approvalsFit b.approvals 2 = true from h)
    have hl : (frameBody (.propose b)).length = 20 + 9 * b.approvals.entries.length := by
      simp [frameBody, approvalListBytes_length]; omega
    have listed : ∀ n ≤ 2, bodyLengthListed 0x08 (20 + 9 * n) = true := by decide
    rw [hl]
    exact listed _ ha
  | order kind b =>
    have ha := approvals_le (show approvalsFit b.approvals 2 = true from h)
    have hl : (frameBody (.order kind b)).length = 17 + 9 * b.approvals.entries.length := by
      simp [frameBody, approvalListBytes_length]; omega
    have listed : ∀ n ≤ 2, bodyLengthListed 0x0E (17 + 9 * n) = true := by decide
    rw [hl]
    exact listed _ ha
  | component b =>
    have ha := approvals_le (show approvalsFit b.approvals 1 = true from h)
    have hl : (frameBody (.component b)).length = 54 + 9 * b.approvals.entries.length := by
      simp [frameBody, approvalListBytes_length]; omega
    have listed : ∀ n ≤ 1, bodyLengthListed 0x0F (54 + 9 * n) = true := by decide
    rw [hl]
    exact listed _ ha
  | cleared b =>
    have hg : ∀ e : ClearedEntry, [e.position, e.consumed].length = 2 := fun _ => rfl
    have hl : (frameBody (.cleared b)).length = 3 + 2 * b.entries.length := by
      simp [frameBody, flatMap_length hg]; omega
    have hb : b.entries.length ≤ 15 := by
      simp [frameLengthFits] at h
      exact h.1
    rw [hl]
    simp [frameKind, bodyLengthListed]; omega
  | cards b =>
    have hl : (frameBody (.cards b)).length = 3 + 13 * b.records.length := by
      simp [frameBody, flatMap_length cardBytes_length]; omega
    have hb : 1 ≤ b.records.length ∧ b.records.length ≤ 6 := by
      simpa [frameLengthFits, CardsBody.ok, Nat.succ_le_iff] using h
    rw [hl]
    simp [frameKind, bodyLengthListed]; omega
  | close b => cases b <;> rfl
  | job b =>
    obtain ⟨line, position, function, master, transport, card⟩ := b
    cases transport <;> simp [frameKind, frameBody, bodyLengthListed]
  | answer body => exact h
  | image area item seq contents =>
    have hc : imageLengthOk contents.length = true := by
      simp only [frameLengthFits, Bool.and_eq_true] at h
      exact h.1
    simp [imageLengthOk] at hc
    simp [frameKind, frameBody, bodyLengthListed]; omega
  | query tag kind arg =>
    have := queryLength_listed (show queryLengthOk kind arg = true from h)
    simp [frameKind, frameBody, bodyLengthListed]; omega
  | report body =>
    simp only [frameLengthFits, reportBodyOk, Bool.and_eq_true] at h
    exact h.1
  | _ => simp [frameKind, frameBody, bodyLengthListed]

/-- No body length that is listed is above 96 bytes (R10, R193). -/
theorem le_of_bodyLengthListed {k n : Nat} (h : bodyLengthListed k n = true) : n ≤ 96 := by
  unfold bodyLengthListed at h
  split at h <;> simp [answerLengthOk, reportLengthOk] at h <;> omega

theorem frameKind_le (f : Frame) : frameKind f ≤ 0x1B := by cases f <;> simp [frameKind]

/-- The class and kind bits hold what R3 gives. -/
theorem classOf_bits : ∀ k ≤ 0x1B, (BitVec.ofNat 5 k).toNat = k
    ∧ classOf? k = some (BitVec.ofNat 2 ((classOf? k).getD 0)).toNat := by decide

/-- The destination byte is read back (R192). -/
theorem destOfByte_destByte (d : Dest) : destOfByte (destByte d) = d := by
  have all : ∀ (b : Bool) (n : Node), destOfByte (destByte ⟨b, n⟩) = ⟨b, n⟩ := by decide
  exact all d.broadcast d.node

theorem frameOfBody?_frameBody {f : Frame} (h : frameLengthFits f = true) :
    frameOfBody? (frameKind f) (frameBody f) = some f := by
  unfold frameOfBody?
  rw [if_pos (bodyLengthListed_frameBody h), frameOfBody_frameBody]

theorem rawFrame_rawOf {f : Frame} (h : frameLengthFits f = true) (src : Node) (d : Dest) : rawFrame? (rawOf f src d) = some f := by
  obtain ⟨hk, hc⟩ := classOf_bits (frameKind f) (frameKind_le f)
  unfold rawFrame? rawOf
  dsimp only
  rw [hk, if_pos hc, frameOfBody?_frameBody h]

theorem rawHeader_rawOf (f : Frame) (src : Node) (d : Dest) : rawHeader (rawOf f src d) = ⟨src, d⟩ :=
  congrArg (Header.mk src) (destOfByte_destByte d)

/-- Settles O55: each format read back field by field. -/
theorem formatsRoundTrip : Obligations.FormatsRoundTrip := by
  refine ⟨fun f h => ⟨frameOfBody?_frameBody h, le_of_bodyLengthListed (bodyLengthListed_frameBody h), fun src d =>
    ⟨rawFrame_rawOf h src d, rawHeader_rawOf f src d⟩⟩, ?_, ?_, lineBytes_length, fun e => lineOfBytes_lineBytes,
    roundBytes_length, fun r => roundOfBytes_roundBytes, roundOfBytes_noRound⟩
  · exact fun x => ⟨slotBytes_length x, slotOfBytes_slotBytes x⟩
  · exact fun u => ⟨usageBytes_length u, usageOfBytes_usageBytes u⟩

end Sys2Proof.Machine


namespace Sys2Proof.Machine

/-! ## A descriptor through the pool's returns and grants (R144, R145, R150) -/

/-- The pool after its refusal mark has been cleared or not: every other field stands. -/
theorem resourcesFreed_pool (s : State) : ∃ r, (resourcesFreed s).pool = { s.pool with refused := r } := by
  unfold resourcesFreed
  split
  · exact ⟨false, rfl⟩
  · exact ⟨s.pool.refused, rfl⟩

theorem resourcesFreed_engine (s : State) : (resourcesFreed s).engine = s.engine := by
  unfold resourcesFreed
  split <;> rfl

/-- The pool that a job has left, its refusal mark apart (R145, R150, R152). -/
def poolFreed (p : Pool) (d : DescId) : Pool :=
  let q := (p.returnBlocks (chainBlocks (tget p.descs d))).unqueue d
  { q with free := q.free ++ [d], descs := tset p.descs d Descriptor.zero }

theorem tmod_tmod {α : Type} {n : Nat} (t : Vector α n) (i : Fin n) (f g : α → α) :
    tmod (tmod t i f) i g = tmod t i (g ∘ f) :=
  table_ext fun j => by
    simp only [tget_tmod]
    split <;> simp_all

/-- Writing back what a table holds changes nothing. -/
theorem tset_tget {α : Type} {n : Nat} (t : Vector α n) (i : Fin n) : tset t i (tget t i) = t :=
  table_ext fun j => by
    rw [tget_tset]
    split
    · rename_i e; rw [e]
    · rfl

theorem freeDescriptor_pool (s : State) (d : DescId) :
    ∃ r, (freeDescriptor s d).pool = { poolFreed s.pool d with refused := r } := by
  obtain ⟨r, h⟩ := resourcesFreed_pool
    { withPool (modDesc (releaseStorage s d) d (fun _ => Descriptor.zero))
        { (modDesc (releaseStorage s d) d (fun _ => Descriptor.zero)).pool.unqueue d with
          free := ((modDesc (releaseStorage s d) d (fun _ => Descriptor.zero)).pool.unqueue d).free ++ [d] } with
      engine := { (releaseStorage s d).engine with segs := tset (releaseStorage s d).engine.segs d [] } }
  refine ⟨r, h.trans ?_⟩
  simp only [releaseStorage, withPool_pool, modDesc_pool, Pool.unqueue, Pool.returnBlocks, poolFreed, tmod_tmod]
  rfl

theorem freeDescriptor_segs (s : State) (d : DescId) : (freeDescriptor s d).engine.segs = tset s.engine.segs d [] := by
  unfold freeDescriptor
  exact congrArg Engine.segs (resourcesFreed_engine _)

theorem findClaiming_mem {s : State} {pos : PosRef} {d : DescId} (h : findClaiming s pos = some d) : d ∈ s.pool.claiming :=
  List.mem_of_find?_eq_some h

/-- A grant moves the head of the free list to CLAIMING; a refusal only marks the pool (R144). -/
theorem grantClaim_pool (pos : PosRef) (x : Position) (note : PostingNote) (s : State) :
    (∃ d rest, s.pool.free = d :: rest ∧ (grantClaim pos x note s).2.pool =
        { s.pool.toClaiming d with descs := tset s.pool.descs d (grantedDescriptor pos x note) })
    ∨ (grantClaim pos x note s).2.pool = { s.pool with refused := true } := by
  unfold grantClaim
  split
  · exact .inr rfl
  · rename_i d rest hf
    split
    · exact .inl ⟨d, rest, hf, rfl⟩
    · exact .inr rfl

theorem grantClaim_engine (pos : PosRef) (x : Position) (note : PostingNote) (s : State) :
    (grantClaim pos x note s).2.engine = s.engine := by
  unfold grantClaim
  split
  · rfl
  · split <;> rfl

/-! ## What the end of a step does to the pool -/

/-- The segment records with one segment in another phase (R166). -/
def rephased (number : Nat) (phase : SegPhase) (l : List Segment) : List Segment :=
  l.map (fun g => if g.number == number then { g with phase := phase } else g)

/-- A property of the pool and the segment records that the phases of segments, claims returned, grants and the refusal mark leave
standing: what the end of a step does to either. -/
structure PoolKeeps (I : Pool → Vector (List Segment) 48 → Prop) : Prop where
  phase : ∀ {p g} (d : DescId) (number : Nat) (phase : SegPhase), I p g → I p (tmod g d (rephased number phase))
  mark : ∀ {p g} (r : Bool), I p g → I { p with refused := r } g
  free : ∀ {p g d}, d ∈ p.claiming → I p g → I (poolFreed p d) (tset g d [])
  grant : ∀ {p g d} (x : Descriptor), d ∈ p.free → I p g → I { p.toClaiming d with descs := tset p.descs d x } g

/-- The property of a state that a property of its pool and segment records is. -/
def ofPool (I : Pool → Vector (List Segment) 48 → Prop) (s : State) : Prop := I s.pool s.engine.segs

section

variable {I : Pool → Vector (List Segment) 48 → Prop}

theorem ofPool_of_eq {s t : State} (hp : t.pool = s.pool) (hg : t.engine.segs = s.engine.segs) (h : ofPool I s) : ofPool I t := by
  unfold ofPool
  rw [hp, hg]
  exact h

theorem ofPool_of_sameBut {c : List Part} {s t : State} (e : SameBut c s t) (hp : Part.pool ∉ c) (hg : Part.segments ∉ c)
    (h : ofPool I s) : ofPool I t := ofPool_of_eq (e .pool hp) (e .segments hg) h

theorem PoolKeeps.placeFrame (hI : PoolKeeps I) (f : TxFrame) {s : State} (h : ofPool I s) : ofPool I (placeFrame f s) := by
  unfold Machine.placeFrame
  split
  · exact hI.phase _ _ _ h
  · exact h
  · exact h

theorem PoolKeeps.request (hI : PoolKeeps I) (f : TxFrame) {s : State} (h : ofPool I s) : ofPool I (request f s) := by
  unfold Machine.request
  split
  · exact hI.placeFrame f h
  · exact h

theorem PoolKeeps.requests (hI : PoolKeeps I) {α : Type} (g : α → TxFrame) (l : List α) {s : State} (h : ofPool I s) :
    ofPool I (l.foldl (fun s x => Machine.request (g x) s) s) := by
  induction l generalizing s with
  | nil => exact h
  | cons x l ih => exact ih (hI.request _ h)

theorem PoolKeeps.fillLoop (hI : PoolKeeps I) (k : Nat) {s : State} (h : ofPool I s) : ofPool I (fillLoop k s) := by
  induction k generalizing s with
  | zero => exact h
  | succ k ih =>
    unfold Machine.fillLoop
    split
    · exact h
    · split
      · exact h
      · refine ih (hI.placeFrame _ ?_)
        exact h

theorem PoolKeeps.fillQueue (hI : PoolKeeps I) {s : State} (h : ofPool I s) : ofPool I (fillQueue s) := hI.fillLoop _ h

theorem PoolKeeps.retract (hI : PoolKeeps I) (p : TxFrame → Bool) {s : State} (h : ofPool I s) : ofPool I (retract p s) :=
  hI.fillQueue (s := { s with link := withdrawLink s.link p }) h

theorem PoolKeeps.freeDescriptor (hI : PoolKeeps I) {d : DescId} {s : State} (hd : d ∈ s.pool.claiming) (h : ofPool I s) :
    ofPool I (freeDescriptor s d) := by
  obtain ⟨r, hr⟩ := freeDescriptor_pool s d
  unfold ofPool
  rw [hr, freeDescriptor_segs]
  exact hI.mark r (hI.free hd h)

theorem PoolKeeps.returnClaim (hI : PoolKeeps I) (pos : PosRef) {s : State} (h : ofPool I s) : ofPool I (returnClaim pos s) := by
  unfold Machine.returnClaim
  dsimp only
  split
  · exact h
  · exact hI.freeDescriptor (findClaiming_mem ‹_›) h

theorem PoolKeeps.returnClaims (hI : PoolKeeps I) (fs : List TxFrame) {s : State} (h : ofPool I s) :
    ofPool I (returnClaims fs s) := by
  induction fs generalizing s with
  | nil => exact h
  | cons f fs ih =>
    refine ih ?_
    dsimp only
    split
    · exact hI.returnClaim _ h
    · exact h

theorem PoolKeeps.grantClaim (hI : PoolKeeps I) (pos : PosRef) (x : Position) (note : PostingNote) {s : State}
    (h : ofPool I s) : ofPool I (grantClaim pos x note s).2 := by
  unfold ofPool
  rw [grantClaim_engine]
  rcases grantClaim_pool pos x note s with ⟨d, rest, hf, hp⟩ | hp
  · rw [hp]
    exact hI.grant _ (by rw [hf]; exact List.mem_cons_self) h
  · rw [hp]
    exact hI.mark true h

/-- The end of a step keeps such a property. -/
theorem PoolKeeps.settle (hI : PoolKeeps I) {s : State} (h : ofPool I s) : ofPool I (settle s) := by
  refine SettleKeeps.settle (I := ofPool I) ?_ h
  exact {
    request := fun _ _ h => hI.request _ h
    claims := fun _ _ h => hI.retract _ h
    declines := fun _ _ h => hI.retract _ h
    returns := fun fs _ h => hI.returnClaims fs h
    grants := fun pos x note _ h => hI.grantClaim pos x note h
    beside := fun b h => ofPool_of_eq b.pool (congrArg Engine.segs b.engine) h
    ask := fun _ _ _ h => hI.request _ h
    skip := fun _ _ _ h => h }

end

/-! ## A descriptor that has returned -/

/-- The descriptor of an ended job is free, its fields zero, or granted anew; its blocks and its segment records are gone (R150). -/
structure DescReturned (d : DescId) (bs : List BlockId) (p : Pool) (g : Vector (List Segment) 48) : Prop where
  draining : d ∉ p.draining
  held : d ∈ p.free ∨ d ∈ p.claiming
  zero : d ∈ p.free → tget p.descs d = Descriptor.zero
  blocks : ∀ b ∈ bs, b ∈ p.freeBlocks
  segs : tget g d = []

theorem DescReturned.freed (d : DescId) (p : Pool) (g : Vector (List Segment) 48) :
    DescReturned d (chainBlocks (tget p.descs d)) (poolFreed p d) (tset g d []) where
  draining := by simp [poolFreed, Pool.unqueue, Pool.returnBlocks]
  held := by simp [poolFreed, Pool.unqueue]
  zero := fun _ => by simp [poolFreed]
  blocks := fun b hb => by simp [poolFreed, Pool.unqueue, Pool.returnBlocks, hb]
  segs := by simp

theorem descReturned_keeps (d : DescId) (bs : List BlockId) : PoolKeeps (DescReturned d bs) where
  phase := fun {p g} d' _ _ h => ⟨h.draining, h.held, h.zero, h.blocks, by
    rw [tget_tmod]
    split
    · rename_i e; rw [← e, h.segs]; rfl
    · exact h.segs⟩
  mark := fun _ h => ⟨h.draining, h.held, h.zero, h.blocks, h.segs⟩
  free := fun {p g d'} _ h => by
    by_cases e : d' = d
    · subst e
      refine { DescReturned.freed d' p g with blocks := fun b hb => ?_ }
      exact List.mem_append_left _ (h.blocks b hb)
    · have e' : d ≠ d' := fun x => e x.symm
      have hd : tget (tset p.descs d' Descriptor.zero) d = tget p.descs d := tget_tset_of_ne _ _ e'
      refine ⟨?_, ?_, ?_, ?_, ?_⟩
      · simpa [poolFreed, Pool.unqueue, Pool.returnBlocks, e'] using h.draining
      · simpa [poolFreed, Pool.unqueue, Pool.returnBlocks, e'] using h.held
      · intro hf
        exact hd.trans (h.zero (by simpa [poolFreed, Pool.unqueue, Pool.returnBlocks, e'] using hf))
      · exact fun b hb => List.mem_append_left _ (h.blocks b hb)
      · rw [tget_tset_of_ne _ _ e']; exact h.segs
  grant := fun {p g d'} x hd' h => by
    by_cases e : d' = d
    · subst e
      exact ⟨by simp [Pool.toClaiming, Pool.unqueue], by simp [Pool.toClaiming], by simp [Pool.toClaiming, Pool.unqueue],
        h.blocks, h.segs⟩
    · have e' : d ≠ d' := fun x => e x.symm
      refine ⟨?_, ?_, ?_, h.blocks, h.segs⟩
      · simpa [Pool.toClaiming, Pool.unqueue, e'] using h.draining
      · simpa [Pool.toClaiming, Pool.unqueue, e'] using h.held
      · intro hf
        have hz := h.zero (by simpa [Pool.toClaiming, Pool.unqueue, e'] using hf)
        exact (tget_tset_of_ne _ _ e').trans hz

/-! ## A job that goes on -/

/-- The job of a descriptor stands as it was, current or not, its segment records have a property, and the blocks are free. -/
structure JobStands (d : DescId) (x : Descriptor) (current : Prop) (q : List Segment → Prop) (bs : List BlockId) (p : Pool)
    (g : Vector (List Segment) 48) : Prop where
  free : d ∉ p.free
  claiming : d ∉ p.claiming
  desc : tget p.descs d = x
  engine : p.engine = some d ↔ current
  segs : q (tget g d)
  blocks : ∀ b ∈ bs, b ∈ p.freeBlocks

theorem jobStands_keeps (d : DescId) (x : Descriptor) (current : Prop) {q : List Segment → Prop}
    (hq : ∀ number phase l, q l → q (rephased number phase l)) (bs : List BlockId) :
    PoolKeeps (JobStands d x current q bs) where
  phase := fun {p g} d' _ _ h => ⟨h.free, h.claiming, h.desc, h.engine, by
    rw [tget_tmod]
    split
    · rename_i e; rw [← e]; exact hq _ _ _ h.segs
    · exact h.segs, h.blocks⟩
  mark := fun _ h => ⟨h.free, h.claiming, h.desc, h.engine, h.segs, h.blocks⟩
  free := fun {p g d'} hd' h => by
    have e' : d ≠ d' := fun e => h.claiming (e ▸ hd')
    have e : d' ≠ d := e'.symm
    refine ⟨?_, ?_, (tget_tset_of_ne _ _ e').trans h.desc, ?_, ?_, fun b hb => List.mem_append_left _ (h.blocks b hb)⟩
    · simpa [poolFreed, Pool.unqueue, Pool.returnBlocks, e'] using h.free
    · simpa [poolFreed, Pool.unqueue, Pool.returnBlocks, e'] using h.claiming
    · refine Iff.trans ?_ h.engine
      by_cases hp : p.engine = some d' <;> simp [poolFreed, Pool.unqueue, Pool.returnBlocks, hp, e]
    · rw [tget_tset_of_ne _ _ e']; exact h.segs
  grant := fun {p g d'} y hd' h => by
    have e' : d ≠ d' := fun e => h.free (e ▸ hd')
    have e : d' ≠ d := e'.symm
    refine ⟨?_, ?_, (tget_tset_of_ne _ _ e').trans h.desc, ?_, h.segs, h.blocks⟩
    · simpa [Pool.toClaiming, Pool.unqueue, e'] using h.free
    · simpa [Pool.toClaiming, Pool.unqueue, e'] using h.claiming
    · refine Iff.trans ?_ h.engine
      by_cases hp : p.engine = some d' <;> simp [Pool.toClaiming, Pool.unqueue, hp, e]

/-- No segment has a number. -/
def NoSegment (number : Nat) (l : List Segment) : Prop := ∀ y ∈ l, y.number ≠ number

theorem NoSegment.rephased {n : Nat} (number : Nat) (phase : SegPhase) {l : List Segment} (h : NoSegment n l) :
    NoSegment n (rephased number phase l) := by
  unfold NoSegment Machine.rephased
  simp only [List.mem_map]
  rintro y ⟨g, hg, rfl⟩
  split <;> exact h g hg

/-- The first segment of a number carries these results. -/
def SegmentCarries (number first count : Nat) (l : List Segment) : Prop :=
  ∃ y, l.find? (fun g => g.number == number) = some y ∧ y.first = first ∧ y.count = count

theorem SegmentCarries.rephased {n first count : Nat} (number : Nat) (phase : SegPhase) {l : List Segment}
    (h : SegmentCarries n first count l) : SegmentCarries n first count (rephased number phase l) := by
  obtain ⟨y, hy, hf, hc⟩ := h
  have hp : ((fun g : Segment => g.number == n) ∘ fun g => if g.number == number then { g with phase := phase } else g)
      = fun g => g.number == n := funext fun g => by simp only [Function.comp]; split <;> rfl
  refine ⟨if y.number == number then { y with phase := phase } else y, ?_, ?_, ?_⟩
  · unfold Machine.rephased
    rw [List.find?_map, hp, hy]
    rfl
  · split <;> exact hf
  · split <;> exact hc

end Sys2Proof.Machine


namespace Sys2Proof.Machine

/-! ## The own frame sent (R8, R9) -/

/-- The sent entry freed and its room filled (R15, R16). -/
def entryFreed (age : Nat) (s : State) : State :=
  fillQueue { setBus s .idle with link := freeEntry (setBus s .idle).link age }

/-- The sent register emptied (R16, R17), and the pending frames admitted that fit. -/
def registerFreed (c : Candidate) (s : State) : State :=
  fillQueue { setBus s .idle with link := releaseSent c (setBus s .idle).link }

/-- The own frame through the receive filter of its sender (R9). -/
def selfDelivered (d : Dest) (f : Frame) (own : Node) (s : State) : State :=
  filterFrame ⟨own, d⟩ f (deliver ⟨own, d⟩ f) s

theorem frameCompleted_entry (receipt : NodeMap) {s : State} {age : Nat} {d : Dest} {f : Frame} {e : TxEntry}
    (hb : s.link.bus = .sending (.entry age) d f) (he : entryOf s.link age = some e) :
    frameCompleted receipt s = completed e.frame receipt (selfDelivered d f (ownNode s) (entryFreed age s)) := by
  unfold frameCompleted
  rw [hb]
  dsimp only [sentFrame]
  rw [he]
  rfl

theorem frameCompleted_register (receipt : NodeMap) {s : State} {c : Candidate} {d : Dest} {f : Frame}
    (hb : s.link.bus = .sending c d f) (hc : c = .alarm ∨ c = .presence) :
    frameCompleted receipt s = selfDelivered d f (ownNode s) (registerFreed c s) := by
  unfold frameCompleted
  rw [hb]
  rcases hc with rfl | rfl <;> rfl

theorem frameCompleted_other (receipt : NodeMap) {s : State} (h : ∀ c d f, s.link.bus ≠ .sending c d f) :
    frameCompleted receipt s = s := by
  unfold frameCompleted
  split
  · exact absurd ‹_› (h _ _ _)
  · rfl

theorem selfDelivered_moves (d : Dest) (f : Frame) (own : Node) (s : State) : Moves s (selfDelivered d f own s) :=
  filterFrame_moves _ _ (deliver_moves _ _) s

theorem entryFreed_sameBut (age : Nat) (s : State) : SameBut [.bus, .txQueue, .segments, .queries] s (entryFreed age s) :=
  freed_sameBut s age

/-- A sent frame leaves the bus idle and no entry of its age (R8, R16). -/
theorem frameCompleted_gone (receipt : NodeMap) {s : State} {age : Nat} {d : Dest} {f : Frame} {e : TxEntry} (ho : QueueOrdered s)
    (hb : s.link.bus = .sending (.entry age) d f) (he : entryOf s.link age = some e) :
    (settle (frameCompleted receipt s)).link.bus = .idle ∧ entryOf (settle (frameCompleted receipt s)).link age = none := by
  rw [frameCompleted_entry receipt hb he]
  exact freed_gone ho he (((selfDelivered_moves _ _ _ _).trans (completed_moves _ _ _)).trans (settle_moves _))

/-- The bus is idle after a frame has been sent. -/
theorem entryFreed_idle (age : Nat) {s t : State} (h : Moves (entryFreed age s) t) : t.link.bus = .idle :=
  ((fillQueue_moves _).trans h).keeps (I := fun t => t.link.bus = .idle) Move.keeps_idle rfl

/-! ## What a station's own frame does at the station itself -/

/-- A kind that stations alone send never notes a gateway: the filter counts the frame, drives the slot, or hands it over. -/
theorem filterFrame_station_sameBut {h : Header} {f : Frame} {g : State → State} {s : State} {c : List Part}
    (hf : frameSentBy f .gateway = false) (hg : SameBut c (receivedIntact s) (g (receivedIntact s)))
    (hc : frameNeedsMember f = true → Part.nonMember ∈ c) :
    SameBut (.slotDriven :: .wirePlace :: .misplaced :: c) s (filterFrame h f g s) := by
  have hr : ∀ {d : List Part} {t : State}, SameBut d (receivedIntact s) t → (∀ p ∈ d, p ∈ Part.misplaced :: c) →
      SameBut (.slotDriven :: .wirePlace :: .misplaced :: c) s t := fun e hd =>
    (receivedIntact_sameBut s).comp e (by simp) (fun p hp => List.mem_cons_of_mem _ (List.mem_cons_of_mem _ (hd p hp)))
  unfold filterFrame
  split
  · split
    · exact hr (countMisplaced_sameBut _) (by simp)
    · rename_i hm
      have hs : roleOf (stationCount s) h.src = .station := by
        rcases e : roleOf (stationCount s) h.src
        · rfl
        · simp [frameMisplaced, e, hf] at hm
      have hn : noteGateway h (receivedIntact s) = receivedIntact s := noteGateway_station hs
      unfold handOver
      rw [hn]
      dsimp only
      split
      · exact hr (SameBut.refl [] _) (by simp)
      · split
        · rename_i hx
          have hneeds : frameNeedsMember f = true := by
            unfold failsMembership at hx
            simp only [Bool.and_eq_true] at hx
            exact hx.1.2
          exact hr (countNonMember_sameBut _) (by simp [hc hneeds])
        · split
          · exact hr hg (fun p hp => List.mem_cons_of_mem _ hp)
          · exact hr (SameBut.refl [] _) (by simp)
  · exact (slotUndriven_sameBut s).mono (by simp)

/-- What the sending of an entry may change before its producer is told, its own delivery apart. -/
def sending : List Part := [.bus, .txQueue, .segments, .queries, .slotDriven, .wirePlace, .misplaced]

theorem sent_sameBut {age : Nat} {d : Dest} {f : Frame} {own : Node} {s : State} {c : List Part}
    (hf : frameSentBy f .gateway = false)
    (hg : ∀ w, w.memb = s.memb → SameBut c w (deliver ⟨own, d⟩ f w)) (hc : frameNeedsMember f = true → Part.nonMember ∈ c) :
    SameBut (sending ++ c) s (selfDelivered d f own (entryFreed age s)) := by
  have he := entryFreed_sameBut age s
  have hm : (receivedIntact (entryFreed age s)).memb = s.memb := he.memb (by decide)
  exact he.comp (filterFrame_station_sameBut hf (hg _ hm) hc)
    (fun p hp => List.mem_append_left _ (by revert p; decide))
    (by simp only [List.forall_mem_cons]
        exact ⟨by simp [sending], by simp [sending], by simp [sending], fun p hp => List.mem_append_right _ hp⟩)

theorem onPull_notLive (h : Header) (area start : Byte) {s : State} (hl : isLive s = false) : onPull h area start s = s := by
  unfold onPull
  split
  · rfl
  · rw [hl]; rfl

theorem onImage_notCatchup (h : Header) (area item : Byte) (seq : Word) (contents : List Byte) {s : State}
    (hl : inCatchup s = false) : onImage h area item seq contents s = s := by
  unfold onImage takesImages
  split
  · rfl
  · rw [hl]; rfl

/-- The own PULL, delivered to the CATCHUP station that sends it, is served by no one there (R113). -/
theorem sentPull_sameBut (age : Nat) (d : Dest) (area start : Byte) (own : Node) {s : State} (hs : s.memb.state = .catchup) :
    SameBut sending s (selfDelivered d (.pull area start) own (entryFreed age s)) := by
  have h := sent_sameBut (age := age) (d := d) (f := .pull area start) (own := own) (s := s) (c := []) rfl
    (fun w hw => by
      have : isLive w = false := by unfold isLive; rw [hw, hs]; rfl
      show SameBut [] w (onPull ⟨own, d⟩ area start w)
      rw [onPull_notLive _ _ _ this]
      exact SameBut.refl _ w)
    (by intro h; cases h)
  simpa using h

/-- The own IMAGE, delivered to the LIVE station that sends it, overwrites nothing there (R114). -/
theorem sentImage_sameBut (age : Nat) (d : Dest) (area item : Byte) (seq : Word) (contents : List Byte) (own : Node) {s : State}
    (hs : s.memb.state = .live) :
    SameBut sending s (selfDelivered d (.image area item seq contents) own (entryFreed age s)) := by
  have h := sent_sameBut (age := age) (d := d) (f := .image area item seq contents) (own := own) (s := s) (c := []) rfl
    (fun w hw => by
      have : inCatchup w = false := by unfold inCatchup; rw [hw, hs]; rfl
      show SameBut [] w (onImage ⟨own, d⟩ area item seq contents w)
      rw [onImage_notCatchup _ _ _ _ _ this]
      exact SameBut.refl _ w)
    (by intro h; cases h)
  simpa using h

/-- The own ANSWER is passed over at its sender (R11). -/
theorem sentAnswer_sameBut (age : Nat) (d : Dest) (body : List Byte) (own : Node) (s : State) :
    SameBut sending s (selfDelivered d (.answer body) own (entryFreed age s)) := by
  have h := sent_sameBut (age := age) (d := d) (f := .answer body) (own := own) (s := s) (c := []) rfl
    (fun w _ => SameBut.refl _ w) (by intro h; cases h)
  simpa using h

/-- The own FINAL ends its position at its sender too (R135). -/
theorem sentFinal_sameBut (age : Nat) (d : Dest) (b : FinalBody) (own : Node) (s : State) :
    SameBut (sending ++ [.nonMember, .usage, .entries, .notice]) s (selfDelivered d (.final b) own (entryFreed age s)) :=
  sent_sameBut rfl (fun w _ => (onFinal_sameBut ⟨own, d⟩ b w).mono (by decide)) (fun _ => by decide)

/-! ## The sent registers -/

theorem registerFreed_presence_sameBut (s : State) :
    SameBut [.bus, .presence, .txQueue, .segments, .queries] s (registerFreed .presence s) := by
  refine SameBut.comp (t := { setBus s .idle with link := releaseSent .presence (setBus s .idle).link })
    (c := [.bus, .presence]) ?_ (fillQueue_sameBut _) (by decide) (by decide)
  intro p hp
  cases p <;> first | rfl | exact ⟨rfl, rfl⟩ | exact ⟨rfl, rfl, rfl⟩ | exact absurd (by decide) hp

theorem registerFreed_alarm_sameBut (s : State) :
    SameBut [.bus, .alarm, .txQueue, .segments, .queries] s (registerFreed .alarm s) := by
  refine SameBut.comp (t := { setBus s .idle with link := releaseSent .alarm (setBus s .idle).link })
    (c := [.bus, .alarm]) ?_ (fillQueue_sameBut _) (by decide) (by decide)
  intro p hp
  cases p <;> first | rfl | exact ⟨rfl, rfl⟩ | exact ⟨rfl, rfl, rfl⟩ | exact absurd (by decide) hp

theorem registerFreed_presence (s : State) : (registerFreed .presence s).link.presence = ⟨s.link.presence.reload, false⟩ :=
  (fillQueue_sameBut _) .presence (by decide)

theorem registerFreed_alarm (s : State) : (registerFreed .alarm s).link.alarm = none :=
  (fillQueue_sameBut _) .alarm (by decide)

theorem registerFreed_idle {c : Candidate} (hc : c = .alarm ∨ c = .presence) {s t : State} (h : Moves (registerFreed c s) t) :
    t.link.bus = .idle := by
  refine ((fillQueue_moves _).trans h).keeps (I := fun t => t.link.bus = .idle) Move.keeps_idle ?_
  rcases hc with rfl | rfl <;> rfl

/-! ## A frame that its sender ignores -/

theorem roleOf_ownNode {s : State} (h : s.straps.valid = true) : roleOf (stationCount s) (ownNode s) = .station := by
  unfold Straps.valid at h
  simp only [Bool.and_eq_true, decide_eq_true_eq] at h
  exact if_pos h.1.1.1

/-- An own frame that fits, needs no member and changes nothing at its block drives the slot and no more (R7, R9). -/
theorem selfDelivered_inert {d : Dest} {f : Frame} {s : State} (hon : onLink s = true) (hv : s.straps.valid = true)
    (hsent : frameSentBy f .station = true) (haddr : frameAddressingFits f d = true) (hlen : frameLengthFits f = true)
    (hneeds : frameNeedsMember f = false) (hin : deliver ⟨ownNode s, d⟩ f (receivedIntact s) = receivedIntact s) :
    selfDelivered d f (ownNode s) s = receivedIntact s := by
  have hrole := roleOf_ownNode hv
  have hm : frameMisplaced f (stationCount s) ⟨ownNode s, d⟩ = false := by simp [frameMisplaced, hrole, hsent, haddr, hlen]
  have hg : noteGateway ⟨ownNode s, d⟩ (receivedIntact s) = receivedIntact s := noteGateway_station hrole
  have hx : failsMembership (receivedIntact s) ⟨ownNode s, d⟩ f = false := by simp [failsMembership, hneeds]
  unfold selfDelivered filterFrame handOver
  rw [if_pos hon, hm, if_neg (by decide), hg]
  dsimp only
  rw [hx, if_neg (c := false = true) (by decide), hin, ite_self, ite_self]

/-- The own ZERO zeroises another station, not its sender (R181). -/
theorem onZero_own (d : Dest) (cause : Byte) {s : State} (hv : s.straps.valid = true) :
    onZero ⟨ownNode s, d⟩ cause s = s := by
  have hs : stationOf? s (ownNode s) = some (self s) := by
    unfold Straps.valid at hv
    simp only [Bool.and_eq_true, decide_eq_true_eq] at hv
    exact if_pos hv.1.1.1
  unfold onZero
  rw [hs]
  simp

theorem ownNode_of_straps {s t : State} (h : t.straps = s.straps) : ownNode t = ownNode s := by
  simp only [ownNode, h]

theorem onLink_of_memb {s t : State} (h : t.memb = s.memb) (ho : onLink s = true) : onLink t = true := by
  unfold onLink at ho ⊢
  rw [h]; exact ho

end Sys2Proof.Machine


namespace Sys2Proof.Machine

/-! ## STREAM blocks and the sent index (R151, R171) -/

theorem cellWaits_iff (sent : Nat) (status : JobStatus) (c : Cell) :
    cellWaits sent status c = true ↔ CellStillWaits sent status c := by
  unfold cellWaits CellStillWaits
  cases c <;> simp

theorem blockDone_eq_false_iff (p : Pool) (sent : Nat) (status : JobStatus) (b : BlockId) :
    blockDone p sent status b = false ↔ ∃ cell ∈ (tget p.blocks b).toList, CellStillWaits sent status cell := by
  unfold blockDone
  simp only [Bool.not_eq_false', List.any_eq_true, cellWaits_iff]

/-- The blocks of a job in which no cell waits. -/
def doneBlocks (s : State) (d : DescId) : List BlockId :=
  (chainBlocks (descOf s d)).filter (blockDone s.pool (jobContext s d).sent (descOf s d).status)

/-- A chain place without the blocks that have returned. -/
def leaveOut (done : List BlockId) (c : Option BlockId) : Option BlockId :=
  match c with
  | some b => if done.contains b then none else some b
  | none => none

theorem leaveOut_nil (c : Option BlockId) : leaveOut [] c = c := by
  cases c <;> rfl

theorem some_mem_leaveOut (done : List BlockId) (b : BlockId) (l : List (Option BlockId)) :
    some b ∈ l.map (leaveOut done) ↔ some b ∈ l ∧ b ∉ done := by
  rw [List.mem_map]
  constructor
  · rintro ⟨c, hc, e⟩
    unfold leaveOut at e
    split at e
    · split at e
      · cases e
      · rename_i x h
        cases e
        exact ⟨hc, by simpa using h⟩
    · cases e
  · rintro ⟨hb, hn⟩
    exact ⟨some b, hb, by simp [leaveOut, hn]⟩

theorem mem_chainBlocks (x : Descriptor) (b : BlockId) : b ∈ chainBlocks x ↔ some b ∈ x.chain := by
  unfold chainBlocks
  simp

/-- The job's descriptor after its done blocks have returned. -/
def chainLeft (s : State) (d : DescId) : Descriptor :=
  { descOf s d with chain := (descOf s d).chain.map (leaveOut (doneBlocks s d)) }

theorem streamReturn_other {s : State} {d : DescId} (h : isStream (descOf s d) = false) : streamReturn s d = s := by
  unfold streamReturn
  dsimp only
  rw [h]
  rfl

theorem streamReturn_pool {s : State} {d : DescId} (h : isStream (descOf s d) = true) :
    ∃ bl r, (streamReturn s d).pool =
      { s.pool with freeBlocks := s.pool.freeBlocks ++ doneBlocks s d, blocks := bl,
                    descs := tset s.pool.descs d (chainLeft s d), refused := r } := by
  unfold streamReturn
  dsimp only
  rw [h]
  by_cases hd : doneBlocks s d = []
  · have hc : chainLeft s d = tget s.pool.descs d := by
      unfold chainLeft
      rw [hd, funext leaveOut_nil, List.map_id']
      rfl
    unfold doneBlocks at hd
    refine ⟨s.pool.blocks, s.pool.refused, ?_⟩
    rw [hc, tset_tget]
    unfold doneBlocks
    simp [hd]
  · have hne : (doneBlocks s d).isEmpty = false := by simpa using hd
    unfold doneBlocks at hne
    rw [hne]
    obtain ⟨r, hr⟩ := resourcesFreed_pool (modDesc (withPool s (s.pool.returnBlocks (doneBlocks s d))) d
      (fun y => { y with chain := y.chain.map (leaveOut (doneBlocks s d)) }))
    exact ⟨_, r, hr⟩

theorem streamReturn_engine (s : State) (d : DescId) : (streamReturn s d).engine = s.engine := by
  unfold streamReturn
  dsimp only
  split
  · rw [resourcesFreed_engine]; rfl
  · rfl

/-- The descriptor once the sent index is entered where the job's context is held (R156, R171). -/
def sentEntered (s : State) (d : DescId) (n : Nat) : Descriptor :=
  if s.pool.engine = some d then descOf s d else { descOf s d with ctx := { (descOf s d).ctx with sent := n } }

theorem setSent_pool (s : State) (d : DescId) (n : Nat) :
    (setSent s d n).pool = { s.pool with descs := tset s.pool.descs d (sentEntered s d n) } := by
  unfold setSent sentEntered
  split
  · unfold descOf
    rw [tset_tget]
  · rfl

theorem setSent_segs (s : State) (d : DescId) (n : Nat) : (setSent s d n).engine.segs = s.engine.segs := by
  unfold setSent
  split <;> rfl

theorem descOf_setSent (s : State) (d : DescId) (n : Nat) : descOf (setSent s d n) d = sentEntered s d n := by
  unfold descOf
  rw [setSent_pool]
  simp

theorem setSent_sent (s : State) (d : DescId) (n : Nat) : (jobContext (setSent s d n) d).sent = n := by
  unfold jobContext
  rw [setSent_pool, descOf_setSent]
  unfold setSent sentEntered
  by_cases h : s.pool.engine = some d <;> simp [h]

theorem sentEntered_chain (s : State) (d : DescId) (n : Nat) : (sentEntered s d n).chain = (descOf s d).chain := by
  unfold sentEntered; split <;> rfl

theorem sentEntered_status (s : State) (d : DescId) (n : Nat) : (sentEntered s d n).status = (descOf s d).status := by
  unfold sentEntered; split <;> rfl

theorem sentEntered_stream (s : State) (d : DescId) (n : Nat) : isStream (sentEntered s d n) = isStream (descOf s d) := by
  unfold sentEntered; split <;> rfl

theorem not_stream_of_hold {x : Descriptor} (h : isHold x = true) : isStream x = false := by
  unfold isHold at h
  unfold isStream
  simp only [Bool.and_eq_true, beq_iff_eq] at h
  simp [h.2, policyHold, policyStream]

/-! ## The engine told of a sent ANSWER (R171) -/

theorem countUndelivered_pool (s : State) (g : Node) (m : NodeMap) : (countUndelivered s g m).pool = s.pool := by
  unfold countUndelivered; split <;> rfl

theorem countUndelivered_segs (s : State) (g : Node) (m : NodeMap) : (countUndelivered s g m).engine.segs = s.engine.segs := by
  unfold countUndelivered; split <;> rfl

theorem countUndelivered_value (s : State) (g : Node) (m : NodeMap) : (countUndelivered s g m).engine.undelivered =
    if m.getLsbD g.val then s.engine.undelivered else raise16 s.engine.undelivered := by
  unfold countUndelivered; split <;> rfl

/-- The segment records of a job without one number (R171). -/
def dropSegment (s : State) (d : DescId) (number : Nat) : State :=
  { s with engine := { s.engine with segs := tmod s.engine.segs d (fun l => l.filter (fun x => x.number != number)) } }

theorem answerSent_segment {s : State} {d : DescId} {number first count : Nat} (g : Node) (m : NodeMap)
    (h : SegmentCarries number first count (tget s.engine.segs d)) : answerSent (some d) g number m s =
      streamReturn (setSent (dropSegment (countUndelivered s g m) d number) d (first + count)) d := by
  obtain ⟨y, hy, rfl, rfl⟩ := h
  have hy' : (tget (countUndelivered s g m).engine.segs d).find? (fun x => x.number == number) = some y := by
    rw [countUndelivered_segs]; exact hy
  unfold answerSent
  dsimp only
  rw [hy']
  rfl

theorem dropSegment_noSegment (s : State) (d : DescId) (number : Nat) :
    NoSegment number (tget (dropSegment s d number).engine.segs d) := by
  unfold dropSegment NoSegment
  simp

/-- The state in which a sent ANSWER's job has its new sent index. -/
def answerEntered (s : State) (d : DescId) (g : Node) (number : Nat) (m : NodeMap) (n : Nat) : State :=
  setSent (dropSegment (countUndelivered s g m) d number) d n

theorem answerEntered_pool (s : State) (d : DescId) (g : Node) (number : Nat) (m : NodeMap) (n : Nat) :
    (answerEntered s d g number m n).pool = { s.pool with descs := tset s.pool.descs d (sentEntered s d n) } := by
  have hp : (dropSegment (countUndelivered s g m) d number).pool = s.pool := countUndelivered_pool s g m
  unfold answerEntered
  rw [setSent_pool]
  unfold sentEntered descOf
  rw [hp]

theorem descOf_answerEntered (s : State) (d : DescId) (g : Node) (number : Nat) (m : NodeMap) (n : Nat) :
    descOf (answerEntered s d g number m n) d = sentEntered s d n := by
  unfold descOf
  rw [answerEntered_pool]
  simp

/-- The blocks of a STREAM job that return at a sent index (R151). -/
def returnedBlocks (s : State) (d : DescId) (sent : Nat) : List BlockId :=
  if isStream (descOf s d) then (chainBlocks (descOf s d)).filter (blockDone s.pool sent (descOf s d).status) else []

/-- The job's descriptor when its ANSWER has been sent (R151, R171). -/
def answeredDesc (s : State) (d : DescId) (n : Nat) : Descriptor :=
  { sentEntered s d n with chain := (descOf s d).chain.map (leaveOut (returnedBlocks s d n)) }

theorem doneBlocks_answerEntered {s : State} {d : DescId} (g : Node) (number : Nat) (m : NodeMap) (n : Nat)
    (h : isStream (descOf s d) = true) : doneBlocks (answerEntered s d g number m n) d = returnedBlocks s d n := by
  have hx := descOf_answerEntered s d g number m n
  have hn : (jobContext (answerEntered s d g number m n) d).sent = n := setSent_sent _ d n
  unfold doneBlocks returnedBlocks
  rw [hx, hn, h, if_pos rfl, sentEntered_status]
  unfold chainBlocks
  rw [sentEntered_chain, answerEntered_pool]
  rfl

/-- The job after its ANSWER: the segment gone, the blocks free that no longer wait, the rest of it as it was. -/
theorem answerSent_jobStands {s : State} {d : DescId} {number first count : Nat} (g : Node) (m : NodeMap)
    (h : SegmentCarries number first count (tget s.engine.segs d)) (hf : d ∉ s.pool.free) (hc : d ∉ s.pool.claiming) :
    ofPool (JobStands d (answeredDesc s d (first + count)) (s.pool.engine = some d) (NoSegment number)
      (returnedBlocks s d (first + count))) (answerSent (some d) g number m s) := by
  rw [answerSent_segment g m h]
  change ofPool _ (streamReturn (answerEntered s d g number m (first + count)) d)
  have hg : NoSegment number (tget (answerEntered s d g number m (first + count)).engine.segs d) := by
    unfold answerEntered
    rw [setSent_segs]
    exact dropSegment_noSegment _ d number
  have hx := descOf_answerEntered s d g number m (first + count)
  unfold ofPool
  rw [streamReturn_engine]
  cases hst : isStream (descOf s d)
  · have hb : returnedBlocks s d (first + count) = [] := by unfold returnedBlocks; rw [hst]; rfl
    have hd : answeredDesc s d (first + count) = sentEntered s d (first + count) := by
      unfold answeredDesc
      rw [hb, funext leaveOut_nil, List.map_id', ← sentEntered_chain s d (first + count)]
    rw [streamReturn_other (by rw [hx, sentEntered_stream, hst]), hb, hd]
    refine ⟨?_, ?_, hx, ?_, hg, by simp⟩ <;> rw [answerEntered_pool]
    · exact hf
    · exact hc
  · obtain ⟨bl, r, hp⟩ := streamReturn_pool (s := answerEntered s d g number m (first + count)) (d := d)
      (by rw [hx, sentEntered_stream, hst])
    rw [hp, doneBlocks_answerEntered g number m _ hst, answerEntered_pool]
    refine ⟨hf, hc, ?_, Iff.rfl, hg, fun b hb => List.mem_append_right _ hb⟩
    dsimp only
    rw [tget_tset_self]
    unfold chainLeft answeredDesc
    rw [doneBlocks_answerEntered g number m _ hst, hx, sentEntered_chain]

end Sys2Proof.Machine


namespace Sys2Proof.Machine

/-! ## The room goes to the pending frames (R15) -/

/-- The next pending frame admitted is of the lowest class that fits and has one pending, the first of that class. -/
theorem nextAdmission_eq_some {l : Link} {i : Nat} (h : nextAdmission l = some i) :
    ∃ cls, classFits l.queue cls = true ∧ l.admissions.findIdx? (fun f => txClass f == cls) = some i
      ∧ ∀ c, 1 ≤ c → c < cls → classFits l.queue c = true → l.admissions.findIdx? (fun f => txClass f == c) = none := by
  unfold nextAdmission at h
  obtain ⟨l₁, cls, l₂, hl, hc, hn⟩ := List.findSome?_eq_some_iff.mp h
  split at hc
  · refine ⟨cls, ‹_›, hc, fun c h1 hlt hf => ?_⟩
    have hmem : c ∈ l₁ := by
      match l₁, hl with
      | [], hl => simp at hl; omega
      | [a], hl => simp at hl; simp; omega
      | [a, b], hl => simp at hl; simp; omega
      | a :: b :: x :: r, hl => simp at hl
    simpa [hf] using hn c hmem
  · cases hc

theorem nextAdmission_first {l : Link} {i : Nat} {f : TxFrame} (h : nextAdmission l = some i)
    (hf : l.admissions[i]? = some f) : classFits l.queue (txClass f) = true
    ∧ ∀ (j : Nat) (g : TxFrame), l.admissions[j]? = some g → classFits l.queue (txClass g) = true →
        txClass f < txClass g ∨ (txClass f = txClass g ∧ i ≤ j) := by
  obtain ⟨cls, hfits, hidx, hlow⟩ := nextAdmission_eq_some h
  obtain ⟨hi, hp, hbefore⟩ := List.findIdx?_eq_some_iff_getElem.mp hidx
  have hcls : txClass f = cls := by
    rw [List.getElem?_eq_getElem hi, Option.some.injEq] at hf
    rw [hf] at hp
    simpa using hp
  rw [hcls]
  refine ⟨hfits, fun j g hj hg => ?_⟩
  rcases Nat.lt_trichotomy cls (txClass g) with hlt | heq | hgt
  · exact .inl hlt
  · refine .inr ⟨heq, Nat.le_of_not_lt fun hji => ?_⟩
    obtain ⟨hj', rfl⟩ := List.getElem?_eq_some_iff.mp hj
    exact hbefore j hji (by simp [heq])
  · have h1 : 1 ≤ txClass g := by rcases txClass_cases g with e | e | e <;> omega
    have hnone := hlow _ h1 hgt hg
    rw [List.findIdx?_eq_none_iff] at hnone
    have := hnone g (List.mem_of_getElem? hj)
    simp at this

/-- Where none is next, nothing pending fits. -/
theorem nextAdmission_eq_none {l : Link} (h : nextAdmission l = none) :
    ∀ g ∈ l.admissions, classFits l.queue (txClass g) = false := by
  intro g hg
  unfold nextAdmission at h
  rw [List.findSome?_eq_none_iff] at h
  have hm : txClass g ∈ [1, 2, 3] := by rcases txClass_cases g with e | e | e <;> simp [e]
  have hc := h _ hm
  by_contra hfit
  rw [if_pos (by simpa using hfit), List.findIdx?_eq_none_iff] at hc
  simpa using hc g hg

theorem fillLoop_full (k : Nat) {s : State} (hk : s.link.admissions.length ≤ k) :
    ∀ g ∈ (fillLoop k s).link.admissions, classFits (fillLoop k s).link.queue (txClass g) = false := by
  induction k generalizing s with
  | zero =>
    have he : s.link.admissions = [] := List.eq_nil_of_length_eq_zero (Nat.le_zero.mp hk)
    unfold fillLoop
    rw [he]
    simp
  | succ k ih =>
    unfold fillLoop
    split
    · exact nextAdmission_eq_none ‹_›
    · rename_i i hi
      obtain ⟨f, hf, -⟩ := nextAdmission_some hi
      rw [hf]
      refine ih ?_
      rw [placeFrame_admissions]
      obtain ⟨hlt, -⟩ := List.getElem?_eq_some_iff.mp hf
      show (s.link.admissions.eraseIdx i).length ≤ k
      rw [List.length_eraseIdx_of_lt hlt]
      omega

/-! ## The producers told (R8) -/

/-- A property that one request establishes stands after a run of requests that holds it. -/
theorem hasFrame_requests {α : Type} {p : TxFrame → Bool} (hp : NoAnswer p) (g : α → TxFrame) {x : α} (hx : p (g x) = true)
    (l : List α) (s : State) (h : x ∈ l ∨ hasFrame s p = true) :
    hasFrame (l.foldl (fun s y => request (g y) s) s) p = true := by
  induction l generalizing s with
  | nil => exact h.resolve_left List.not_mem_nil
  | cons y l ih =>
    refine ih _ ?_
    rcases h with h | h
    · rcases List.mem_cons.mp h with rfl | h
      · exact .inr (hasFrame_requested hp s hx)
      · exact .inl h
    · exact .inr (hasFrame_request _ h)

theorem image_lasting (puller : Node) (area item : Byte) : Lasting (fun g => g == .image puller area item) :=
  ⟨fun _ _ _ _ => rfl, fun _ => rfl, fun _ _ => rfl⟩

/-- Every item of the pull queue's head is asked for (R113). -/
theorem serveHead_asks {s : State} {y : PullEntry} {ys : List PullEntry} (h : s.catchUp.serve = y :: ys) {i : Byte}
    (hi : i ∈ y.items) : hasFrame (serveHead s) (fun g => g == .image y.puller y.area i) = true := by
  unfold serveHead
  rw [h]
  exact hasFrame_requests (image_lasting ..).1 (fun i => .image y.puller y.area i) (x := i) (by simp) y.items s (.inl hi)

/-- The state with another pull queue. -/
def withServe (s : State) (l : List PullEntry) : State := setCatchUp s { s.catchUp with serve := l }

theorem imageSent_more {s : State} {x : PullEntry} {rest : List PullEntry} {item : Byte} (h : s.catchUp.serve = x :: rest)
    (hi : item ∈ x.items) (he : x.items.erase item ≠ []) :
    imageSent x.puller x.area item s = withServe s ({ x with items := x.items.erase item } :: rest) := by
  unfold imageSent
  rw [h]
  dsimp only
  rw [if_pos ⟨rfl, rfl, by simpa using hi⟩, if_neg (by simpa using he)]
  rfl

theorem imageSent_last {s : State} {x : PullEntry} {rest : List PullEntry} {item : Byte} (h : s.catchUp.serve = x :: rest)
    (hi : item ∈ x.items) (he : x.items.erase item = []) : imageSent x.puller x.area item s = serveHead (withServe s rest) := by
  unfold imageSent
  rw [h]
  dsimp only
  rw [if_pos ⟨rfl, rfl, by simpa using hi⟩, if_pos (by simpa using he)]
  rfl

theorem answerSent_undelivered (job : Option DescId) (g : Node) (n : Nat) (m : NodeMap) (s : State) :
    (answerSent job g n m s).engine.undelivered =
      if m.getLsbD g.val then s.engine.undelivered else raise16 s.engine.undelivered := by
  rw [← countUndelivered_value]
  unfold answerSent
  dsimp only
  split
  · rfl
  · split
    · rfl
    · rw [streamReturn_engine]
      exact setSent_sameBut _ _ _ .undelivered (by decide)

theorem finalSent_eq {s : State} {d : DescId} (g : Node) (m : NodeMap) (h : (descOf s d).teardownMark = false) :
    finalSent (some d) g m s = flushClearing (freeDescriptor (countUndelivered s g m) d) := by
  have h' : (descOf (countUndelivered s g m) d).teardownMark = false := by
    unfold descOf
    rw [countUndelivered_pool]
    exact h
  unfold finalSent
  dsimp only
  rw [h']
  rfl

theorem PoolKeeps.flushClearing {I : Pool → Vector (List Segment) 48 → Prop} (hI : PoolKeeps I)
    (hc : ∀ {p g} (c : List ClearingRecord), I p g → I { p with clearing := c } g) {s : State} (h : ofPool I s) :
    ofPool I (flushClearing s) :=
  hI.requests (fun r => .cleared (clearedOf r)) _ (hc _ h)

/-- A sent FINAL returns its descriptor and its blocks (R150). -/
theorem finalSent_descReturned {s : State} {d : DescId} (g : Node) (m : NodeMap) (h : (descOf s d).teardownMark = false) :
    ofPool (DescReturned d (chainBlocks (descOf s d))) (finalSent (some d) g m s) := by
  rw [finalSent_eq g m h]
  refine (descReturned_keeps d _).flushClearing (fun _ h => ⟨h.draining, h.held, h.zero, h.blocks, h.segs⟩) ?_
  obtain ⟨r, hr⟩ := freeDescriptor_pool (countUndelivered s g m) d
  unfold ofPool
  rw [hr, freeDescriptor_segs, countUndelivered_pool]
  exact (descReturned_keeps d _).mark r (DescReturned.freed d _ _)

theorem finalSent_undelivered {s : State} {d : DescId} (g : Node) (m : NodeMap) (h : (descOf s d).teardownMark = false) :
    (finalSent (some d) g m s).engine.undelivered =
      if m.getLsbD g.val then s.engine.undelivered else raise16 s.engine.undelivered := by
  have e := (freeDescriptor_sameBut (countUndelivered s g m) d).comp (flushClearing_sameBut _) (e := claiming)
    (by decide) (by decide)
  rw [finalSent_eq g m h, ← countUndelivered_value]
  exact e .undelivered (by decide)

/-- The job's context holds the new sent index when its ANSWER has been sent and the step has ended (R171). -/
theorem answerSent_sent {s t : State} {d : DescId} {number first count : Nat} (g : Node) (m : NodeMap)
    (h : SegmentCarries number first count (tget s.engine.segs d))
    (ht : descOf t d = answeredDesc s d (first + count)) (he : t.pool.engine = some d ↔ s.pool.engine = some d)
    (hc : t.engine.ctx = (answerSent (some d) g number m s).engine.ctx) :
    (jobContext t d).sent = first + count := by
  unfold jobContext
  by_cases hcur : s.pool.engine = some d
  · have hp : (dropSegment (countUndelivered s g m) d number).pool.engine = some d := by
      show (countUndelivered s g m).pool.engine = _
      rw [countUndelivered_pool]; exact hcur
    rw [if_pos (he.mpr hcur), hc, answerSent_segment g m h, streamReturn_engine]
    unfold setSent
    rw [if_pos hp]
  · rw [if_neg (fun x => hcur (he.mp x)), ht]
    unfold answeredDesc sentEntered
    rw [if_neg hcur]

/-- A block of a STREAM job stays in the chain exactly where a cell of it waits, and else is free (R151). -/
theorem answeredDesc_stream {s : State} {d : DescId} {n : Nat} (h : isStream (descOf s d) = true) {blk : BlockId}
    (hb : blk ∈ chainBlocks (descOf s d)) :
    (some blk ∈ (answeredDesc s d n).chain ↔
      ∃ cell ∈ (tget s.pool.blocks blk).toList, CellStillWaits n (descOf s d).status cell)
    ∧ (some blk ∉ (answeredDesc s d n).chain → blk ∈ returnedBlocks s d n) := by
  have hc : some blk ∈ (answeredDesc s d n).chain ↔ blk ∉ returnedBlocks s d n :=
    (some_mem_leaveOut _ _ _).trans (and_iff_right ((mem_chainBlocks _ _).mp hb))
  have hr : blk ∉ returnedBlocks s d n ↔ blockDone s.pool n (descOf s d).status blk = false := by
    unfold returnedBlocks
    rw [if_pos h, List.mem_filter]
    simp [hb]
  exact ⟨hc.trans (hr.trans (blockDone_eq_false_iff _ _ _ _)), fun hn => by simpa [hc] using hn⟩

theorem answeredDesc_hold {s : State} {d : DescId} (n : Nat) (h : isHold (descOf s d) = true) :
    (answeredDesc s d n).chain = (descOf s d).chain := by
  unfold answeredDesc returnedBlocks
  rw [not_stream_of_hold h, if_neg (by decide), funext leaveOut_nil, List.map_id']

theorem answeredDesc_of_pool {s v : State} (h : v.pool = s.pool) (d : DescId) (n : Nat) :
    answeredDesc v d n = answeredDesc s d n := by
  unfold answeredDesc sentEntered returnedBlocks descOf
  rw [h]

theorem returnedBlocks_of_pool {s v : State} (h : v.pool = s.pool) (d : DescId) (n : Nat) :
    returnedBlocks v d n = returnedBlocks s d n := by
  unfold returnedBlocks descOf
  rw [h]

/-- A descriptor stands in one queue alone: a held one neither free nor CLAIMING (R143). -/
theorem not_free_of_held {s : State} {d : DescId} (h : OneQueueEach s)
    (hd : s.pool.engine = some d ∨ d ∈ s.pool.bulk ∨ d ∈ s.pool.draining) : d ∉ s.pool.free ∧ d ∉ s.pool.claiming := by
  have hc := h d
  unfold poolQueues at hc
  simp only [List.count_append] at hc
  have h1 : 1 ≤ s.pool.bulk.count d + s.pool.engine.toList.count d + s.pool.draining.count d := by
    rcases hd with hd | hd | hd
    · rw [hd]; simp; omega
    · have := List.count_pos_iff.mpr hd; omega
    · have := List.count_pos_iff.mpr hd; omega
  exact ⟨List.count_eq_zero.mp (by omega), List.count_eq_zero.mp (by omega)⟩

end Sys2Proof.Machine


namespace Sys2Proof.Machine

/-! ## FRAME_SENT (R8, R9, R15, R16, R17) -/

section

variable {receipt : NodeMap} {pins : Pins} {s : State} {age : Nat} {dst : Dest} {f : Frame} {e : TxEntry}

/-- A sent entry: a property of the settled state in which its producer has been told. -/
theorem yields_sent {P : State → Prop} (hb : s.link.bus = .sending (.entry age) dst f) (he : entryOf s.link age = some e)
    {told : State → State} (hc : ∀ v, completed e.frame receipt v = told v)
    (h : ∀ v, v = selfDelivered dst f (ownNode s) (entryFreed age (takePins pins s)) → P (settle (told v))) :
    Yields (.frameSent receipt pins) s P :=
  yields_settle (c := .frameSent receipt pins) rfl
    ((frameCompleted_entry (s := takePins pins s) receipt hb he).trans (hc _)) (h _ rfl)

/-- What a sent entry changes: its own delivery, what its producer does, and the end of the step. -/
theorem sent_total {c k : List Part} {v u : State} (hv : SameBut c (takePins pins s) v) (hu : SameBut k v u)
    {l : List Part} (hi : Part.inputs ∈ l) (hc : ∀ p ∈ c, p ∈ l) (hk : ∀ p ∈ k, p ∈ l) (hr : ∀ p ∈ reacting, p ∈ l) :
    SameBut l s (settle u) := by
  exact (((takePins_sameBut pins s).comp hv (by simpa using hi) hc).comp hu (fun _ h => h) hk).comp (settle_sameBut u)
    (fun _ h => h) hr

/-- A sent PULL makes its burst awaited, unless it is a stale one's (R111). -/
theorem frameSent_pull {k : StationId} {area start : Byte} {stale : Bool} {hold : Hold} (hs : s.memb.state = .catchup)
    (hph : s.catchUp.phase = .pulling) (hb : s.link.bus = .sending (.entry age) dst (.pull area start))
    (he : entryOf s.link age = some ⟨age, .pull k area start stale, hold⟩) :
    Yields (.frameSent receipt pins) s fun t =>
      (stale = false → t.catchUp = { s.catchUp with
          awaited := burstItems (pullOf s.catchUp.pullIndex).1 (pullOf s.catchUp.pullIndex).2, pullTimer := true })
      ∧ (stale = true → t.catchUp = s.catchUp)
      ∧ SameBut (.inputs :: .bus :: .misplaced :: .pulling :: stationFrame) s t := by
  refine yields_sent hb he (told := pullSent stale) (fun _ => rfl) fun v hv => ?_
  have hsame : SameBut sending (takePins pins s) v := hv ▸ sentPull_sameBut age dst area start _ hs
  have hcu : v.catchUp = s.catchUp := hsame.catchUp (by decide)
  have ht : (settle (pullSent stale v)).catchUp = (pullSent stale v).catchUp := (settle_sameBut _).catchUp (by decide)
  rw [ht]
  refine ⟨?_, ?_, sent_total hsame (pullSent_sameBut stale v) (by decide) (by decide) (by decide) (by decide)⟩
  · rintro rfl
    unfold pullSent
    rw [hcu, hph]
    rfl
  · rintro rfl
    exact hcu

/-- A sent IMAGE leaves the pull queue's head; with the last of it the next entry is served (R113). -/
theorem frameSent_image {area item : Byte} {seq : Word} {contents : List Byte} {hold : Hold} {x : PullEntry}
    {rest : List PullEntry} (hs : s.memb.state = .live)
    (hb : s.link.bus = .sending (.entry age) dst (.image area item seq contents))
    (he : entryOf s.link age = some ⟨age, .image x.puller x.area item, hold⟩) (hq : s.catchUp.serve = x :: rest)
    (hi : item ∈ x.items) :
    Yields (.frameSent receipt pins) s fun t =>
      (x.items.erase item ≠ [] → t.catchUp.serve = { x with items := x.items.erase item } :: rest)
      ∧ (x.items.erase item = [] → t.catchUp.serve = rest
          ∧ ∀ y ys, rest = y :: ys → ∀ i ∈ y.items, hasFrame t (fun g => g == .image y.puller y.area i) = true)
      ∧ SameBut (.inputs :: .bus :: .misplaced :: .serve :: stationFrame) s t := by
  refine yields_sent hb he (told := imageSent x.puller x.area item) (fun _ => rfl) fun v hv => ?_
  have hsame : SameBut sending (takePins pins s) v := hv ▸ sentImage_sameBut age dst area item seq contents _ hs
  have hcu : v.catchUp.serve = x :: rest := (hsame .serve (by decide)).trans hq
  have ht : (settle (imageSent x.puller x.area item v)).catchUp.serve = (imageSent x.puller x.area item v).catchUp.serve :=
    settle_sameBut _ .serve (by decide)
  rw [ht]
  refine ⟨fun hne => ?_, fun hnil => ⟨?_, ?_⟩,
    sent_total hsame (imageSent_sameBut _ _ _ v) (by decide) (by decide) (by decide) (by decide)⟩
  · rw [imageSent_more hcu hi hne]
    rfl
  · rw [imageSent_last hcu hi hnil]
    exact (serveHead_sameBut _) .serve (by decide)
  · rintro y ys rfl i hy
    refine hasFrame_settle (image_lasting _ _ _) ?_
    rw [imageSent_last hcu hi hnil]
    exact serveHead_asks (s := withServe v (y :: ys)) rfl hy

/-- A sent FINAL returns the descriptor and the blocks (R150). -/
theorem frameSent_final {d : DescId} {b b' : FinalBody} {hold : Hold} (hb : s.link.bus = .sending (.entry age) dst (.final b))
    (he : entryOf s.link age = some ⟨age, .final (some d) b', hold⟩) (hm : (descOf s d).teardownMark = false) :
    Yields (.frameSent receipt pins) s fun t =>
      d ∉ t.pool.draining ∧ (d ∈ t.pool.free ∨ d ∈ t.pool.claiming) ∧ (d ∈ t.pool.free → descOf t d = Descriptor.zero)
      ∧ (∀ blk ∈ chainBlocks (descOf s d), blk ∈ t.pool.freeBlocks) ∧ tget t.engine.segs d = []
      ∧ t.engine.undelivered = (if receipt.getLsbD (nodeOf b'.pos.gateway).val then s.engine.undelivered
          else raise16 s.engine.undelivered)
      ∧ SameBut (.inputs :: .bus :: .misplaced :: .nonMember :: .undelivered :: .entries :: .usage :: stationFrame) s t := by
  refine yields_sent hb he (told := finalSent (some d) (nodeOf b'.pos.gateway) receipt) (fun _ => rfl) fun v hv => ?_
  have hsame : SameBut (sending ++ [.nonMember, .usage, .entries, .notice]) (takePins pins s) v :=
    hv ▸ sentFinal_sameBut age dst b _ _
  have hpool : v.pool = s.pool := hsame .pool (by decide)
  have hund : v.engine.undelivered = s.engine.undelivered := hsame .undelivered (by decide)
  have hdesc : descOf v d = descOf s d := by unfold descOf; rw [hpool]
  have hm' : (descOf v d).teardownMark = false := by rw [hdesc]; exact hm
  have hret := (descReturned_keeps d _).settle (finalSent_descReturned (nodeOf b'.pos.gateway) receipt hm')
  rw [hdesc] at hret
  refine ⟨hret.draining, hret.held, hret.zero, hret.blocks, hret.segs, ?_,
    sent_total hsame (finalSent_sameBut _ _ _ v) (by decide) (by decide) (by decide) (by decide)⟩
  rw [← hund]
  exact ((settle_sameBut _) .undelivered (by decide)).trans (finalSent_undelivered _ _ hm')

/-- A sent ANSWER: the sent index moves past its segment, and the STREAM blocks that no longer wait return (R151, R171). -/
theorem frameSent_answer {number : Nat} {d : DescId} {g : Node} {body body' : List Byte} {hold : Hold} {x : Segment}
    (hb : s.link.bus = .sending (.entry age) dst (.answer body))
    (he : entryOf s.link age = some ⟨age, .answer (some d) g number body', hold⟩)
    (hd : s.pool.engine = some d ∨ d ∈ s.pool.bulk ∨ d ∈ s.pool.draining) (ho : OneQueueEach s)
    (hx : (tget s.engine.segs d).find? (fun y => y.number == number) = some x) :
    Yields (.frameSent receipt pins) s fun t =>
      (jobContext t d).sent = x.first + x.count ∧ (∀ y ∈ tget t.engine.segs d, y.number ≠ number)
      ∧ (isStream (descOf s d) = true → ∀ blk ∈ chainBlocks (descOf s d),
          (some blk ∈ (descOf t d).chain ↔
            ∃ cell ∈ (tget s.pool.blocks blk).toList, CellStillWaits (x.first + x.count) (descOf s d).status cell)
          ∧ (some blk ∉ (descOf t d).chain → blk ∈ t.pool.freeBlocks))
      ∧ (isHold (descOf s d) = true → (descOf t d).chain = (descOf s d).chain)
      ∧ SameBut (.inputs :: .bus :: .misplaced :: .undelivered :: .ctx :: stationFrame) s t := by
  refine yields_sent hb he (told := answerSent (some d) g number receipt) (fun _ => rfl) fun v hv => ?_
  have hsame : SameBut sending (takePins pins s) v := hv ▸ sentAnswer_sameBut age dst body _ _
  have hpool : v.pool = s.pool := hsame .pool (by decide)
  obtain ⟨hfree, hclaim⟩ := not_free_of_held ho hd
  have hseg : SegmentCarries number x.first x.count (tget v.engine.segs d) := by
    have hstart : ofPool (JobStands d (descOf s d) (s.pool.engine = some d) (SegmentCarries number x.first x.count) [])
        (entryFreed age (takePins pins s)) :=
      (jobStands_keeps d _ _ (fun n ph _ h => h.rephased n ph) []).fillQueue
        ⟨hfree, hclaim, rfl, Iff.rfl, ⟨x, hx, rfl, rfl⟩, by simp⟩
    have hkept := filterFrame_station_sameBut (h := ⟨ownNode s, dst⟩) (f := .answer body) (g := passedOver)
      (s := entryFreed age (takePins pins s)) (c := []) rfl (SameBut.refl _ _) (by intro h; cases h)
    exact hv ▸ (ofPool_of_sameBut hkept (by decide) (by decide) hstart).segs
  have hjob := (jobStands_keeps d _ _ (fun n ph _ h => NoSegment.rephased n ph h) _).settle
    (answerSent_jobStands g receipt hseg (by rw [hpool]; exact hfree) (by rw [hpool]; exact hclaim))
  have hdesc := hjob.desc
  have hctx := (settle_sameBut (answerSent (some d) g number receipt v)) .ctx (by decide)
  have hsent := answerSent_sent g receipt hseg hdesc hjob.engine hctx
  rw [answeredDesc_of_pool hpool] at hdesc
  have hfreed := hjob.blocks
  rw [returnedBlocks_of_pool hpool] at hfreed
  have hdesc' : descOf (settle (answerSent (some d) g number receipt v)) d = answeredDesc s d (x.first + x.count) := hdesc
  refine ⟨hsent, hjob.segs, fun hst blk hblk => ?_, fun hh => ?_,
    sent_total hsame (answerSent_sameBut _ _ _ _ v) (by decide) (by decide) (by decide) (by decide)⟩
  · obtain ⟨hwaits, hret⟩ := answeredDesc_stream (n := x.first + x.count) hst hblk
    exact ⟨by rw [← hwaits]; exact iff_of_eq (congrArg (fun y => some blk ∈ Descriptor.chain y) hdesc'),
      fun hn => hfreed _ (hret (by rw [← hdesc']; exact hn))⟩
  · exact (congrArg Descriptor.chain hdesc').trans (answeredDesc_hold _ hh)

/-- Any sent ANSWER: the entry is gone, and the ANSWER is counted where its gateway's slot is not marked (R8, R171). -/
theorem frameSent_answer_counted {number : Nat} {job : Option DescId} {g : Node} {body : List Byte} {hold : Hold}
    (hon : onLink s = true) (hst : s.straps.valid = true) (hlen : answerLengthOk body.length = true)
    (hb : s.link.bus = .sending (.entry age) ⟨false, g⟩ (.answer body))
    (he : entryOf s.link age = some ⟨age, .answer job g number body, hold⟩) :
    Yields (.frameSent receipt pins) s fun t =>
      t.link.bus = .idle ∧ (QueueOrdered s → entryOf t.link age = none)
      ∧ t.engine.undelivered = (if receipt.getLsbD g.val then s.engine.undelivered else raise16 s.engine.undelivered)
      ∧ SameBut (.inputs :: .bus :: .undelivered :: .ctx :: stationFrame) s t := by
  refine yields_sent hb he (told := answerSent job g number receipt) (fun _ => rfl) fun v hv => ?_
  have hfreed := entryFreed_sameBut age (takePins pins s)
  have hsame : SameBut [.bus, .txQueue, .segments, .queries, .slotDriven, .wirePlace] (takePins pins s) v := by
    have hstraps : (entryFreed age (takePins pins s)).straps = s.straps := hfreed .straps (by decide)
    have hown := selfDelivered_inert (d := ⟨false, g⟩) (f := .answer body) (s := entryFreed age (takePins pins s))
      (onLink_of_memb (hfreed.memb (by decide)) hon) (by rw [hstraps]; exact hst) rfl rfl hlen rfl rfl
    rw [ownNode_of_straps hstraps] at hown
    rw [hv, hown]
    exact hfreed.comp (receivedIntact_sameBut _) (by decide) (by decide)
  have hund : v.engine.undelivered = s.engine.undelivered := hsame .undelivered (by decide)
  have hm : Moves (entryFreed age (takePins pins s)) (settle (answerSent job g number receipt v)) := by
    subst hv
    exact ((selfDelivered_moves _ _ _ _).trans (completed_moves (.answer job g number body) _ _)).trans (settle_moves _)
  refine ⟨entryFreed_idle age hm, fun ho => (freed_gone (s := takePins pins s) ho he hm).2, ?_,
    sent_total hsame (answerSent_sameBut _ _ _ _ v) (by decide) (by decide) (by decide) (by decide)⟩
  rw [← hund]
  exact ((settle_sameBut _) .undelivered (by decide)).trans (answerSent_undelivered _ _ _ _ _)

/-! ## A sent register (R16, R17) -/

/-- A sent register: a property of the settled state in which its frame has been delivered to its sender. -/
theorem yields_register {P : State → Prop} {c : Candidate} (hb : s.link.bus = .sending c dst f)
    (hc : c = .alarm ∨ c = .presence)
    (h : ∀ v, v = selfDelivered dst f (ownNode s) (registerFreed c (takePins pins s)) → P (settle v)) :
    Yields (.frameSent receipt pins) s P :=
  yields_settle (c := .frameSent receipt pins) rfl (frameCompleted_register (s := takePins pins s) receipt hb hc) (h _ rfl)

/-- A sent PRESENCE leaves the register as its reload mark says (R16). -/
theorem frameSent_presence {b : PresenceBody} (hb : s.link.bus = .sending .presence dst (.presence b)) :
    Yields (.frameSent receipt pins) s fun t =>
      t.link.bus = .idle ∧ t.link.presence = ⟨s.link.presence.reload, false⟩ ∧ t.link.alarm = s.link.alarm
      ∧ t.dir.slots = s.dir.slots ∧ t.dir.seq = s.dir.seq ∧ t.dir.key = s.dir.key
      ∧ t.engine.undelivered = s.engine.undelivered ∧ t.tamper = s.tamper ∧ t.pending = s.pending := by
  refine yields_register hb (.inr rfl) fun v hv => ?_
  have hmeet := filterFrame_station_sameBut (h := ⟨ownNode s, dst⟩) (f := .presence b) (g := onPresence ⟨ownNode s, dst⟩ b)
    (s := registerFreed .presence (takePins pins s)) (c := meeting) rfl (onPresence_sameBut _ _ _) (by intro h; cases h)
  have hv' : SameBut (.slotDriven :: .wirePlace :: .misplaced :: meeting) (registerFreed .presence (takePins pins s)) v := hv ▸ hmeet
  have hrest : SameBut ((.slotDriven :: .wirePlace :: .misplaced :: meeting) ++ reacting)
      (registerFreed .presence (takePins pins s)) (settle v) := hv'.comp (settle_sameBut v) (by decide) (by decide)
  have hreg := registerFreed_presence_sameBut (takePins pins s)
  have htotal := ((takePins_sameBut pins s).comp hreg (e := [.inputs, .bus, .presence, .txQueue, .segments, .queries])
    (by decide) (by decide)).comp hrest (e := (.inputs :: .bus :: .presence :: .slotDriven :: .wirePlace :: .misplaced :: meeting)
      ++ reacting) (by decide) (by decide)
  refine ⟨?_, (hrest .presence (by decide)).trans (registerFreed_presence _), htotal .alarm (by decide), htotal .slots (by decide),
    htotal .seq (by decide), htotal .cabinetKey (by decide), htotal .undelivered (by decide), htotal.tamper (by decide),
    htotal .pending (by decide)⟩
  exact registerFreed_idle (.inr rfl) (hv ▸ (selfDelivered_moves _ _ _ _).trans (settle_moves _))

/-- A sent ZERO empties its register; its sender is not zeroised by it (R17, R181). -/
theorem frameSent_alarm {c : ZeroCause} (hon : onLink s = true) (hst : s.straps.valid = true)
    (hb : s.link.bus = .sending .alarm ⟨true, 0⟩ (.zero c.code)) :
    Yields (.frameSent receipt pins) s fun t =>
      t.link.bus = .idle ∧ t.link.alarm = none ∧ SameBut (.inputs :: .bus :: .alarm :: stationFrame) s t := by
  refine yields_register hb (.inl rfl) fun v hv => ?_
  have hreg := registerFreed_alarm_sameBut (takePins pins s)
  have hmemb : (registerFreed .alarm (takePins pins s)).memb = s.memb := hreg.memb (by decide)
  have hstraps : (registerFreed .alarm (takePins pins s)).straps = s.straps := hreg .straps (by decide)
  have hown := selfDelivered_inert (d := ⟨true, 0⟩) (f := .zero c.code) (s := registerFreed .alarm (takePins pins s))
    (onLink_of_memb hmemb hon) (by rw [hstraps]; exact hst) rfl rfl rfl rfl
    (onZero_own (s := receivedIntact (registerFreed .alarm (takePins pins s))) ⟨true, 0⟩ c.code (by rw [← hstraps] at hst; exact hst))
  rw [ownNode_of_straps hstraps] at hown
  have hv' : v = receivedIntact (registerFreed .alarm (takePins pins s)) := hv.trans hown
  have hrest : SameBut stationFrame (registerFreed .alarm (takePins pins s)) (settle v) :=
    hv' ▸ (receivedIntact_sameBut _).comp (settle_sameBut _) (by decide) (by decide)
  refine ⟨registerFreed_idle (.inl rfl) (hv ▸ (selfDelivered_moves _ _ _ _).trans (settle_moves _)),
    (hrest .alarm (by decide)).trans (registerFreed_alarm _), ?_⟩
  exact ((takePins_sameBut pins s).comp hreg (e := [.inputs, .bus, .alarm, .txQueue, .segments, .queries])
    (by decide) (by decide)).comp hrest (by decide) (by decide)

end

end Sys2Proof.Machine


namespace Sys2Proof.Machine

/-- Settles O11: the sent frame by where it stood and by its kind, the pending frames by the order in which they are admitted. -/
theorem frameSentReleases : Obligations.FrameSentReleases := by
  refine ⟨?_, ?_, ?_, ?_, ?_, ?_, ?_, ?_, ?_, ?_, ?_, ?_, ?_⟩
  · intro receipt pins s age d f e ho hb he
    exact ⟨_, rfl, frameCompleted_gone (s := takePins pins s) receipt ho hb he⟩
  · intro receipt pins s age d f e hb he
    exact congrArg (fun u => Host.Outcome.next (settle u)) (frameCompleted_entry (s := takePins pins s) receipt hb he)
  · intro receipt pins s c d f hb hc
    exact congrArg (fun u => Host.Outcome.next (settle u)) (frameCompleted_register (s := takePins pins s) receipt hb hc)
  · intro receipt pins s age d k area start stale hold hs hph hb he
    exact frameSent_pull hs hph hb he
  · intro receipt pins s age d puller area item seq contents hold x rest hs hb he hq hp ha hi
    subst hp ha
    exact frameSent_image hs hb he hq hi
  · intro receipt pins s age dst d b b' hold hb he _ hm _
    exact frameSent_final hb he hm
  · intro receipt pins s age number dst d g body body' hold x hb he hd ho hx
    exact frameSent_answer hb he hd ho hx
  · intro l i f h hf
    exact nextAdmission_first h hf
  · intro s
    exact fillLoop_full _ (le_refl _)
  · intro receipt pins s d b hb
    exact frameSent_presence hb
  · intro receipt pins s c hon hst hb
    exact frameSent_alarm hon hst hb
  · intro receipt pins s age number job g body hold hon hst hlen hb he
    exact frameSent_answer_counted hon hst hlen hb he
  · intro receipt pins s hb
    refine yields_settle rfl (frameCompleted_other (s := takePins pins s) receipt hb) ⟨?_, ?_⟩
    · exact (settle_sameBut (takePins pins s)) .inputs (by decide)
    · exact (takePins_sameBut pins s).comp (settle_sameBut _) (by decide) (by decide)

end Sys2Proof.Machine


namespace Sys2Proof.Machine

/-! ## What a member's removal makes of the lines and the usage (R55, R139) -/

/-- A position after the loss of its owner. -/
def lostPosition (k : StationId) (x : Position) : Position :=
  if x.state = .claimed ∧ x.owner.toNat = k.val then donePosition x x.settledBy .lost else x

/-- The cards that a node's loss releases at a position under a master slot. -/
def lostCards (k : StationId) (m : SlotId) (x : Position) : Nat :=
  if x.state = .claimed ∧ x.owner.toNat = k.val ∧ slotOf? x.master = some m then x.count.toNat else 0

/-- A directory of which cards have been released under each master slot (R55). -/
def Released (n : SlotId → Nat) (d d' : Directory) : Prop :=
  ∀ m, (d'.usageOf m).reserved.toNat = (d.usageOf m).reserved.toNat - n m
    ∧ (d'.usageOf m).used = (d.usageOf m).used ∧ (d'.usageOf m).exhausted = (d.usageOf m).exhausted

theorem Released.refl (d : Directory) : Released (fun _ => 0) d d := fun _ => ⟨rfl, rfl, rfl⟩

theorem Released.trans {n n' : SlotId → Nat} {d d' d'' : Directory} (a : Released n d d') (b : Released n' d' d'') :
    Released (fun m => n m + n' m) d d'' := fun m => by
  obtain ⟨ha, hu, he⟩ := a m
  obtain ⟨hb, hu', he'⟩ := b m
  exact ⟨by rw [hb, ha, Nat.sub_sub], hu'.trans hu, he'.trans he⟩

theorem usageOf_setUsage (d : Directory) (i j : SlotId) (u : Usage) :
    (d.setUsage i u).usageOf j = if j = i then u else d.usageOf j := tget_tset _ _ _ _

theorem released_release (d : Directory) (i : SlotId) (n : Nat) : Released (fun m => if m = i then n else 0) d (d.release i n) := by
  intro m
  unfold Directory.release
  dsimp only
  rw [usageOf_setUsage]
  split
  · rename_i e
    rw [e]
    refine ⟨?_, rfl, rfl⟩
    rw [BitVec.toNat_ofNat]
    exact Nat.mod_eq_of_lt ((Nat.sub_le _ _).trans_lt (d.usageOf i).reserved.isLt)
  · exact ⟨rfl, rfl, rfl⟩

/-- The parts of a state that a position's loss looks at or changes: one line's entry and the usage. -/
theorem losePosition_lost (k : StationId) (l : LineId) (s : State) (p : PosId) :
    (losePosition k l s p).lines.entries
        = tset s.lines.entries l { entryAt s l with positions := tmod (entryAt s l).positions p (lostPosition k) }
    ∧ Released (fun m => lostCards k m (positionOf s l p)) s.dir (losePosition k l s p).dir := by
  unfold losePosition
  dsimp only
  split
  · rename_i h
    obtain ⟨hs, ho⟩ := h
    have hx : lostPosition k (tget (entryAt s l).positions p)
        = donePosition (tget (entryAt s l).positions p) (tget (entryAt s l).positions p).settledBy .lost := if_pos ⟨hs, ho⟩
    have hent : ∀ x : Position, (releaseUsage s x).lines = s.lines := fun x => by unfold releaseUsage; split <;> rfl
    constructor
    · unfold tmod
      rw [hx]
      show tset (releaseUsage s _).lines.entries l _ = _
      rw [hent]
    · show Released _ s.dir (releaseUsage s (positionOf s l p)).dir
      have hs' : (positionOf s l p).state = .claimed := hs
      have ho' : (positionOf s l p).owner.toNat = k.val := ho
      unfold releaseUsage
      split
      · rename_i hm
        have : (fun m => lostCards k m (positionOf s l p)) = fun _ => 0 := by
          funext m; simp [lostCards, hm]
        rw [this]
        exact Released.refl _
      · rename_i i hm
        have : (fun m => lostCards k m (positionOf s l p)) = fun m => if m = i then (positionOf s l p).count.toNat else 0 := by
          funext m; simp [lostCards, hm, hs', ho', eq_comm]
        rw [this]
        exact released_release _ _ _
  · rename_i h
    have hx : lostPosition k (tget (entryAt s l).positions p) = tget (entryAt s l).positions p := if_neg h
    have hc : (fun m => lostCards k m (positionOf s l p)) = fun _ => 0 := by
      funext m
      exact if_neg fun ⟨a, b, _⟩ => h ⟨a, b⟩
    constructor
    · unfold tmod
      rw [hx, tset_tget]
      exact (tset_tget s.lines.entries l).symm
    · rw [hc]
      exact Released.refl _

theorem entryAt_losePosition (k : StationId) (l : LineId) (s : State) (p : PosId) (l' : LineId) :
    entryAt (losePosition k l s p) l' = if l' = l then
      { entryAt s l with positions := tmod (entryAt s l).positions p (lostPosition k) } else entryAt s l' := by
  unfold entryAt
  rw [(losePosition_lost k l s p).1, tget_tset]
  rfl

/-- A run of positions lost, each once. -/
theorem losePositions_lost (k : StationId) (l : LineId) (ps : List PosId) (hn : ps.Nodup) (s : State) :
    (entryAt (ps.foldl (losePosition k l) s) l = { entryAt s l with
        positions := ps.foldl (fun t p => tmod t p (lostPosition k)) (entryAt s l).positions })
    ∧ (∀ l', l' ≠ l → entryAt (ps.foldl (losePosition k l) s) l' = entryAt s l')
    ∧ Released (fun m => (ps.map fun p => lostCards k m (positionOf s l p)).sum) s.dir (ps.foldl (losePosition k l) s).dir := by
  induction ps generalizing s with
  | nil => exact ⟨rfl, fun _ _ => rfl, Released.refl _⟩
  | cons p ps ih =>
    obtain ⟨hp, hn⟩ := List.nodup_cons.mp hn
    obtain ⟨h1, h2, h3⟩ := ih hn (losePosition k l s p)
    have he : entryAt (losePosition k l s p) l
        = { entryAt s l with positions := tmod (entryAt s l).positions p (lostPosition k) } := by
      rw [entryAt_losePosition, if_pos rfl]
    refine ⟨?_, fun l' hl => ?_, ?_⟩
    · rw [List.foldl_cons, h1, he]
      rfl
    · rw [List.foldl_cons, h2 l' hl, entryAt_losePosition, if_neg hl]
    · have hother : ∀ q ∈ ps, positionOf (losePosition k l s p) l q = positionOf s l q := fun q hq => by
        have hne : p ≠ q := fun e => hp (e ▸ hq)
        unfold positionOf
        rw [he]
        exact tget_tset_of_ne _ _ hne.symm
      have hsum : (fun m => ((p :: ps).map fun p => lostCards k m (positionOf s l p)).sum) = fun m =>
          lostCards k m (positionOf s l p) + (ps.map fun q => lostCards k m (positionOf (losePosition k l s p) l q)).sum := by
        funext m
        have hmap : ps.map (fun q => lostCards k m (positionOf s l q))
            = ps.map fun q => lostCards k m (positionOf (losePosition k l s p) l q) :=
          List.map_congr_left fun q hq => by rw [hother q hq]
        rw [List.map_cons, List.sum_cons, hmap]
      rw [hsum]
      exact (losePosition_lost k l s p).2.trans h3

theorem tget_foldl_tmod {α : Type} {n : Nat} (f : α → α) (is : List (Fin n)) (hn : is.Nodup) (t : Vector α n) (j : Fin n) :
    tget (is.foldl (fun t i => tmod t i f) t) j = if j ∈ is then f (tget t j) else tget t j := by
  induction is generalizing t with
  | nil => rfl
  | cons i is ih =>
    obtain ⟨hi, hn⟩ := List.nodup_cons.mp hn
    rw [List.foldl_cons, ih hn, tget_tmod]
    by_cases h : i = j
    · subst h
      simp [hi]
    · have h' : j ≠ i := fun e => h e.symm
      simp [h']

theorem foldl_tmod_all {α : Type} {n : Nat} (f : α → α) (t : Vector α n) :
    (List.finRange n).foldl (fun t i => tmod t i f) t = tmap f t :=
  table_ext fun j => by rw [tget_foldl_tmod f _ (List.nodup_finRange n), if_pos (List.mem_finRange j), tget_tmap]

/-- The cards that a node's loss releases in an entry. -/
def lostInEntry (k : StationId) (m : SlotId) (e : LineEntry) : Nat :=
  if e.state = .free then 0 else ((List.finRange 16).map fun p => lostCards k m (tget e.positions p)).sum

theorem dAdvanceLoop_pendingClear (n : Nat) (e : LineEntry) : (dAdvanceLoop n e).pendingClear = e.pendingClear := by
  induction n generalizing e with
  | zero => rfl
  | succ n ih =>
    unfold dAdvanceLoop
    dsimp only
    split
    · rw [ih]
    · rfl

theorem dAdvance_pendingClear (e : LineEntry) : (dAdvance e).pendingClear = e.pendingClear := dAdvanceLoop_pendingClear 16 e

theorem entryAt_giveNotice (s : State) (l : LineId) : entryAt (giveNotice s) l = entryAt s l := rfl

theorem freeLine_dir (s : State) (l : LineId) : (freeLine s l).dir = s.dir := rfl

/-- One entry at a member's removal (R30, R139). -/
theorem expelFromLine_lost (k : StationId) (s : State) (l : LineId) :
    (entryAt (expelFromLine k s l) l = lostEntry k (entryAt s l))
    ∧ (∀ l', l' ≠ l → entryAt (expelFromLine k s l) l' = entryAt s l')
    ∧ Released (fun m => lostInEntry k m (entryAt s l)) s.dir (expelFromLine k s l).dir := by
  obtain ⟨h1, h2, h3⟩ := losePositions_lost k l (List.finRange 16) (List.nodup_finRange 16) s
  rw [foldl_tmod_all] at h1
  unfold expelFromLine lostEntry
  dsimp only
  split
  · rename_i hfree
    have hz : (fun m => lostInEntry k m (entryAt s l)) = fun _ => 0 := funext fun m => if_pos hfree
    rw [hz]
    exact ⟨rfl, fun _ _ => rfl, Released.refl _⟩
  · rename_i hfree
    have hz : (fun m => lostInEntry k m (entryAt s l))
        = fun m => ((List.finRange 16).map fun p => lostCards k m (positionOf s l p)).sum := funext fun m => if_neg hfree
    rw [hz, h1, dAdvance_pendingClear]
    split
    · refine ⟨tget_tset_self _ _ _, fun l' hl => ?_, by rw [freeLine_dir]; exact h3⟩
      exact (tget_tset_of_ne _ _ hl).trans (h2 l' hl)
    · refine ⟨tget_tset_self _ _ _, fun l' hl => ?_, by rw [setEntry_dir]; exact h3⟩
      exact (tget_tset_of_ne _ _ hl).trans (h2 l' hl)

theorem expelFromLine_list_lost (k : StationId) (ls : List LineId) (hn : ls.Nodup) (s : State) :
    (∀ l, entryAt (ls.foldl (expelFromLine k) s) l = if l ∈ ls then lostEntry k (entryAt s l) else entryAt s l)
    ∧ Released (fun m => (ls.map fun l => lostInEntry k m (entryAt s l)).sum) s.dir (ls.foldl (expelFromLine k) s).dir := by
  induction ls generalizing s with
  | nil => exact ⟨fun _ => rfl, Released.refl _⟩
  | cons l ls ih =>
    obtain ⟨hl, hn⟩ := List.nodup_cons.mp hn
    obtain ⟨h1, h2, h3⟩ := expelFromLine_lost k s l
    obtain ⟨i1, i2⟩ := ih hn (expelFromLine k s l)
    refine ⟨fun l' => ?_, ?_⟩
    · rw [List.foldl_cons, i1]
      by_cases e : l' = l
      · subst e
        simp [hl, h1]
      · rw [h2 l' e]
        simp [e]
    · have hsum : (fun m => ((l :: ls).map fun l => lostInEntry k m (entryAt s l)).sum) = fun m =>
          lostInEntry k m (entryAt s l) + (ls.map fun l' => lostInEntry k m (entryAt (expelFromLine k s l) l')).sum := by
        funext m
        have hmap : ls.map (fun l' => lostInEntry k m (entryAt s l'))
            = ls.map fun l' => lostInEntry k m (entryAt (expelFromLine k s l) l') :=
          List.map_congr_left fun l' hl' => by rw [h2 l' (fun e => hl (e ▸ hl'))]
        rw [List.map_cons, List.sum_cons, hmap]
      rw [hsum]
      exact h3.trans i2

theorem sum_map_filter {α : Type} (p : α → Bool) (f : α → Nat) (l : List α) :
    ((l.filter p).map f).sum = (l.map fun x => if p x then f x else 0).sum := by
  induction l with
  | nil => rfl
  | cons x l ih =>
    by_cases h : p x <;> simp [h, ih]

theorem claimedCards_eq (s : State) (k : StationId) (m : SlotId) :
    claimedCards s k m = ((List.finRange 32).map fun l => lostInEntry k m (entryAt s l)).sum := by
  have hpos : ∀ e : LineEntry, ((e.positions.toList.filter (fun x =>
        x.state == .claimed && x.owner.toNat == k.val && slotOf? x.master == some m)).map (·.count.toNat)).sum
      = ((List.finRange 16).map fun p => lostCards k m (tget e.positions p)).sum := fun e => by
    rw [sum_map_filter, toList_eq_map_tget, List.map_map]
    congr 2
    funext p
    unfold lostCards
    simp only [Function.comp, Bool.and_eq_true, beq_iff_eq, and_assoc]
  unfold claimedCards
  rw [sum_map_filter, toList_eq_map_tget, List.map_map]
  congr 2
  funext l
  simp only [Function.comp]
  rw [hpos]
  unfold lostInEntry entryAt
  by_cases h : (tget s.lines.entries l).state = .free <;> simp [h]

/-- A member's removal over all the lines (R139). -/
theorem expelFromLines_lost (k : StationId) (s : State) :
    (∀ l, entryAt (expelFromLines k s) l = lostEntry k (entryAt s l))
    ∧ Released (claimedCards s k) s.dir (expelFromLines k s).dir := by
  obtain ⟨h1, h2⟩ := expelFromLine_list_lost k (List.finRange 32) (List.nodup_finRange 32) s
  have hc : claimedCards s k = fun m => ((List.finRange 32).map fun l => lostInEntry k m (entryAt s l)).sum :=
    funext fun m => claimedCards_eq s k m
  rw [hc]
  refine ⟨fun l => ?_, by unfold expelFromLines; rw [giveNotice_dir]; exact h2⟩
  unfold expelFromLines
  rw [entryAt_giveNotice, h1, if_pos (List.mem_finRange l)]

end Sys2Proof.Machine


namespace Sys2Proof.Machine

/-! ## A member's removal (R30, R77, R139) -/

theorem openList_removeRounds (burst : Bool) (p : Round → Bool) (l : List (Option RoundEntry)) :
    openList (removeRounds burst p l) = (openList l).filter (fun e => !p e.round) := by
  unfold openList removeRounds
  cases burst
  · induction l with
    | nil => rfl
    | cons x l ih =>
      rcases x with _ | e
      · exact ih
      · by_cases h : p e.round <;> simpa [h] using ih
  · induction l with
    | nil => rfl
    | cons x l ih =>
      rcases x with _ | e
      · exact ih
      · by_cases h : p e.round <;> simpa [h] using ih

theorem changeRounds_list (s : State) (l : List (Option RoundEntry)) : (changeRounds s l).rounds.list = l := by
  unfold changeRounds openRoundNotice
  split <;> rfl

theorem expelFromRounds_list (k : StationId) (s : State) : (expelFromRounds k s).rounds.list
    = removeRounds (roundsBurst s) (fun r => r.proposer == k) s.rounds.list := by
  unfold expelFromRounds
  dsimp only
  split
  · refine ((decisionTest_sameBut _) .roundList (by decide)).trans ?_
    exact changeRounds_list s _
  · exact changeRounds_list s _

theorem claimedCards_of_entries {s t : State} (h : t.lines.entries = s.lines.entries) (k : StationId) :
    claimedCards t k = claimedCards s k := by
  funext m
  unfold claimedCards
  rw [h]

/-- What the lines and the rounds make of a member's removal (R30, R55, R77, R139). -/
theorem expelled_lost (k : StationId) (s : State) :
    (∀ l, entryAt (expelFromLines k (expelFromRounds k s)) l = lostEntry k (entryAt s l))
    ∧ Released (claimedCards s k) s.dir (expelFromLines k (expelFromRounds k s)).dir
    ∧ openEntries (expelFromLines k (expelFromRounds k s)) = (openEntries s).filter (fun e => e.round.proposer != k)
    ∧ (expelFromLines k (expelFromRounds k s)).memb.live = s.memb.live := by
  have hround := expelFromRounds_sameBut k s
  have hline := expelFromLines_sameBut k (expelFromRounds k s)
  obtain ⟨hent, hrel⟩ := expelFromLines_lost k (expelFromRounds k s)
  have hdir : (expelFromRounds k s).dir = s.dir := hround.dir (by decide)
  have hlist : (expelFromLines k (expelFromRounds k s)).rounds.list = (expelFromRounds k s).rounds.list :=
    hline .roundList (by decide)
  have hlive : (expelFromLines k (expelFromRounds k s)).memb.live = (expelFromRounds k s).memb.live := hline .live (by decide)
  rw [claimedCards_of_entries (hround .entries (by decide)), hdir] at hrel
  refine ⟨fun l => by rw [hent, hround.entryAt (by decide)], hrel, ?_, hlive.trans (hround .live (by decide))⟩
  unfold openEntries
  rw [hlist, expelFromRounds_list, openList_removeRounds]
  rfl

/-- What a member's removal makes of the lines, the usage and the open round list (R30, R55, R77, R139). -/
theorem removeMember_lost (k : StationId) (s : State) :
    (∀ l, entryAt (removeMember k s) l = lostEntry k (entryAt s l))
    ∧ Released (claimedCards s k) s.dir (removeMember k s).dir
    ∧ openEntries (removeMember k s) = (openEntries s).filter (fun e => e.round.proposer != k)
    ∧ (removeMember k s).memb.live = setDel s.memb.live k.val := by
  obtain ⟨hent, hrel, hopen, hlive⟩ := expelled_lost k { s with memb := { s.memb with live := setDel s.memb.live k.val } }
  have hr := (setSilence_sameBut (expelFromLines k (expelFromRounds k
    { s with memb := { s.memb with live := setDel s.memb.live k.val } })) k .stopped).comp
    (retract_sameBut (isSilentExpelOf k) _) (e := .watches :: admitting) (by decide) (by decide)
  change SameBut _ _ (removeMember k s) at hr
  have hdir := hr.dir (by decide)
  have hlist := hr .roundList (by decide)
  refine ⟨fun l => by rw [hr.entryAt (by decide), hent]; rfl, by rw [hdir]; exact hrel, ?_, (hr .live (by decide)).trans hlive⟩
  rw [← show openEntries { s with memb := { s.memb with live := setDel s.memb.live k.val } } = openEntries s from rfl, ← hopen]
  unfold openEntries
  rw [hlist]

/-- The reserved counts dropped, what had been released does not matter. -/
theorem dropReserved_released {n : SlotId → Nat} {d d' : Directory} (h : Released n d d') (hs : d'.slots = d.slots)
    (hq : d'.seq = d.seq) (hk : d'.key = d.key) : d'.dropReserved = d.dropReserved := by
  have hu : tmap (fun u : Usage => { u with reserved := 0#32 }) d'.usage = tmap (fun u => { u with reserved := 0#32 }) d.usage :=
    table_ext fun m => by
      obtain ⟨-, hu, he⟩ := h m
      have hu' : (tget d'.usage m).used = (tget d.usage m).used := hu
      have he' : (tget d'.usage m).exhausted = (tget d.usage m).exhausted := he
      rw [tget_tmap, tget_tmap, hu', he']
  unfold Directory.dropReserved
  rw [hu, hs, hq, hk]

/-! ## The own removal (R19, R31, R87, R104, R113, R154, R172) -/

theorem openList_unmarked (l : List (Option RoundEntry)) :
    openList (l.map (fun x => x.map (fun e => { e with mark := .none }))) = (openList l).map (fun e => { e with mark := .none }) := by
  unfold openList
  induction l with
  | nil => rfl
  | cons x l ih =>
    rcases x with _ | e
    · exact ih
    · exact congrArg _ ih

/-- What the own removal leaves, whatever follows: nothing of the own work. -/
structure OwnWorkGone (t : State) : Prop where
  pool : t.pool = Pool.empty
  inFlight : t.engine.inFlight = none
  segs : t.engine.segs = noSegments
  queue : t.rounds.queue = []
  own : t.rounds.own = OwnRound.empty
  areas : t.cust.areas = Vector.replicate 2 none
  serve : t.catchUp.serve = []
  leaving : t.memb.leaving = false
  watches : t.memb.watches = Vector.replicate 8 .stopped

/-- No segment record is made where there is none: placing a frame only changes a record's phase (R167). -/
theorem noSegments_keeps : PoolKeeps (fun _ g => g = noSegments) where
  phase := fun {_ g} d number phase h => by
    subst h
    refine table_ext fun j => ?_
    rw [tget_tmod]
    split
    · unfold noSegments; rw [tget_replicate, tget_replicate]; rfl
    · rfl
  mark := fun _ h => h
  free := fun {_ g d} _ h => by
    subst h
    refine table_ext fun j => ?_
    rw [tget_tset]
    unfold noSegments
    rw [tget_replicate]
    split <;> rfl
  grant := fun _ _ h => h

theorem OwnWorkGone.of_sameBut {c : List Part} {s t : State} (h : OwnWorkGone s) (e : SameBut c s t)
    (hc : ∀ p ∈ [Part.pool, .inFlight, .custodyQueue, .ownRound, .areas, .serve, .leaving, .watches], p ∉ c)
    (hg : t.engine.segs = noSegments) : OwnWorkGone t where
  pool := (e .pool (hc _ (by decide))).trans h.pool
  inFlight := (e .inFlight (hc _ (by decide))).trans h.inFlight
  segs := hg
  queue := (e .custodyQueue (hc _ (by decide))).trans h.queue
  own := (e .ownRound (hc _ (by decide))).trans h.own
  areas := (e .areas (hc _ (by decide))).trans h.areas
  serve := (e .serve (hc _ (by decide))).trans h.serve
  leaving := (e .leaving (hc _ (by decide))).1.trans h.leaving
  watches := (e .watches (hc _ (by decide))).trans h.watches

theorem OwnWorkGone.requests {s : State} (h : OwnWorkGone s) (l : List TxFrame) :
    OwnWorkGone (l.foldl (fun s f => request f s) s) :=
  h.of_sameBut (SameBut.foldl (fun s f => request_sameBut f s) l s) (by decide) (noSegments_keeps.requests id l h.segs)

theorem OwnWorkGone.startAttempt {s : State} (h : OwnWorkGone s) (k : StationId) : OwnWorkGone (startAttempt k s) := by
  refine h.of_sameBut (startAttempt_sameBut k s) (by decide) ?_
  unfold Machine.startAttempt queuePull
  split
  · exact h.segs
  · exact noSegments_keeps.request _ h.segs

theorem OwnWorkGone.enterListening {s : State} (h : OwnWorkGone s) : OwnWorkGone (enterListening s) :=
  ⟨h.pool, h.inFlight, h.segs, h.queue, h.own, rfl, rfl, h.leaving, rfl⟩

theorem firstComplete_none {c : Custody} (h : c.areas = Vector.replicate 2 none) : firstComplete c = none := by
  cases c
  dsimp only at h
  subst h
  rfl

/-- The end of a step at a station without own work that is not LIVE serves queries and no more. -/
theorem OwnWorkGone.settle_eq {s : State} (h : OwnWorkGone s) (hl : isLive s = false) :
    settle s = serveQueries { s with lines := { s.lines with notice := false } } := by
  unfold Machine.settle
  rw [custodyWork_quiet (firstComplete_none h.areas) (.inr (.inl h.queue))]
  unfold considerPosted
  rw [if_neg (by rw [hl]; decide)]

theorem OwnWorkGone.settle_sameBut {s : State} (h : OwnWorkGone s) (hl : isLive s = false) :
    SameBut (.notice :: admitting) s (settle s) := by
  rw [h.settle_eq hl]
  refine SameBut.comp (c := [.notice]) ?_ (serveQueries_sameBut _) (by decide) (by decide)
  intro p hp
  cases p <;> first | rfl | exact ⟨rfl, rfl⟩ | exact ⟨rfl, rfl, rfl⟩ | exact absurd (by decide) hp

theorem OwnWorkGone.settle {s : State} (h : OwnWorkGone s) (hl : isLive s = false) : OwnWorkGone (settle s) :=
  h.of_sameBut (h.settle_sameBut hl) (by decide) (noSegments_keeps.settle h.segs)

end Sys2Proof.Machine


namespace Sys2Proof.Machine

/-! ## The purge at the own removal (R19, R31) -/

theorem Move.nextAge_le {s t : State} (h : Move s t) : s.link.nextAge ≤ t.link.nextAge := by
  cases h.queueChange with
  | thins q g sub age cls queue next bus => exact le_of_eq next.symm
  | grows f fits queue next bus => rw [next]; exact Nat.le_succ _

theorem Moves.nextAge_le {s t : State} (h : Moves s t) : s.link.nextAge ≤ t.link.nextAge :=
  h.keeps (I := fun t => s.link.nextAge ≤ t.link.nextAge) (fun m hs => hs.trans m.nextAge_le) (le_refl _)

/-- An entry after the purge and the end of its job (R19, R172). -/
def purgedEntry (l : Link) (e : TxEntry) : TxEntry :=
  { holdEntry l (fun _ => true) .purge e with frame := orphanAll (holdEntry l (fun _ => true) .purge e).frame }

theorem purgedEntry_age (l : Link) (e : TxEntry) : (purgedEntry l e).age = e.age := holdEntry_age l _ _ e

/-- The contending entry is held for the purge (R19). -/
theorem purgedEntry_hold {l : Link} {e : TxEntry} (h : contendingAge l = some e.age) : (purgedEntry l e).hold = .purge := by
  show (holdEntry l (fun _ => true) .purge e).hold = .purge
  unfold holdEntry
  rw [h]
  by_cases hh : e.hold = .purge <;> simp [hh]

theorem removedSelf_link (s : State) : (removedSelf s).link = { s.link with
    admissions := []
    queue := (s.link.queue.filter (fun e => !isWaiting s.link e)).map (purgedEntry s.link) } := by
  have hp : (removedSelf s).link =
      { (purge s).link with queue := (purge s).link.queue.map (fun e => { e with frame := orphanAll e.frame }) } := rfl
  rw [hp, purge_link]
  dsimp only
  rw [List.map_map]
  rfl

/-- A waiting entry is purged, and no entry of its age comes back. -/
theorem removedSelf_ageGone {s m : State} (hm : Moves s m) (hb : m.link.bus = s.link.bus) {e : TxEntry} (ho : QueueOrdered s)
    (he : e ∈ s.link.queue) (hw : isWaiting s.link e = true) : AgeGone e.age (removedSelf m) := by
  unfold AgeGone
  rw [removedSelf_link, entryOf_eq_none_iff]
  refine ⟨fun x hx heq => ?_, (ho.2 e he).trans_le hm.nextAge_le⟩
  obtain ⟨y, hy, rfl⟩ := List.mem_map.mp hx
  obtain ⟨-, hn⟩ := List.mem_filter.mp hy
  rw [purgedEntry_age] at heq
  have hwy : isWaiting m.link y = isWaiting s.link e := by
    unfold isWaiting
    rw [contendingAge_of_bus hb, sendingAge_of_bus hb, heq]
  rw [hwy, hw] at hn
  cases hn

/-- An entry on the bus outlasts the purge (R19). -/
theorem entryOf_removedSelf {s : State} {age : Nat} {e : TxEntry} (hc : contendingAge s.link = some age)
    (he : entryOf s.link age = some e) : entryOf (removedSelf s).link age = some (purgedEntry s.link e) := by
  rw [removedSelf_link]
  unfold entryOf at he ⊢
  have hage : ((fun x : TxEntry => x.age == age) ∘ purgedEntry s.link) = fun x => x.age == age :=
    funext fun x => by simp only [Function.comp, purgedEntry_age]
  have hkeep : (s.link.queue.filter (fun e => !isWaiting s.link e)).find? (fun x => x.age == age)
      = s.link.queue.find? (fun x => x.age == age) := by
    rw [List.find?_filter]
    refine List.find?_congr fun x _ => ?_
    by_cases hx : x.age = age
    · simp [isWaiting, hc, hx]
    · simp [hx]
  dsimp only
  rw [List.find?_map, hage, hkeep, he]
  rfl

/-- The contending entry stands held for the purge after the own removal (R19). -/
theorem removedSelf_held {s m : State} (hm : Moves s m) (hb : m.link.bus = s.link.bus) {e : TxEntry}
    (he : e ∈ s.link.queue) (hc : contendingAge s.link = some e.age) :
    ∃ x, entryOf (removedSelf m).link e.age = some x ∧ x.hold = .purge := by
  have hcand : CandidateQueued s := by
    rw [candidateQueued_iff]
    intro a ha
    have hsend : sendingAge s.link = none := by
      unfold contendingAge at hc
      unfold sendingAge
      split at hc
      · rename_i hbus; rw [hbus]
      · cases hc
    rw [hc, hsend] at ha
    have hea : e.age = a := by simpa using ha
    exact (entryOf_ne_none_iff _ _).mpr ⟨e, he, hea⟩
  have hcm : contendingAge m.link = some e.age := by rw [contendingAge_of_bus hb]; exact hc
  have hne := (candidateQueued_iff m).mp (hm.keeps Move.keeps_candidate hcand) e.age (.inl hcm)
  obtain ⟨y, hy⟩ := Option.ne_none_iff_exists'.mp hne
  exact ⟨_, entryOf_removedSelf hcm hy, purgedEntry_hold (by rw [entryOf_age hy]; exact hcm)⟩

/-- An entry that stays where it is through requests and the end of a step. -/
theorem entryOf_request (f : TxFrame) {s : State} {age : Nat} {e : TxEntry} (h : entryOf s.link age = some e) :
    entryOf (request f s).link age = some e := by
  unfold request
  split
  · obtain ⟨f', hq, -⟩ := placeFrame_queue f s
    unfold entryOf at h ⊢
    rw [hq, List.find?_append, h]
    rfl
  · exact h

theorem entryOf_requests (l : List TxFrame) {s : State} {age : Nat} {e : TxEntry} (h : entryOf s.link age = some e) :
    entryOf (l.foldl (fun s f => request f s) s).link age = some e := by
  induction l generalizing s with
  | nil => exact h
  | cons f l ih => exact ih (entryOf_request f h)

/-- A station that is not LIVE keeps every entry at the end of a step. -/
theorem entryOf_settleKeeps (age : Nat) (e : TxEntry) :
    SettleKeeps (fun s => isLive s = false ∧ entryOf s.link age = some e) := by
  refine .of_link (fun {f s} _ h => ⟨?_, entryOf_request f h.2⟩) ?_ ?_ (fun s t hlink hm h => ⟨?_, by rw [hlink]; exact h.2⟩)
  · unfold isLive
    rw [((request_sameBut f s) .station (by decide)).1]
    exact h.1
  · intro s _ hl h
    rw [h.1] at hl; cases hl
  · intro s _ hl h
    rw [h.1] at hl; cases hl
  · unfold isLive
    rw [hm]
    exact h.1

/-! ## The queue after the purge has room (R15) -/

/-- Nothing is pending, and at most `n` entries are queued. -/
def Light (n : Nat) (s : State) : Prop := s.link.admissions = [] ∧ s.link.queue.length ≤ n

theorem Light.fits {n : Nat} {s : State} (h : Light n s) (hn : n ≤ 11) (f : TxFrame) :
    classFits s.link.queue (txClass f) = true := by
  obtain ⟨-, hl⟩ := h
  have hf := (List.filter_sublist (l := s.link.queue) (p := fun e => txClass e.frame == 3)).length_le
  rw [classFits_iff]
  exact ⟨by omega, fun _ => by omega⟩

theorem Light.request {n : Nat} {s : State} (h : Light n s) (hn : n ≤ 11) (f : TxFrame) : Light (n + 1) (request f s) := by
  have hfit := h.fits hn f
  obtain ⟨ha, hl⟩ := h
  obtain ⟨f', hq, -⟩ := placeFrame_queue f s
  unfold Machine.request
  rw [if_pos hfit]
  exact ⟨(placeFrame_admissions f s).trans ha, by rw [hq]; simpa using hl⟩

theorem Light.requests (l : List TxFrame) {n : Nat} {s : State} (h : Light n s) (hn : n + l.length ≤ 12) :
    Light (n + l.length) (l.foldl (fun s f => Machine.request f s) s) := by
  induction l generalizing s n with
  | nil => exact h
  | cons f l ih =>
    rw [List.length_cons] at hn ⊢
    have := ih (h.request (by omega) f) (by omega)
    rwa [show n + (l.length + 1) = n + 1 + l.length by omega]

/-- Each query's REPORT finds room, so none is left pending (R15, R188). -/
theorem Light.serveQueries (k : Nat) {n : Nat} {s : State} (h : Light n s) (hn : n + s.rep.queries.length ≤ 12) :
    (serveQueriesLoop k s).link.admissions = [] := by
  induction k generalizing s n with
  | zero => exact h.1
  | succ k ih =>
    unfold serveQueriesLoop
    split
    · exact h.1
    · rename_i q rest hq
      rw [hq, List.length_cons] at hn
      split
      · exact h.1
      · split
        · refine ih (h.request (by omega) _) ?_
          have hr : (Machine.request (.queryReport q) s).rep.queries = rest := by
            unfold Machine.request
            rw [if_pos (h.fits (by omega) _), placeFrame_queries_report rfl, hq]
            rfl
          rw [hr]
          omega
        · exact ih (n := n) h (by show n + rest.length ≤ 12; omega)

/-- No more than the entry on the bus is left by the purge. -/
theorem removedSelf_light {s : State} (h : QueueOrdered s) : Light 1 (removedSelf s) := by
  unfold Light
  rw [removedSelf_link]
  refine ⟨rfl, ?_⟩
  dsimp only
  rw [List.length_map]
  have hp : ((s.link.queue.filter (fun e => !isWaiting s.link e)).map (·.age)).Pairwise (· < ·) :=
    h.1.sublist (List.filter_sublist.map _)
  have hb : ∀ e ∈ s.link.queue.filter (fun e => !isWaiting s.link e),
      contendingAge s.link = some e.age ∨ sendingAge s.link = some e.age := fun e he => by
    have := (List.mem_filter.mp he).2
    by_contra hc
    rw [not_or] at hc
    simp [isWaiting, hc.1, hc.2] at this
  have huniq : ∀ a b, contendingAge s.link = some a ∨ sendingAge s.link = some a →
      contendingAge s.link = some b ∨ sendingAge s.link = some b → a = b := by
    intro a b
    unfold contendingAge sendingAge
    rcases s.link.bus with _ | (_ | _ | _) | ⟨_ | _ | _, d, f⟩ <;> simp <;> omega
  match hl : s.link.queue.filter (fun e => !isWaiting s.link e) with
  | [] => simp
  | [_] => simp
  | x :: y :: r =>
    rw [hl] at hp hb
    have hlt : x.age < y.age := by
      simp only [List.map_cons, List.pairwise_cons] at hp
      exact hp.1 _ (by simp)
    exact absurd (huniq _ _ (hb x (by simp)) (hb y (by simp))) (Nat.ne_of_lt hlt)

theorem lostReports_length (s : State) : (lostReports s).length = s.rounds.queue.length := by
  unfold lostReports
  split
  · rename_i h; rw [h]; rfl
  · rename_i h; rw [h]; simp

theorem areaLostReports_length (c : Custody) : (areaLostReports c).length ≤ 2 := by
  unfold areaLostReports
  refine (List.length_filterMap_le _ _).trans ?_
  simp

end Sys2Proof.Machine


namespace Sys2Proof.Machine

/-! ## The station's own EXPEL while LIVE (R31) -/

/-- The station after its own removal, in CATCHUP without an attempt. -/
def outOfLive (m : State) : State :=
  { removedSelf m with memb := { (removedSelf m).memb with restartOutstanding := false, state := .catchup } }

/-- What the own removal may change. -/
def leavingLive : List Part :=
  [.txQueue, .segments, .queries, .inFlight, .ctx, .pool, .leaving, .watches, .custodyQueue, .ownRound, .roundList, .areas, .serve]

theorem removedSelf_sameBut (m : State) : SameBut leavingLive m (removedSelf m) := by
  refine SameBut.comp ((purge_sameBut m).comp (dropJobs_sameBut (purge m))
    (e := [.txQueue, .segments, .queries, .inFlight, .ctx, .pool]) (by decide) (by decide))
    (d := [.leaving, .watches, .custodyQueue, .ownRound, .roundList, .areas, .serve]) ?_ (by decide) (by decide)
  intro p hp
  cases p <;> first | rfl | exact ⟨rfl, rfl⟩ | exact ⟨rfl, rfl, rfl⟩ | exact absurd (by decide) hp

theorem outOfLive_sameBut (m : State) : SameBut (.station :: leavingLive) m (outOfLive m) := by
  refine SameBut.comp (removedSelf_sameBut m) (d := [.station, .leaving]) ?_ (by decide) (by decide)
  intro p hp
  cases p <;> first | rfl | exact ⟨rfl, rfl⟩ | exact ⟨rfl, rfl, rfl⟩ | exact absurd (by decide) hp

theorem openEntries_outOfLive (m : State) : openEntries (outOfLive m) = (openEntries m).map (fun e => { e with mark := .none }) := by
  have h : (purge m).rounds = m.rounds := (purge_sameBut m).rounds (by decide)
  have hl : (outOfLive m).rounds.list = (purge m).rounds.list.map (fun x => x.map (fun e => { e with mark := .none })) := rfl
  unfold openEntries
  rw [hl, h, openList_unmarked]

/-- The LOST reports of the station's own removal (R87, R104). -/
def ownLostReports (m : State) : List TxFrame := lostReports m ++ areaLostReports m.cust

/-- The station after its own removal, its LOST reports asked for. -/
def reportedLost (m : State) : State := (ownLostReports m).foldl (fun s f => request f s) (outOfLive m)

theorem selfRemoved_stays {r : ExpelReason} {m : State} (hr : r ≠ .restart) (ho : m.memb.restartOutstanding = false) :
    selfRemoved r m = nextAttempt none (reportedLost m) := by
  unfold selfRemoved
  dsimp only
  rw [ho, if_neg (by simp [hr])]
  rfl

/-- The state from which the own removal restarts, the member lost (R31). -/
def restartsFrom (m : State) : State :=
  { removedSelf m with memb := { (removedSelf m).memb with restartOutstanding := false } }

theorem selfRemoved_restarts {r : ExpelReason} {m : State} (h : r = .restart ∨ m.memb.restartOutstanding = true) :
    selfRemoved r m = warmStart false (restartsFrom m) := by
  unfold selfRemoved
  dsimp only
  rw [if_pos (by rcases h with h | h <;> simp [h])]
  rfl

theorem outOfLive_gone (m : State) : OwnWorkGone (outOfLive m) := ⟨rfl, rfl, rfl, rfl, rfl, rfl, rfl, rfl, rfl⟩

theorem reportedLost_gone (m : State) : OwnWorkGone (reportedLost m) := (outOfLive_gone m).requests _

theorem reportedLost_sameBut (m : State) : SameBut admitting (outOfLive m) (reportedLost m) :=
  SameBut.foldl (fun s f => request_sameBut f s) _ _

/-- Where no other member qualifies the station listens, else it pulls (R110). -/
theorem nextAttempt_cases (s : State) :
    (chooseSource s none = none ∧ nextAttempt none s = enterListening s)
    ∨ ∃ k, chooseSource s none = some k ∧ nextAttempt none s = startAttempt k s := by
  unfold nextAttempt
  cases h : chooseSource s none with
  | none => exact .inl ⟨rfl, rfl⟩
  | some k => exact .inr ⟨k, rfl, rfl⟩

theorem mem_members (s : State) (j : StationId) : j ∈ members s ↔ isMember s j = true := by
  have hall : ∀ j : StationId, j ∈ stationList := by decide
  unfold members setList isMember
  rw [List.mem_filter]
  exact and_iff_right (hall j)

theorem chooseSource_none_iff (s : State) : chooseSource s none = none
    ↔ ∀ j, isMember s j = true → j ≠ self s → qualifies s j = false := by
  have hable : chooseSource s none = none ↔ (members s).filter (fun k => k != self s && qualifies s k) = [] := by
    unfold chooseSource
    dsimp only
    cases h : (members s).filter (fun k => k != self s && qualifies s k) with
    | nil => simp
    | cons a l => simp
  rw [hable, List.filter_eq_nil_iff]
  simp only [mem_members, Bool.and_eq_true, bne_iff_ne, not_and, Bool.not_eq_true]

/-- Whether another member qualifies does not depend on the own membership (R110). -/
theorem reportedLost_source {s m : State} (hl : m.memb.live = setDel s.memb.live (self s).val) (hp : m.memb.peers = s.memb.peers)
    (hs : m.straps = s.straps) : chooseSource (reportedLost m) none = none
      ↔ ∀ j, isMember s j = true → j ≠ self s → qualifies s j = false := by
  have hsame := (outOfLive_sameBut m).comp (reportedLost_sameBut m) (e := .station :: leavingLive) (by decide) (by decide)
  have hlive : (reportedLost m).memb.live = setDel s.memb.live (self s).val := (hsame .live (by decide)).trans hl
  have hpeers : (reportedLost m).memb.peers = s.memb.peers := (hsame .peers (by decide)).trans hp
  have hstraps : (reportedLost m).straps = s.straps := (hsame .straps (by decide)).trans hs
  have hself : self (reportedLost m) = self s := by unfold self; simp only [hstraps]
  have hq : ∀ j, qualifies (reportedLost m) j = qualifies s j := fun j => by unfold qualifies; rw [hpeers]
  have hmem : ∀ j : StationId, isMember (reportedLost m) j = true ↔ isMember s j = true ∧ j ≠ self s := fun j => by
    unfold isMember
    rw [hlive, setHas_setDel _ _ _ (self s).isLt]
    simp [Fin.ext_iff]
  rw [chooseSource_none_iff, hself]
  simp only [hq, hmem]
  exact ⟨fun h j hj hne => h j ⟨hj, hne⟩ hne, fun h j hj hne => h j hj.1 hne⟩

section

variable {s m : State}

theorem nextAttempt_gone (m : State) : OwnWorkGone (nextAttempt none (reportedLost m)) := by
  rcases nextAttempt_cases (reportedLost m) with ⟨-, e⟩ | ⟨k, -, e⟩ <;> rw [e]
  · exact (reportedLost_gone m).enterListening
  · exact (reportedLost_gone m).startAttempt k

theorem reportedLost_state (m : State) : (reportedLost m).memb.state = .catchup :=
  ((reportedLost_sameBut m) .station (by decide)).1

theorem nextAttempt_notLive (m : State) : isLive (nextAttempt none (reportedLost m)) = false := by
  unfold isLive
  rcases nextAttempt_cases (reportedLost m) with ⟨-, e⟩ | ⟨k, -, e⟩ <;> rw [e]
  · rfl
  · rw [startAttempt_memb, reportedLost_state]; rfl

/-- The end of the step keeps what the own removal has left, but for the queries it serves. -/
theorem ownRemoval_settled (m : State) :
    SameBut (.notice :: admitting) (nextAttempt none (reportedLost m)) (settle (nextAttempt none (reportedLost m))) :=
  (nextAttempt_gone m).settle_sameBut (nextAttempt_notLive m)

theorem ownRemoval_moves (m : State) : Moves (removedSelf m) (settle (nextAttempt none (reportedLost m))) := by
  have hr : ∀ f ∈ ownLostReports m, isQueryReport f = false := fun f hf => by
    rcases lostReport_kinds m f hf with ⟨g, b, rfl⟩ | ⟨g, b, rfl⟩ <;> rfl
  have h0 : Moves (removedSelf m) (outOfLive m) := moves_of_eq ⟨rfl, rfl, rfl⟩ rfl rfl rfl rfl rfl rfl
  exact ((h0.trans (requests_moves _ hr _)).trans (nextAttempt_moves _ _)).trans (settle_moves _)

/-- An entry that the purge leaves stays where it is (R19). -/
theorem ownRemoval_keeps {age : Nat} {e : TxEntry} (h : entryOf (removedSelf m).link age = some e) :
    entryOf (settle (nextAttempt none (reportedLost m))).link age = some e := by
  have h0 : entryOf (outOfLive m).link age = some e := h
  have h1 : entryOf (reportedLost m).link age = some e := entryOf_requests _ h0
  have h2 : entryOf (nextAttempt none (reportedLost m)).link age = some e := by
    rcases nextAttempt_cases (reportedLost m) with ⟨-, e⟩ | ⟨k, -, e⟩ <;> rw [e]
    · exact h1
    · unfold startAttempt queuePull
      split
      · exact h1
      · exact entryOf_request _ h1
  exact ((entryOf_settleKeeps age e).settle ⟨nextAttempt_notLive m, h2⟩).2

/-- The purge leaves room for all that the own removal asks for (R15, R19). -/
theorem ownRemoval_admissions (hm : Moves s m) (hc : WithinCapacity s) (ho : QueueOrdered s) :
    (settle (nextAttempt none (reportedLost m))).link.admissions = [] := by
  obtain ⟨hqueue, -, -, -, -⟩ := hm.keeps Move.keeps_capacity hc
  have hlen : (ownLostReports m).length ≤ 6 := by
    have := areaLostReports_length m.cust
    unfold ownLostReports
    rw [List.length_append, lostReports_length]
    omega
  have hlight : Light 7 (reportedLost m) := by
    have h1 : Light 1 (outOfLive m) := removedSelf_light (hm.keeps Move.keeps_ordered ho)
    obtain ⟨ha, hq⟩ := h1.requests (ownLostReports m) (by omega)
    exact ⟨ha, hq.trans (by omega)⟩
  have hnext : Light 8 (nextAttempt none (reportedLost m)) := by
    obtain ⟨ha, hq⟩ := hlight
    rcases nextAttempt_cases (reportedLost m) with ⟨-, e⟩ | ⟨k, -, e⟩ <;> rw [e]
    · exact ⟨ha, hq.trans (by omega)⟩
    · have hset : Light 7 (setCatchUp (reportedLost m) { (reportedLost m).catchUp with
          phase := .pulling, source := some k, pullIndex := 1, awaited := [], pullTimer := false, verifyTimer := false,
          joinFailure := none, attempts := raise16 (reportedLost m).catchUp.attempts }) := ⟨ha, hq⟩
      exact hset.request (by omega) _
  have hqueries : (nextAttempt none (reportedLost m)).rep.queries.length ≤ 4 := by
    have hr : ∀ f ∈ ownLostReports m, isQueryReport f = false := fun f hf => by
      rcases lostReport_kinds m f hf with ⟨g, b, rfl⟩ | ⟨g, b, rfl⟩ <;> rfl
    have h0 : Moves (removedSelf m) (outOfLive m) := moves_of_eq ⟨rfl, rfl, rfl⟩ rfl rfl rfl rfl rfl rfl
    have hall := ((hm.trans (removedSelf_moves m)).trans (h0.trans (requests_moves _ hr _))).trans
      (nextAttempt_moves none (reportedLost m))
    obtain ⟨-, -, -, h4, -⟩ := hall.keeps Move.keeps_capacity hc
    exact h4
  rw [(nextAttempt_gone m).settle_eq (nextAttempt_notLive m)]
  exact Light.serveQueries (s := { nextAttempt none (reportedLost m) with
    lines := { (nextAttempt none (reportedLost m)).lines with notice := false } }) _ hnext
    (by show 8 + (nextAttempt none (reportedLost m)).rep.queries.length ≤ 12; omega)

/-- Out of LIVE into LISTENING: nothing of the cabinet state that a LISTENING station does not hold (R38, R61, R87, R140). -/
theorem ownRemoval_listens (h : chooseSource (reportedLost m) none = none) :
    (settle (nextAttempt none (reportedLost m))).memb.state = .listening
    ∧ (settle (nextAttempt none (reportedLost m))).memb.live = 0#8
    ∧ (settle (nextAttempt none (reportedLost m))).memb.windowOpen = true
    ∧ (settle (nextAttempt none (reportedLost m))).lines = LineTable.empty
    ∧ (settle (nextAttempt none (reportedLost m))).dir = m.dir.dropReserved
    ∧ openEntries (settle (nextAttempt none (reportedLost m))) = [] := by
  have hset := ownRemoval_settled m
  have heq := (nextAttempt_gone m).settle_eq (nextAttempt_notLive m)
  have hu : nextAttempt none (reportedLost m) = enterListening (reportedLost m) := by unfold nextAttempt; rw [h]
  have hd : (reportedLost m).dir = m.dir :=
    ((reportedLost_sameBut m).dir (by decide)).trans ((outOfLive_sameBut m).dir (by decide))
  have hlines : (settle (nextAttempt none (reportedLost m))).lines = LineTable.empty := by
    rw [heq, (serveQueries_sameBut _).lines (by decide), hu]
    rfl
  have hlist : (settle (nextAttempt none (reportedLost m))).rounds.list = [] := (hset .roundList (by decide)).trans (by rw [hu]; rfl)
  have hdir : (settle (nextAttempt none (reportedLost m))).dir = m.dir.dropReserved := by
    rw [hset.dir (by decide), hu, ← hd]
    rfl
  refine ⟨(hset .station (by decide)).1.trans (by rw [hu]; rfl), (hset .live (by decide)).trans (by rw [hu]; rfl),
    (hset .windowOpen (by decide)).trans (by rw [hu]; rfl), hlines, hdir, ?_⟩
  unfold openEntries
  rw [hlist]
  rfl

/-- Out of LIVE into CATCHUP: the cabinet state stays, no vote mark with it (R87, R110). -/
theorem ownRemoval_pulls {k : StationId} (h : chooseSource (reportedLost m) none = some k) :
    (settle (nextAttempt none (reportedLost m))).memb.state = .catchup
    ∧ (settle (nextAttempt none (reportedLost m))).memb.live = m.memb.live
    ∧ (settle (nextAttempt none (reportedLost m))).catchUp.phase = .pulling
    ∧ (∀ l, entryAt (settle (nextAttempt none (reportedLost m))) l = entryAt m l)
    ∧ (settle (nextAttempt none (reportedLost m))).dir = m.dir
    ∧ openEntries (settle (nextAttempt none (reportedLost m))) = (openEntries m).map (fun e => { e with mark := .none }) := by
  have hu : nextAttempt none (reportedLost m) = startAttempt k (reportedLost m) := by unfold nextAttempt; rw [h]
  have hset := ownRemoval_settled m
  rw [hu] at hset
  have hall := (reportedLost_sameBut m).comp ((startAttempt_sameBut k (reportedLost m)).comp hset
    (e := .pulling :: .attempts :: .notice :: admitting) (by decide) (by decide)) (e := .pulling :: .attempts :: .notice :: admitting)
    (by decide) (by decide)
  have hown := outOfLive_sameBut m
  rw [hu]
  have hphase : (settle (startAttempt k (reportedLost m))).catchUp.phase = (startAttempt k (reportedLost m)).catchUp.phase := by
    rw [hset.catchUp (by decide)]
  refine ⟨(hall .station (by decide)).1, (hall .live (by decide)).trans (hown .live (by decide)),
    hphase.trans (by rw [startAttempt_catchUp]), fun l => (hall.entryAt (by decide) l).trans (hown.entryAt (by decide) l),
    (hall.dir (by decide)).trans (hown.dir (by decide)), ?_⟩
  have hlist : (settle (startAttempt k (reportedLost m))).rounds.list = (outOfLive m).rounds.list := hall .roundList (by decide)
  rw [← openEntries_outOfLive]
  unfold openEntries
  rw [hlist]

end

end Sys2Proof.Machine


namespace Sys2Proof.Machine

/-- The own removal as the EXPEL finds the station: its own node lost as any member is (R30, R31). -/
def selfLost (s : State) : State := removeMember (self s) s

theorem self_of_straps {s t : State} (h : t.straps = s.straps) : self t = self s := by
  unfold self
  simp only [h]

theorem selfLost_sameBut (s : State) : SameBut removing s (selfLost s) := removeMember_sameBut (self s) s

theorem selfLost_moves (s : State) : Moves s (selfLost s) := removeMember_moves (self s) s

theorem selfLost_lost (s : State) : (∀ l, entryAt (selfLost s) l = lostEntry (self s) (entryAt s l))
    ∧ Released (claimedCards s (self s)) s.dir (selfLost s).dir
    ∧ openEntries (selfLost s) = (openEntries s).filter (fun e => e.round.proposer != self s)
    ∧ (selfLost s).memb.live = setDel s.memb.live (self s).val := by
  unfold selfLost
  exact removeMember_lost (self s) s

theorem onExpel_self {s : State} {node reason : Byte} {r : ExpelReason}
    (hn : (indexOf? 8 node : Option StationId) = some (self s)) (hr : ExpelReason.ofCode? reason = some r)
    (hm : isMember s (self s) = true) (hl : s.memb.state = .live) : onExpel node reason s = selfRemoved r (selfLost s) := by
  have hself : self s = self (removeMember (self s) s) :=
    (self_of_straps (removeMember_sameBut (self s) s .straps (by decide))).symm
  unfold onExpel
  rw [hn, hr]
  dsimp only
  rw [if_pos hm]
  unfold expelMember
  rw [hl]
  dsimp only
  rw [if_pos hself]
  rfl

/-- The own EXPEL, from its arrival to the end of the step. -/
theorem exec_ownExpel {h : Header} {node reason : Byte} {pins : Pins} {r : ExpelReason} {s : State}
    (hreach : Reaches s h (.expel node reason)) (hn : (indexOf? 8 node : Option StationId) = some (self s))
    (hr : ExpelReason.ofCode? reason = some r) (hm : isMember s (self s) = true) (hl : s.memb.state = .live) :
    exec (.expel h node reason pins) s = .next (settle (selfRemoved r (selfLost (receivedIntact (takePins pins s))))) := by
  have hx : exec (.expel h node reason pins) s
      = .next (receive h (.expel node reason) (onExpel node reason) (takePins pins s)) := rfl
  have hreach' : Reaches (takePins pins s) h (.expel node reason) := hreach
  have hstation : roleOf (stationCount (takePins pins s)) h.src = .station :=
    station_of_sent (f := .expel node reason) hreach'.2.1 (fun _ => rfl)
  rw [hx, receive_reaches _ hreach', arrived_station hstation, onExpel_self (s := receivedIntact (takePins pins s)) hn hr hm hl]

theorem dropReserved_selfLost (s : State) : (selfLost s).dir.dropReserved = s.dir.dropReserved := by
  obtain ⟨-, hrel, -⟩ := selfLost_lost s
  have h := selfLost_sameBut s
  exact dropReserved_released hrel (h .slots (by decide)) (h .seq (by decide)) (h .cabinetKey (by decide))

section

variable {s t : State} (ht : t = settle (nextAttempt none (reportedLost (selfLost s))))

include ht

/-- The purge at the own removal: waiting entries are gone, the contending one is held for it (R19). -/
theorem ownExpel_queue (ho : QueueOrdered s) {e : TxEntry} (he : e ∈ s.link.queue) :
    (isWaiting s.link e = true → entryOf t.link e.age = none)
    ∧ (contendingAge s.link = some e.age → (entryOf t.link e.age).map (·.hold) = some .purge) := by
  have hmoves := selfLost_moves s
  have hbus : (selfLost s).link.bus = s.link.bus := selfLost_sameBut s .bus (by decide)
  rw [ht]
  refine ⟨fun hw => ?_, fun hc => ?_⟩
  · exact ((ownRemoval_moves _).keeps Move.keeps_ageGone (removedSelf_ageGone hmoves hbus ho he hw)).1
  · obtain ⟨x, hx, hhold⟩ := removedSelf_held hmoves hbus he hc
    rw [ownRemoval_keeps hx, ← hhold]
    rfl

theorem ownExpel_admissions (hc : WithinCapacity s) (ho : QueueOrdered s) : t.link.admissions = [] := by
  rw [ht]
  exact ownRemoval_admissions (selfLost_moves s) hc ho

/-- The own removal where no other member qualifies (R110). -/
theorem ownExpel_listens (h : ∀ j, isMember s j = true → j ≠ self s → qualifies s j = false) :
    t.memb.state = .listening ∧ t.memb.live = 0#8 ∧ t.memb.windowOpen = true
    ∧ t.lines = LineTable.empty ∧ t.dir = s.dir.dropReserved ∧ openEntries t = [] := by
  have hsame := selfLost_sameBut s
  obtain ⟨-, -, -, hlive⟩ := selfLost_lost s
  have hsource := reportedLost_source (s := s) (m := selfLost s) hlive (hsame .peers (by decide)) (hsame .straps (by decide))
  rw [ht, ← dropReserved_selfLost s]
  exact ownRemoval_listens (hsource.mpr h)

/-- The own removal where another member qualifies (R110). -/
theorem ownExpel_pulls (h : ¬ ∀ j, isMember s j = true → j ≠ self s → qualifies s j = false) :
    t.memb.state = .catchup ∧ t.memb.live = setDel s.memb.live (self s).val ∧ t.catchUp.phase = .pulling
    ∧ (∀ l, entryAt t l = lostEntry (self s) (entryAt s l))
    ∧ openEntries t = ((openEntries s).filter (fun e => e.round.proposer != self s)).map (fun e => { e with mark := .none })
    ∧ Released (claimedCards s (self s)) s.dir t.dir := by
  have hsame := selfLost_sameBut s
  obtain ⟨hent, hrel, hopen, hlive⟩ := selfLost_lost s
  have hsource := reportedLost_source (s := s) (m := selfLost s) hlive (hsame .peers (by decide)) (hsame .straps (by decide))
  obtain ⟨k, hk⟩ := Option.ne_none_iff_exists'.mp (fun hn => h (hsource.mp hn))
  obtain ⟨hst, hl, hph, hen, hd, hop⟩ := ownRemoval_pulls hk
  rw [ht, ← hopen]
  exact ⟨hst, hl.trans hlive, hph, fun l => (hen l).trans (hent l), hop, by rw [hd]; exact hrel⟩

/-- Where the own removal leads, by whether another member qualifies (R31, R110). -/
theorem ownExpel_goes :
    (t.memb.state = .catchup →
        (∀ l, entryAt t l = lostEntry (self s) (entryAt s l))
        ∧ openEntries t = ((openEntries s).filter (fun e => e.round.proposer != self s)).map (fun e => { e with mark := .none })
        ∧ Released (claimedCards s (self s)) s.dir t.dir)
    ∧ (t.memb.state = .listening → t.lines = LineTable.empty ∧ t.dir = s.dir.dropReserved ∧ openEntries t = [])
    ∧ ((∃ j, isMember s j = true ∧ j ≠ self s ∧ qualifies s j = true) →
        t.memb.state = .catchup ∧ t.memb.live = setDel s.memb.live (self s).val ∧ t.catchUp.phase = .pulling)
    ∧ ((∀ j, isMember s j = true → j ≠ self s → qualifies s j = false) →
        t.memb.state = .listening ∧ t.memb.live = 0#8 ∧ t.memb.windowOpen = true) := by
  by_cases h : ∀ j, isMember s j = true → j ≠ self s → qualifies s j = false
  · obtain ⟨hst, hl, hw, hli, hd, hop⟩ := ownExpel_listens ht h
    refine ⟨fun hc => ?_, fun _ => ⟨hli, hd, hop⟩, ?_, fun _ => ⟨hst, hl, hw⟩⟩
    · rw [hst] at hc; cases hc
    · rintro ⟨j, hj, hne, hq⟩
      rw [h j hj hne] at hq
      cases hq
  · obtain ⟨hst, hl, hph, hen, hop, hrel⟩ := ownExpel_pulls ht h
    refine ⟨fun _ => ⟨hen, hop, hrel⟩, fun hc => ?_, fun _ => ⟨hst, hl, hph⟩, fun hn => absurd hn h⟩
    rw [hst] at hc; cases hc

end

/-- The own removal that is a restart: the values of a warm start, and no entry of before (R23, R31). -/
theorem ownExpel_restarts {u w : State} (hw : w.tamper.window = none ∨ w.inputs.pins.doorOpen = false)
    (hu : u = warmStart false w) :
    (settle u).memb.state = warmState (strapsOf w.inputs.pins) w.dir ∧ (settle u).straps = strapsOf w.inputs.pins
    ∧ (settle u).memb.live = 0#8 ∧ (settle u).memb.leaving = false ∧ (settle u).memb.restartOutstanding = false
    ∧ (settle u).cust.record = none
    ∧ (settle u).dir = (if (strapsOf w.inputs.pins).valid then w.dir.dropReserved else Directory.erased)
    ∧ (settle u).pool = Pool.empty ∧ (settle u).lines = LineTable.empty ∧ (settle u).rounds = RoundControl.empty
    ∧ (settle u).tamper.window = none
    ∧ ∀ age, age < w.link.nextAge → entryOf (settle u).link age = none := by
  obtain ⟨tm, q, n, he, hwin, -⟩ := warmStart_eq hw
  rw [warmValues_eq] at he
  obtain ⟨hlink, hrounds, -, -, hlines, hpool, -, hrep, -⟩ := clearedBlocks w
  have hquiet : settle u = u := by
    rw [hu, he]
    refine settle_quiet rfl (.inr (.inl ?_)) ?_ ?_
    · dsimp only; rw [hrounds]; rfl
    · dsimp only; rw [hlines]; rfl
    · dsimp only; rw [hrep]; rfl
  have hgone : ∀ age, age < w.link.nextAge → entryOf (settle u).link age = none := by
    intro age hage
    have h0 : AgeGone age (warmValues false w) := by
      unfold AgeGone
      rw [warmValues_eq, hlink]
      exact ⟨rfl, hage⟩
    rw [hu]
    exact (((closeWindow_moves _).trans (reportDirectOrder_moves _)).trans (settle_moves _)).keeps Move.keeps_ageGone h0 |>.1
  rw [hquiet, hu, he] at hgone ⊢
  exact ⟨rfl, rfl, rfl, rfl, rfl, rfl, rfl, hpool, hlines, hrounds, hwin, hgone⟩

theorem restartsFrom_sameBut (m : State) : SameBut leavingLive m (restartsFrom m) := by
  refine SameBut.comp (removedSelf_sameBut m) (d := [.leaving]) ?_ (by decide) (by decide)
  intro p hp
  cases p <;> first | rfl | exact ⟨rfl, rfl⟩ | exact ⟨rfl, rfl, rfl⟩ | exact absurd (by decide) hp

theorem restartsFrom_moves (m : State) : Moves m (restartsFrom m) :=
  (removedSelf_moves m).trans (moves_of_eq ⟨rfl, rfl, rfl⟩ rfl rfl rfl rfl rfl rfl)

/-- The own removal leaves of the inputs, the window, the directory and the ages what a warm start needs. -/
theorem restartsFrom_selfLost (s : State) : (restartsFrom (selfLost s)).inputs = s.inputs
    ∧ (restartsFrom (selfLost s)).tamper.window = s.tamper.window
    ∧ (restartsFrom (selfLost s)).dir.dropReserved = s.dir.dropReserved
    ∧ (restartsFrom (selfLost s)).dir.key = s.dir.key
    ∧ s.link.nextAge ≤ (restartsFrom (selfLost s)).link.nextAge := by
  have hlost := selfLost_sameBut s
  have hfrom := restartsFrom_sameBut (selfLost s)
  have hdir : (restartsFrom (selfLost s)).dir = (selfLost s).dir := hfrom.dir (by decide)
  rw [hdir, dropReserved_selfLost]
  exact ⟨(hfrom .inputs (by decide)).trans (hlost .inputs (by decide)),
    (hfrom .maintenance (by decide)).trans (hlost .maintenance (by decide)), rfl, hlost .cabinetKey (by decide),
    ((selfLost_moves s).trans (restartsFrom_moves _)).nextAge_le⟩

theorem warmState_of_key {straps : Straps} {d d' : Directory} (h : d'.key = d.key) : warmState straps d' = warmState straps d := by
  unfold warmState
  rw [h]

/-- Settles O18: the own removal as any member's, then the purge, and CATCHUP, LISTENING or a warm start. -/
theorem ownExpelLeavesLive : Obligations.OwnExpelLeavesLive := by
  refine ⟨?_, ?_⟩
  · intro h node reason pins r s hreach hn hr hm hl hne hout
    have hrestart := (selfLost_sameBut (receivedIntact (takePins pins s)) .leaving (by decide)).2
    have hu := selfRemoved_stays (r := r) (m := selfLost (receivedIntact (takePins pins s))) hne (hrestart.trans hout)
    refine yields_settle (exec_ownExpel hreach hn hr hm hl) hu ?_
    have hg := (nextAttempt_gone (selfLost (receivedIntact (takePins pins s)))).settle
      (nextAttempt_notLive (selfLost (receivedIntact (takePins pins s))))
    generalize ht : settle (nextAttempt none (reportedLost (selfLost (receivedIntact (takePins pins s))))) = t at hg ⊢
    exact ⟨hg.pool, hg.inFlight, hg.segs, hg.queue, hg.own, hg.areas, hg.serve, hg.leaving, hg.watches,
      fun ho e he => ownExpel_queue (s := receivedIntact (takePins pins s)) ht.symm ho he,
      ownExpel_admissions (s := receivedIntact (takePins pins s)) ht.symm,
      ownExpel_goes (s := receivedIntact (takePins pins s)) ht.symm⟩
  · intro h node reason pins r s hreach hn hr hm hl hres hwin
    have hrestart := (selfLost_sameBut (receivedIntact (takePins pins s)) .leaving (by decide)).2
    have hu := selfRemoved_restarts (r := r) (m := selfLost (receivedIntact (takePins pins s))) (hres.imp_right hrestart.trans)
    obtain ⟨hin, hwindow, hdir, hkey, hage⟩ := restartsFrom_selfLost (receivedIntact (takePins pins s))
    have hinputs := congrArg Inputs.pins hin
    have hwindow' : (restartsFrom (selfLost (receivedIntact (takePins pins s)))).tamper.window = s.tamper.window := hwindow
    obtain ⟨hst, hstr, hlive, hleav, hro, hrec, hd, hpool, hlines, hrounds, hwin', hgone⟩ :=
      ownExpel_restarts (w := restartsFrom (selfLost (receivedIntact (takePins pins s))))
        (hwin.imp (hwindow'.trans ·) (congrArg Pins.doorOpen hinputs).trans) rfl
    rw [hinputs] at hst hstr hd
    refine yields_settle (exec_ownExpel hreach hn hr hm hl) hu ?_
    generalize settle (warmStart false (restartsFrom (selfLost (receivedIntact (takePins pins s))))) = t at *
    exact ⟨hst.trans (warmState_of_key hkey), hstr, hlive, hleav, hro, hrec, hd.trans (by rw [hdir]; rfl), hpool,
      hlines, hrounds, hwin', fun ho e he => hgone _ ((ho.2 e he).trans_le hage)⟩

end Sys2Proof.Machine

end

section
/-! SUPPORT. The station states and the membership unit (chapter 2): what every command keeps of them, and the obligations about
them. -/
set_option Elab.async false

namespace Sys2Proof.Machine

/-! ## What every command keeps of the station state (O2, O58) -/

/-- The consistency of station state, straps, catch-up, window and live set, the notice apart: that one the end of a step clears
(log 10). -/
structure Steady (s : State) : Prop where
  straps : s.memb.state ≠ .strapFault → s.straps.valid = true
  pulling : s.memb.state ≠ .catchup →
    s.catchUp.phase = .idle ∧ s.catchUp.pullTimer = false ∧ s.catchUp.verifyTimer = false
  retained : s.memb.state = .retention → s.tamper.window = none ∧ s.cust.record = none
  live : LiveSetWithinStations s

theorem sound_iff (s : State) : Sound s ∧ LiveSetWithinStations s ↔ Steady s ∧ s.lines.notice = false := by
  constructor
  · rintro ⟨⟨h1, h2, h3, h4⟩, h5⟩
    exact ⟨⟨h1, h2, h4, h5⟩, h3⟩
  · rintro ⟨⟨h1, h2, h4, h5⟩, h3⟩
    exact ⟨⟨h1, h2, h3, h4⟩, h5⟩

/-- A change that leaves the waiting commands and keeps the station consistent. -/
structure StationKeeps (s t : State) : Prop where
  pending : t.pending = s.pending
  steady : Steady s → Steady t

theorem StationKeeps.refl (s : State) : StationKeeps s s := ⟨rfl, id⟩

theorem StationKeeps.trans {s t u : State} (a : StationKeeps s t) (b : StationKeeps t u) : StationKeeps s u :=
  ⟨b.pending.trans a.pending, b.steady ∘ a.steady⟩

theorem StationKeeps.ite {s t u : State} {q : Prop} [Decidable q] (a : q → StationKeeps s t) (b : ¬q → StationKeeps s u) :
    StationKeeps s (if q then t else u) := by
  split
  · exact a ‹_›
  · exact b ‹_›

/-! ### Live sets below the strapped number of stations (R27) -/

theorem liveWithin_empty {s : State} (h : s.memb.live = 0#8) : LiveSetWithinStations s := by
  intro k hk
  rw [h] at hk
  simp [setHas] at hk

theorem liveWithin_of_eq {s t : State} (hl : t.memb.live = s.memb.live) (hs : t.straps = s.straps)
    (h : LiveSetWithinStations s) : LiveSetWithinStations t := by
  intro k hk
  rw [hl] at hk
  have := h k hk
  unfold stationCount at this ⊢
  rwa [hs]

theorem liveWithin_add {s t : State} {k : StationId} (hl : t.memb.live = setAdd s.memb.live k.val) (hs : t.straps = s.straps)
    (hk : k.val < stationCount s) (h : LiveSetWithinStations s) : LiveSetWithinStations t := by
  intro j hj
  rw [hl, setHas_setAdd _ _ _ k.isLt] at hj
  show j < t.straps.stations
  rw [hs]
  rcases Bool.or_eq_true_iff.mp hj with hj | hj
  · exact h j hj
  · rw [eq_of_beq hj]; exact hk

theorem liveWithin_del {s t : State} {k : StationId} (hl : t.memb.live = setDel s.memb.live k.val) (hs : t.straps = s.straps)
    (h : LiveSetWithinStations s) : LiveSetWithinStations t := by
  intro j hj
  rw [hl, setHas_setDel _ _ _ k.isLt] at hj
  show j < t.straps.stations
  rw [hs]
  exact h j (Bool.and_eq_true_iff.mp hj).1

theorem setHas_setOfMap {n : Nat} {m : NodeMap} {j : Nat} (h : setHas (setOfMap n m) j = true) : j < n := by
  unfold setHas setOfMap at h
  rw [BitVec.getLsbD_and, BitVec.getLsbD_ofNat, Nat.testBit_two_pow_sub_one] at h
  simp at h
  exact h.2.2

theorem liveWithin_setOfMap {s t : State} {m : NodeMap} (hl : t.memb.live = setOfMap (stationCount s) m)
    (hs : t.straps = s.straps) : LiveSetWithinStations t := by
  intro j hj
  rw [hl] at hj
  show j < t.straps.stations
  rw [hs]
  exact setHas_setOfMap hj

theorem stationOf_lt {s : State} {src : Node} {k : StationId} (h : stationOf? s src = some k) : k.val < stationCount s := by
  unfold stationOf? at h
  split at h
  · cases h
    exact (Nat.mod_le _ _).trans_lt ‹_›
  · cases h

/-! ### Frames -/

/-- A frame that spares straps and station state keeps the station consistent: the pulling side changes in CATCHUP alone, window and
record outside RETENTION, the live set within the stations. -/
theorem SameBut.stationKeeps {c : List Part} {s t : State} (h : SameBut c s t)
    (spared : ∀ p ∈ [Part.pending, .straps, .station], p ∉ c := by decide)
    (pulling : Part.pulling ∈ c → s.memb.state = .catchup := by exact fun h => absurd h (by decide))
    (retained : Part.maintenance ∈ c ∨ Part.record ∈ c → s.memb.state ≠ .retention := by
      exact fun h => absurd h (by decide))
    (live : Part.live ∈ c → LiveSetWithinStations s → LiveSetWithinStations t := by exact fun h => absurd h (by decide)) :
    StationKeeps s t := by
  have hst : t.memb.state = s.memb.state := (h .station (spared _ (by decide))).1
  have hstr : t.straps = s.straps := h .straps (spared _ (by decide))
  refine ⟨h .pending (spared _ (by decide)), fun hs => ⟨?_, ?_, ?_, ?_⟩⟩
  · rw [hst, hstr]
    exact hs.straps
  · rw [hst]
    intro hn
    have hp : Part.pulling.same s t := h .pulling fun m => hn (pulling m)
    simp only [Part.same, CatchUp.mk.injEq] at hp
    obtain ⟨hphase, -, -, -, hpull, hverify, -⟩ := hp
    rw [hphase, hpull, hverify]
    exact hs.pulling hn
  · rw [hst]
    intro hr
    have hw : t.tamper.window = s.tamper.window := h .maintenance fun m => retained (.inl m) hr
    have hrec : t.cust.record = s.cust.record := h .record fun m => retained (.inr m) hr
    rw [hw, hrec]
    exact hs.retained hr
  · by_cases m : Part.live ∈ c
    · exact live m hs.live
    · exact liveWithin_of_eq (h .live m) hstr hs.live

/-- A change elsewhere than in the fields that `Steady` speaks of. -/
theorem stationKeeps_of_eq {s t : State} (pending : t.pending = s.pending := by rfl) (straps : t.straps = s.straps := by rfl)
    (state : t.memb.state = s.memb.state := by rfl) (live : t.memb.live = s.memb.live := by rfl)
    (catchUp : t.catchUp = s.catchUp := by rfl) (window : t.tamper.window = s.tamper.window := by rfl)
    (record : t.cust.record = s.cust.record := by rfl) : StationKeeps s t := by
  refine ⟨pending, fun hs => ⟨?_, ?_, ?_, liveWithin_of_eq live straps hs.live⟩⟩
  · rw [state, straps]
    exact hs.straps
  · rw [state, catchUp]
    exact hs.pulling
  · rw [state, window, record]
    exact hs.retained

/-- A station that holds no member, pulls nothing and is not in RETENTION with something kept. -/
theorem Steady.of_rest {t : State} (straps : t.memb.state ≠ .strapFault → t.straps.valid = true)
    (pulling : t.catchUp.phase = .idle ∧ t.catchUp.pullTimer = false ∧ t.catchUp.verifyTimer = false)
    (retained : t.memb.state = .retention → t.tamper.window = none ∧ t.cust.record = none)
    (live : t.memb.live = 0#8) : Steady t :=
  ⟨straps, fun _ => pulling, retained, liveWithin_empty live⟩

theorem settle_stationKeeps (s : State) : StationKeeps s (settle s) := (settle_sameBut s).stationKeeps

/-! ### Entries to station states -/

theorem enterListening_stationKeeps {s : State} (h : s.memb.state ≠ .strapFault) : StationKeeps s (enterListening s) :=
  ⟨rfl, fun hs => .of_rest (fun _ => hs.straps h) ⟨rfl, rfl, rfl⟩ (fun h => nomatch h) rfl⟩

theorem enterDetached_stationKeeps {s : State} (c : DetachedCause) (h : s.memb.state ≠ .strapFault) :
    StationKeeps s (enterDetached c s) :=
  ⟨rfl, fun hs => .of_rest (fun _ => hs.straps h) ⟨rfl, rfl, rfl⟩ (fun h => nomatch h) rfl⟩

theorem zeroise_stationKeeps {s : State} (c : CauseRecord) (own : Option ZeroCause) (h : s.memb.state ≠ .strapFault) :
    StationKeeps s (zeroise c own s) := by
  obtain ⟨hstr, -, -, hp⟩ := zeroise_keeps c own s
  exact ⟨hp, fun hs => .of_rest (fun _ => by rw [hstr]; exact hs.straps h) ⟨rfl, rfl, rfl⟩ (fun h => nomatch h) rfl⟩

/-- A TAMPER in RETENTION erases what is retained and stays there (R180). -/
theorem declareTamper_stationKeeps (ch : Channel) (s : State) : StationKeeps s (declareTamper ch s) := by
  have hz : s.memb.state ≠ .strapFault → StationKeeps s (zeroise (.channel ch) (some (.channel ch)) s) :=
    zeroise_stationKeeps _ _
  unfold declareTamper
  split
  case h_6 h =>
    refine ⟨rfl, fun hs => ⟨hs.straps, fun _ => ⟨rfl, rfl, rfl⟩, fun _ => ⟨shutWindow_window _, rfl⟩, hs.live⟩⟩
  case h_7 => exact .refl s
  case h_8 => exact .refl s
  all_goals (rename_i h; exact hz (by rw [h]; decide))

/-- Another record of the tamper monitor with the same window. -/
theorem tamper_stationKeeps {s : State} {tm : Tamper} (h : s.memb.state = .retention → s.tamper.window = none → tm.window = none) :
    StationKeeps s { s with tamper := tm } :=
  ⟨rfl, fun hs => ⟨hs.straps, hs.pulling, fun hr => ⟨h hr (hs.retained hr).1, (hs.retained hr).2⟩, hs.live⟩⟩

theorem sample_stationKeeps (s : State) (ch : Channel) (r : ChannelRecord × Bool) :
    StationKeeps s (if r.2 then declareTamper ch { s with tamper := setChannel s.tamper ch r.1 }
      else { s with tamper := setChannel s.tamper ch r.1 }) := by
  have h : StationKeeps s { s with tamper := setChannel s.tamper ch r.1 } := tamper_stationKeeps fun _ h => h
  exact .ite (fun _ => h.trans (declareTamper_stationKeeps _ _)) (fun _ => h)

/-- A window that closes leaves what its shutting leaves, whatever the reading finds (R179). -/
theorem closeWindow_after {s : State} {P : State → Prop} (h : P { s with tamper := shutWindow s.tamper })
    (sampled : ∀ {u : State} (r : ChannelRecord × Bool), P u → P (if r.2 then declareTamper .D { u with tamper := setChannel u.tamper .D r.1 }
      else { u with tamper := setChannel u.tamper .D r.1 })) : P (closeWindow s) := by
  unfold closeWindow
  split
  · rename_i hw
    unfold shutWindow at h
    rw [hw] at h
    exact h
  · exact sampled _ h

theorem closeWindow_stationKeeps (s : State) : StationKeeps s (closeWindow s) :=
  closeWindow_after (tamper_stationKeeps fun _ _ => shutWindow_window _) fun r h => h.trans (sample_stationKeeps _ .D r)

theorem startPresence_stationKeeps (s : State) : StationKeeps s (startPresence s) := by
  unfold startPresence
  split
  · exact stationKeeps_of_eq
  · exact stationKeeps_of_eq

theorem coldStart_stationKeeps (s : State) : StationKeeps s (coldStart s) := by
  obtain ⟨-, -, -, -, -, -, -, hp⟩ := clearVolatile_keeps s
  unfold coldStart
  refine StationKeeps.trans ?_ (startPresence_stationKeeps _)
  refine ⟨hp, fun _ => .of_rest ?_ ⟨rfl, rfl, rfl⟩ (fun _ => ⟨rfl, rfl⟩) rfl⟩
  dsimp only
  split
  · exact fun _ => ‹_›
  · exact fun h => absurd rfl h

theorem warmState_ne_retention (straps : Straps) (d : Directory) : warmState straps d ≠ .retention := by
  unfold warmState
  cases straps.valid <;> cases d.key <;> simp

theorem warmValues_stationKeeps (y : Bool) (s : State) : StationKeeps s (warmValues y s) := by
  obtain ⟨-, -, -, -, -, -, -, hp⟩ := clearVolatile_keeps s
  unfold warmValues
  refine StationKeeps.trans ?_ (startPresence_stationKeeps _)
  refine ⟨hp, fun _ => .of_rest ?_ ⟨rfl, rfl, rfl⟩ (fun h => absurd h (warmState_ne_retention _ _)) rfl⟩
  intro h
  by_contra hv
  exact h ((warmState_strapFault_iff _ _).mpr (by simpa using hv))

theorem reportDirectOrder_stationKeeps (s : State) : StationKeeps s (reportDirectOrder s) := by
  unfold reportDirectOrder
  split
  · exact .refl s
  · have h : StationKeeps s { s with cust := { s.cust with record := none } } :=
      ⟨rfl, fun hs => ⟨hs.straps, hs.pulling, fun hr => ⟨(hs.retained hr).1, rfl⟩, hs.live⟩⟩
    dsimp only
    split
    · exact h.trans (request_sameBut _ _).stationKeeps
    · exact h.trans (request_sameBut _ _).stationKeeps
    · exact h

theorem warmStart_stationKeeps (y : Bool) (s : State) : StationKeeps s (warmStart y s) :=
  ((warmValues_stationKeeps y s).trans (closeWindow_stationKeeps _)).trans (reportDirectOrder_stationKeeps _)

/-- Entry to RETENTION: the window closes after the entry, whatever its reading finds (R179, R184). -/
theorem enterRetention_stationKeeps {s : State} (h : s.memb.state ≠ .strapFault) : StationKeeps s (enterRetention s) := by
  obtain ⟨hstr, -, -, -, -, -, -, hp⟩ := clearVolatile_keeps s
  unfold enterRetention
  refine closeWindow_after ⟨hp, fun hs => ?_⟩ fun r h => h.trans (sample_stationKeeps _ .D r)
  exact .of_rest (fun _ => by dsimp only; rw [hstr]; exact hs.straps h) ⟨rfl, rfl, rfl⟩ (fun _ => ⟨shutWindow_window _, rfl⟩) rfl

theorem clearToBlank_stationKeeps {s : State} (h : s.memb.state = .zeroised) : StationKeeps s (clearToBlank s) :=
  ⟨rfl, fun hs => .of_rest (fun _ => hs.straps (by rw [h]; decide)) (hs.pulling (by rw [h]; decide)) (fun h => nomatch h) rfl⟩

theorem returnZeroised_stationKeeps {s : State} (h : s.memb.state = .retention) : StationKeeps s (returnZeroised s) := by
  unfold returnZeroised
  dsimp only
  have h0 : StationKeeps s { s with
      inputs := { s.inputs with powerFail := false }
      memb := { s.memb with state := .zeroised, retainedZeroised := false } } :=
    ⟨rfl, fun hs => ⟨fun _ => hs.straps (by rw [h]; decide), fun _ => hs.pulling (by rw [h]; decide), (fun h => nomatch h), hs.live⟩⟩
  have h1 := h0.trans (startPresence_stationKeeps _)
  generalize startPresence _ = u at h1
  refine .ite (fun _ => h1.trans ?_) (fun _ => h1)
  split
  · exact stationKeeps_of_eq
  · exact tamper_stationKeeps fun _ h => h

end Sys2Proof.Machine

namespace Sys2Proof.Machine

/-! ### Catch-up -/

theorem startAttempt_stationKeeps (k : StationId) {s : State} (h : s.memb.state = .catchup) :
    StationKeeps s (startAttempt k s) := (startAttempt_sameBut k s).stationKeeps (pulling := fun _ => h)

theorem nextAttempt_stationKeeps (f : Option StationId) {s : State} (h : s.memb.state = .catchup) :
    StationKeeps s (nextAttempt f s) := by
  unfold nextAttempt
  split
  · exact enterListening_stationKeeps (by rw [h]; decide)
  · exact startAttempt_stationKeeps _ h

theorem aheadCheck_stationKeeps (k : StationId) (q : Word) {s : State} (h : s.memb.state = .catchup) :
    StationKeeps s (aheadCheck k q s) :=
  .ite (fun _ => enterDetached_stationKeeps _ (by rw [h]; decide)) (fun _ => startAttempt_stationKeeps k h)

theorem setCatchUp_stationKeeps {s : State} (c : CatchUp) (h : s.memb.state = .catchup) : StationKeeps s (setCatchUp s c) :=
  (setCatchUp_sameBut s c).stationKeeps (pulling := fun _ => h)

/-- A station turns from LISTENING to its source (R39, R110). -/
theorem toCatchup_stationKeeps {s : State} (h : s.memb.state = .listening) :
    StationKeeps s { s with memb := { s.memb with state := .catchup, windowOpen := false, yieldMark := false } } :=
  ⟨rfl, fun hs => ⟨fun _ => hs.straps (by rw [h]; decide), fun hn => absurd rfl hn, (fun hr => nomatch hr), hs.live⟩⟩

theorem enterCatchup_stationKeeps {s : State} (h : s.memb.state = .listening) : StationKeeps s (enterCatchupFromListening s) := by
  unfold enterCatchupFromListening
  split
  · exact enterListening_stationKeeps (by rw [h]; decide)
  · dsimp only
    have hc := toCatchup_stationKeeps h
    refine .ite (fun _ => hc.trans (startAttempt_stationKeeps _ rfl)) fun _ => ?_
    split
    · exact hc.trans (aheadCheck_stationKeeps _ _ rfl)
    · exact hc.trans (setCatchUp_stationKeeps _ rfl)

theorem failAttempt_stationKeeps {s : State} (h : s.memb.state = .catchup) : StationKeeps s (failAttempt s) := by
  have hr : StationKeeps s (setRounds (markPullsStale (retract isPull s)) (closeUp (markPullsStale (retract isPull s)).rounds.list)) :=
    ((retract_sameBut isPull s).stationKeeps.trans (markPullsStale_sameBut _).stationKeeps).trans
      (setRounds_sameBut _ _).stationKeeps
  have hst : (failureCounted s).memb.state = .catchup := by rw [(failureCounted_keeps s).1, h]
  have hc : StationKeeps s (failureCounted s) := hr.trans (setCatchUp_stationKeeps _ hst)
  rw [failAttempt_eq]
  exact .ite (fun _ => hc.trans (enterDetached_stationKeeps _ (by rw [hst]; decide))) fun _ =>
    .ite (fun _ => hc.trans (enterListening_stationKeeps (by rw [hst]; decide)))
      (fun _ => hc.trans (nextAttempt_stationKeeps _ hst))

theorem failJoining_stationKeeps (c : FailCause) {s : State} (h : s.memb.state = .catchup) :
    StationKeeps s (failJoining c s) := by
  have hr : StationKeeps s (retract isJoin s) := (retract_sameBut isJoin s).stationKeeps
  have hst : (retract isJoin s).memb.state = .catchup := by rw [((retract_sameBut isJoin s) .station (by decide)).1, h]
  unfold failJoining
  exact .ite (fun _ => hr.trans (setCatchUp_stationKeeps _ hst)) (fun _ => hr.trans (failAttempt_stationKeeps hst))

/-- Outside CATCHUP the pulling side is IDLE, so a cause of failure is found in CATCHUP alone. -/
theorem Steady.catchup_of_phase {s : State} (hs : Steady s) (h : s.catchUp.phase ≠ .idle) : s.memb.state = .catchup := by
  by_contra hn
  exact h (hs.pulling hn).1

theorem findFailure_stationKeeps (c : FailCause) (s : State) : StationKeeps s (findFailure c s) := by
  refine ⟨(findFailure_sameBut c s) .pending (by decide), fun hs => ?_⟩
  have hc := hs.catchup_of_phase
  unfold findFailure
  split <;> rename_i hp
  · exact hs
  · exact (failJoining_stationKeeps c (hc (by rw [hp]; decide))).steady hs
  · exact (failAttempt_stationKeeps (hc (by rw [hp]; decide))).steady hs
  · exact (failAttempt_stationKeeps (hc (by rw [hp]; decide))).steady hs
  · exact (failAttempt_stationKeeps (hc (by rw [hp]; decide))).steady hs

theorem pullSent_stationKeeps (stale : Bool) (s : State) : StationKeeps s (pullSent stale s) := by
  refine ⟨(pullSent_sameBut stale s) .pending (by decide), fun hs => ?_⟩
  unfold pullSent
  split
  · exact hs
  · rename_i h
    have hp : s.catchUp.phase = .pulling := by
      by_contra hn
      exact h (by simp [hn])
    exact (setCatchUp_stationKeeps _ (hs.catchup_of_phase (by rw [hp]; decide))).steady hs

theorem overwriteItem_stationKeeps (x : ImageItem) (s : State) : StationKeeps s (overwriteItem x s) := by
  refine (overwriteItem_sameBut x s).stationKeeps (live := fun _ hl => ?_)
  cases x with
  | members map check => exact liveWithin_setOfMap rfl rfl
  | round k r =>
    have h := ((setRounds_sameBut s (placeRound k r s.rounds.list)).trans (settlePlaces_sameBut _)).comp
      (openRoundNotice_sameBut s _) (e := [.roundList, .notice]) (by decide) (by decide)
    exact liveWithin_of_eq (h .live (by decide)) (h .straps (by decide)) hl
  | slot i x u => exact liveWithin_of_eq (s := s) rfl rfl hl
  | line l e => exact liveWithin_of_eq ((imageLine_sameBut s l e) .live (by decide)) ((imageLine_sameBut s l e) .straps (by decide)) hl

theorem takesImages_catchup {s : State} {src : Node} (h : takesImages s src = true) : s.memb.state = .catchup := by
  unfold takesImages inCatchup at h
  simp only [Bool.and_eq_true, beq_iff_eq] at h
  exact h.1.1

theorem onImage_stationKeeps (h : Header) (a i : Byte) (q : Word) (bs : List Byte) (s : State) :
    StationKeeps s (onImage h a i q bs s) := by
  unfold onImage
  split
  · exact .refl s
  · rename_i x _
    refine .ite (fun ht => ?_) (fun _ => .refl s)
    have hst := takesImages_catchup ht
    have h1 : StationKeeps s (tookItem a i { s with dir := { s.dir with seq := q } }) :=
      (seq_sameBut s q).stationKeeps.trans ((tookItem_sameBut a i _).stationKeeps (pulling := fun _ => hst))
    have h2 := h1.trans (overwriteItem_stationKeeps x _)
    have hst' : (overwriteItem x (tookItem a i { s with dir := { s.dir with seq := q } })).memb.state = .catchup := by
      rw [((overwriteItem_sameBut x _) .station (by decide)).1, ((tookItem_sameBut a i _) .station (by decide)).1]
      exact hst
    refine .ite (fun _ => h2.trans (findFailure_stationKeeps _ _)) fun _ => .ite (fun _ => ?_) (fun _ => h2)
    exact h2.trans ((burstDone_sameBut _).stationKeeps (pulling := fun _ => hst'))

theorem sourceHeard_stationKeeps (b : PresenceBody) (k : StationId) {s : State} (h : s.memb.state = .catchup) :
    StationKeeps s (sourceHeard b k s) := by
  have hf : ∀ c, StationKeeps s (findFailure c s) := fun c => findFailure_stationKeeps c s
  unfold sourceHeard
  dsimp only
  split
  · exact .refl s
  · exact .ite (fun _ => (setCatchUp_stationKeeps _ h).trans (aheadCheck_stationKeeps k b.seq h)) (fun _ => hf _)
  · exact .ite (fun _ => .refl s) (fun _ => hf _)
  · exact .ite (fun _ => (beginJoining_sameBut s).stationKeeps (pulling := fun _ => h))
      fun _ => .ite (fun _ => hf _) (fun _ => hf _)
  · exact .ite (fun _ => .refl s) (fun _ => hf _)

theorem catchUpPresence_stationKeeps (k : StationId) (b : PresenceBody) (s : State) :
    StationKeeps s (catchUpPresence k b s) :=
  .ite (fun h => sourceHeard_stationKeeps b k (eq_of_beq h.1)) (fun _ => .refl s)

/-! ### Membership -/

/-- The values at the entry to LIVE: the pulling side IDLE, a watch started for each other live station (R29, R40, R109). -/
def wentLive (s : State) : State :=
  { s with
    memb := { s.memb with
      state := .live, cause := none, windowOpen := false, watches := startedWatches (self s) s.memb.live }
    catchUp := { idleCatchUp s.catchUp with failures := 0 } }

/-- A station in LIVE whose active commander stands does its duty (R35). -/
def liveDuty (s : State) : State := giveNotice (if duty s then dutyGained s else silentUpkeep s)

theorem enterLive_eq (s : State) :
    enterLive s = if s.catchUp.joinFailure = some .receiveError
      then selfExpel .receiveError (liveDuty (wentLive s)) else liveDuty (wentLive s) := rfl

theorem liveDuty_stationKeeps (s : State) : StationKeeps s (liveDuty s) :=
  (StationKeeps.ite (fun _ => (dutyGained_sameBut s).stationKeeps) (fun _ => (silentUpkeep_sameBut s).stationKeeps)).trans
    (giveNotice_sameBut _).stationKeeps

theorem enterLive_stationKeeps {s : State} (h : s.memb.state ≠ .strapFault) : StationKeeps s (enterLive s) := by
  have h0 : StationKeeps s (wentLive s) :=
    ⟨rfl, fun hs => ⟨fun _ => hs.straps h, fun _ => ⟨rfl, rfl, rfl⟩, (fun h => nomatch h), hs.live⟩⟩
  have h1 := h0.trans (liveDuty_stationKeeps _)
  rw [enterLive_eq]
  exact .ite (fun _ => h1.trans (selfExpel_sameBut _ _).stationKeeps) (fun _ => h1)

theorem founderCheck_stationKeeps (s : State) : StationKeeps s (founderCheck s) := by
  have hr := retract_sameBut isFoundingJoin s
  unfold founderCheck
  refine .ite (fun h => .ite (fun _ => hr.stationKeeps) fun _ => hr.stationKeeps.trans (enterCatchup_stationKeeps ?_))
    (fun _ => .refl s)
  rw [(hr .station (by decide)).1]
  exact h.1

theorem listeningExpired_stationKeeps (s : State) : StationKeeps s (listeningExpired s) := by
  unfold listeningExpired
  exact .ite (fun h => .ite (fun _ => enterCatchup_stationKeeps h.1) fun _ =>
    .ite (fun _ => (windowShut_sameBut s).stationKeeps.trans (request_sameBut _ _).stationKeeps)
      (fun _ => (heard_sameBut s _).stationKeeps)) (fun _ => .refl s)

theorem listeningPresence_stationKeeps (k : StationId) (st : StationState) (b : PresenceBody) (s : State) :
    StationKeeps s (listeningPresence k st b s) := by
  unfold listeningPresence
  dsimp only
  have h1 : StationKeeps s (if (s.memb.windowOpen && k != self s) = true then
      { s with memb := { s.memb with heard := tset s.memb.heard k (some ⟨st, b.seq, b.yield, b.check⟩) } } else s) :=
    .ite (fun _ => (heard_sameBut s _).stationKeeps) (fun _ => .refl s)
  generalize (if (s.memb.windowOpen && k != self s) = true then
      { s with memb := { s.memb with heard := tset s.memb.heard k (some ⟨st, b.seq, b.yield, b.check⟩) } } else s) = u at h1
  refine .ite (fun _ => h1.trans (StationKeeps.trans ?_ (founderCheck_stationKeeps _))) (fun _ => h1)
  exact (liveSet_sameBut u _).stationKeeps (live := fun _ _ => liveWithin_setOfMap rfl rfl)

theorem onPresence_stationKeeps (h : Header) (b : PresenceBody) (s : State) : StationKeeps s (onPresence h b s) := by
  unfold onPresence
  split
  · rename_i k st _ _
    dsimp only
    refine .ite (fun _ => ?_) (fun _ => .refl s)
    have hr := (recordPresence_sameBut k st b s).stationKeeps
    split
    · exact hr.trans (livePresence_sameBut _ _ _ _).stationKeeps
    · exact hr.trans (listeningPresence_stationKeeps _ _ _ _)
    · exact hr.trans (catchUpPresence_stationKeeps _ _ _)
    · exact hr
  · exact .refl s

theorem joinTaken_stationKeeps (k : StationId) (d : Bool) {s : State} (h : s.memb.state ≠ .strapFault) :
    StationKeeps s (joinTaken k d s) := by
  unfold joinTaken
  refine .ite (fun _ => enterLive_stationKeeps h) fun _ => ?_
  split
  · exact (setSilence_sameBut s k _).stationKeeps.trans (liveSetChanged_sameBut d _).stationKeeps
  · exact founderCheck_stationKeeps s
  · exact .refl s

theorem actsOnJoin_ne_strapFault {st : StationState} (h : ¬(!actsOnJoin st) = true) : st ≠ .strapFault := by
  rintro rfl
  exact h rfl

/-- A taken JOIN adds a station of the cabinet (R29, R40). -/
theorem joined_stationKeeps {s : State} {k : StationId} (live : StationSet) (b : JoinBody) (hk : k.val < stationCount s)
    (hl : live = s.memb.live ∨ live = 0#8) :
    StationKeeps s (recordJoin s k b { s with memb := { s.memb with live := setAdd live k.val } }) := by
  refine StationKeeps.trans ((liveSet_sameBut s _).stationKeeps (live := fun _ h => ?_)) (recordJoin_sameBut _ _ _ _).stationKeeps
  have h0 : LiveSetWithinStations { s with memb := { s.memb with live := live } } := by
    rcases hl with rfl | rfl
    · exact h
    · exact liveWithin_empty rfl
  exact liveWithin_add (s := { s with memb := { s.memb with live := live } }) rfl rfl hk h0

theorem onJoin_stationKeeps (h : Header) (b : JoinBody) (s : State) : StationKeeps s (onJoin h b s) := by
  unfold onJoin
  split
  · exact .refl s
  · rename_i k hk
    refine .ite (fun _ => .refl s) fun ha => .ite (fun _ => ?_) fun _ => ?_
    · exact (joined_stationKeeps s.memb.live b (stationOf_lt hk) (.inl rfl)).trans
        (joinTaken_stationKeeps k _ (actsOnJoin_ne_strapFault ha))
    · exact .ite (fun hc => failAttempt_stationKeeps (eq_of_beq hc.2.1)) (fun _ => .refl s)

theorem onJoinFounding_stationKeeps (h : Header) (b : JoinBody) (s : State) : StationKeeps s (onJoinFounding h b s) := by
  unfold onJoinFounding
  split
  · exact .refl s
  · rename_i k hk
    refine .ite (fun _ => .refl s) fun ha => .ite (fun _ => ?_) fun _ => ?_
    · exact (joined_stationKeeps 0#8 b (stationOf_lt hk) (.inr rfl)).trans
        (joinTaken_stationKeeps k _ (actsOnJoin_ne_strapFault ha))
    · exact .ite (fun hf => enterCatchup_stationKeeps hf.2) (fun _ => .refl s)

theorem removeMember_stationKeeps (k : StationId) (s : State) : StationKeeps s (removeMember k s) := by
  have h := removeMember_sameBut k s
  obtain ⟨-, -, -, hl⟩ := removeMember_lost k s
  exact h.stationKeeps (live := fun _ => liveWithin_del hl (h .straps (by decide)))

/-- The own removal: a warm start, or the next attempt in CATCHUP (R31, R110). -/
theorem selfRemoved_stationKeeps (r : ExpelReason) {s : State} (h : s.memb.state = .live) :
    StationKeeps s (selfRemoved r s) := by
  by_cases hr : r = .restart ∨ s.memb.restartOutstanding = true
  · rw [selfRemoved_restarts hr]
    exact (restartsFrom_sameBut s).stationKeeps.trans (warmStart_stationKeeps _ _)
  · obtain ⟨hne, hout⟩ := not_or.mp hr
    rw [selfRemoved_stays hne (by simpa using hout)]
    have hsame := outOfLive_sameBut s
    have ho : StationKeeps s (outOfLive s) := by
      have hk := (removedSelf_sameBut s).stationKeeps
      have hst := ((removedSelf_sameBut s) .station (by decide)).1
      refine ⟨hk.pending, fun hs => ?_⟩
      have hs' := hk.steady hs
      exact ⟨fun _ => hs'.straps (by rw [hst, h]; decide), fun hn => absurd rfl hn, (fun hr => nomatch hr), hs'.live⟩
    refine (ho.trans (reportedLost_sameBut s).stationKeeps).trans (nextAttempt_stationKeeps _ (reportedLost_state s))

theorem expelMember_stationKeeps (k : StationId) (r : ExpelReason) (s : State) : StationKeeps s (expelMember k r s) := by
  have hrem := removeMember_stationKeeps k s
  unfold expelMember
  split
  · exact (liveSet_sameBut s _).stationKeeps (live := fun _ => liveWithin_del rfl rfl)
  · exact .ite (fun _ => hrem.trans (findFailure_stationKeeps _ _)) (fun _ => hrem)
  · rename_i hl
    refine .ite (fun _ => hrem.trans (selfRemoved_stationKeeps r ?_)) (fun _ => hrem.trans (liveSetChanged_sameBut _ _).stationKeeps)
    rw [((removeMember_sameBut k s) .station (by decide)).1, hl]
  · exact .refl s

theorem onExpel_stationKeeps (node reason : Byte) (s : State) : StationKeeps s (onExpel node reason s) := by
  unfold onExpel
  split
  · exact .ite (fun _ => expelMember_stationKeeps _ _ s) (fun _ => .refl s)
  · exact .refl s

/-! ### Rounds and custody -/

theorem onLink_iff (s : State) : onLink s = true ↔ s.memb.state ≠ .strapFault ∧ s.memb.state ≠ .retention := by
  unfold onLink
  simp

theorem onZero_stationKeeps (h : Header) (cause : Byte) {s : State} (ho : onLink s = true) : StationKeeps s (onZero h cause s) := by
  unfold onZero
  split
  · exact .refl s
  · exact .ite (fun _ => zeroise_stationKeeps _ _ ((onLink_iff s).mp ho).1) (fun _ => .refl s)

theorem applyRound_sameBut (r : Round) (s : State) :
    SameBut [.slots, .usage, .seq, .cabinetKey, .channels, .maintenance, .causeRecord, .retentionTrip, .storeValid, .roundList, .notice]
      s (applyRound r s) :=
  ((directory_sameBut s (applyToDirectory r s.dir)).comp (tamper_sameBut _ (applyWindowOpen r s.tamper))
    (e := [.slots, .usage, .seq, .cabinetKey, .channels, .maintenance, .causeRecord, .retentionTrip, .storeValid])
    (by decide) (by decide)).comp (dropRound_sameBut _ _ _) (by decide) (by decide)

theorem applyWindowClose_stationKeeps (r : Round) (s : State) : StationKeeps s (applyWindowClose r s) :=
  .ite (fun _ => closeWindow_stationKeeps s) (fun _ => .refl s)

theorem onCommit_stationKeeps (h : Header) (n : Byte) (q : Word) (v : Half) {s : State} (ho : onLink s = true) :
    StationKeeps s (onCommit h n q v s) := by
  have happly : ∀ r, StationKeeps s (applyRound r s) := fun r =>
    (applyRound_sameBut r s).stationKeeps (retained := fun _ => ((onLink_iff s).mp ho).2)
  have hdrop : ∀ p k, StationKeeps s (dropRound p k s) := fun p k => (dropRound_sameBut p k s).stationKeeps
  unfold onCommit
  refine .ite (fun _ => ?_) fun _ => ?_
  · split
    · unfold commitRefused
      refine StationKeeps.trans ?_ (selfExpel_sameBut _ _).stationKeeps
      exact (hdrop _ _).trans (.ite (fun _ => (endPlain_sameBut _ _ _).stationKeeps) (fun _ => .refl _))
    · unfold commitApplied
      refine StationKeeps.trans ?_ (applyWindowClose_stationKeeps _ _)
      refine StationKeeps.trans ?_ (.ite (fun _ => (selfExpel_sameBut _ _).stationKeeps) (fun _ => .refl _))
      exact (happly _).trans (.ite (fun _ => (endItem_sameBut _ _ _ _ _).stationKeeps) (fun _ => .refl _))
    · exact .refl s
  · unfold commitCatchup
    split
    · exact .refl s
    · exact .ite (fun _ => hdrop _ _) (fun _ => (happly _).trans (applyWindowClose_stationKeeps _ _))

theorem recordOrder_stationKeeps (h : Header) (k : Byte) (b : OrderBody) {s : State} (hr : s.memb.state ≠ .retention) :
    StationKeeps s (recordOrder h k b s) :=
  ⟨rfl, fun hs => ⟨hs.straps, hs.pulling, fun h => absurd h hr, hs.live⟩⟩

theorem acceptRestart_stationKeeps (h : Header) (b : OrderBody) {s : State} (hr : s.memb.state ≠ .retention) :
    StationKeeps s (acceptRestart h b s) := by
  have hrec := recordOrder_stationKeeps h codeRestart b hr
  refine .ite (fun _ => (refuseOrder_sameBut _ _ _ _ _ s).stationKeeps) fun _ => .ite (fun _ => ?_)
    (fun _ => hrec.trans (warmStart_stationKeeps _ _))
  refine hrec.trans (StationKeeps.trans ?_ (selfExpel_sameBut _ _).stationKeeps)
  exact stationKeeps_of_eq

theorem acceptYield_stationKeeps (h : Header) (b : OrderBody) {s : State} (hr : s.memb.state ≠ .retention) :
    StationKeeps s (acceptYield h b s) := by
  refine .ite (fun _ => (refuseOrder_sameBut _ _ _ _ _ s).stationKeeps) fun _ => ?_
  refine (recordOrder_stationKeeps h codeYield b hr).trans (StationKeeps.trans ?_ (warmStart_stationKeeps _ _))
  exact stationKeeps_of_eq

theorem orderArrives_stationKeeps (k : Byte) {accept : State → State} (h : Header) (b : OrderBody) {s : State}
    (ha : StationKeeps s (accept s)) : StationKeeps s (orderArrives k accept h b s) := by
  have hr : ∀ o d, StationKeeps s (refuseOrder h k b o d s) := fun o d => (refuseOrder_sameBut h k b o d s).stationKeeps
  exact .ite (fun _ => .refl s) fun _ => .ite (fun _ => hr _ _) fun _ => .ite (fun _ => hr _ _) fun _ =>
    .ite (fun _ => hr _ _) (fun _ => ha)

theorem acceptRoundOrder_stationKeeps (k : ChangeKind) (h : Header) (b : OrderBody) (s : State) :
    StationKeeps s (acceptRoundOrder k h b s) := (acceptRoundOrder_sameBut k h b s).stationKeeps

theorem onOrder_stationKeeps (h : Header) (k : Byte) (b : OrderBody) {s : State} (ho : onLink s = true) :
    StationKeeps s (onOrder h k b s) := by
  obtain ⟨hf, hr⟩ := (onLink_iff s).mp ho
  unfold onOrder
  split
  case h_9 => exact orderArrives_stationKeeps _ h b (acceptRestart_stationKeeps h b hr)
  case h_10 => exact orderArrives_stationKeeps _ h b (acceptYield_stationKeeps h b hr)
  case h_11 => exact orderArrives_stationKeeps _ h b (zeroise_stationKeeps _ _ hf)
  case h_12 => exact orderArrives_stationKeeps _ h b (.refl s)
  all_goals exact orderArrives_stationKeeps _ h b (acceptRoundOrder_stationKeeps _ h b s)

/-- The cabinet key installed, a BLANK station enters LISTENING (R57, R106). -/
theorem installCabinetKey_stationKeeps (h : Header) (b : ComponentBody) (x : Area) {s : State} (hb : s.memb.state = .blank) :
    StationKeeps s (installCabinetKey h b x s) := by
  unfold installCabinetKey
  have hd := directory_sameBut s { s.dir with key := some ⟨accumulatorOf x, checkOf (accumulatorOf x)⟩ }
  have hq := hd.comp (request_sameBut (assemblyReport h b .installed none (takenCount x) x.m (checkOf (accumulatorOf x))) _)
    (e := .slots :: .usage :: .seq :: .cabinetKey :: admitting) (by decide) (by decide)
  have ha := hq.comp (areas_sameBut _ (Vector.replicate 2 none))
    (e := .areas :: .slots :: .usage :: .seq :: .cabinetKey :: admitting) (by decide) (by decide)
  refine ha.stationKeeps.trans (enterListening_stationKeeps ?_)
  rw [(ha .station (by decide)).1, hb]
  decide

theorem onComponentCabinet_stationKeeps (h : Header) (b : ComponentBody) (s : State) :
    StationKeeps s (onComponentCabinet h b s) := by
  have hr : ∀ b d, StationKeeps s (refuseComponent h b d s) := fun b d => (refuseComponent_sameBut h b d s).stationKeeps
  have harea : ∀ a x f, StationKeeps s (request f (setArea s a x)) := fun a x f =>
    (setArea_sameBut s a x).stationKeeps.trans (request_sameBut f _).stationKeeps
  unfold onComponentCabinet
  refine .ite (fun hb => ?_) (fun _ => .refl s)
  refine .ite (fun _ => hr _ _) fun _ => .ite (fun _ => hr _ _) fun _ => ?_
  split
  · exact hr _ _
  · exact .ite (fun _ => .ite (fun _ => installCabinetKey_stationKeeps h _ _ hb) (fun _ => harea _ _ _)) (fun _ => harea _ _ _)

theorem onComponentSlot_stationKeeps (h : Header) (b : ComponentBody) (s : State) :
    StationKeeps s (onComponentSlot h b s) := (onComponentSlot_sameBut h b s).stationKeeps

end Sys2Proof.Machine

namespace Sys2Proof.Machine

/-! ### Catch-up timers and the receive filter -/

theorem pullTimedOut_stationKeeps (s : State) : StationKeeps s (pullTimedOut s) :=
  .ite (fun _ => findFailure_stationKeeps _ s) (fun _ => .refl s)

theorem verificationTimedOut_stationKeeps (s : State) : StationKeeps s (verificationTimedOut s) :=
  .ite (fun _ => findFailure_stationKeeps _ s) (fun _ => .refl s)

theorem onComponent_stationKeeps (h : Header) (b : ComponentBody) (s : State) : StationKeeps s (onComponent h b s) :=
  .ite (fun _ => onComponentCabinet_stationKeeps h b s) (fun _ => onComponentSlot_stationKeeps h b s)

theorem onQueryFrame_stationKeeps (h : Header) (tag : Half) (kind : Byte) (arg : List Byte) (s : State) :
    StationKeeps s (onQueryFrame h tag kind arg s) := by
  unfold onQueryFrame
  split
  · exact .refl s
  · exact (onQuery_sameBut _ _ _ s).stationKeeps

theorem deliver_stationKeeps (h : Header) (f : Frame) {s : State} (ho : onLink s = true) : StationKeeps s (deliver h f s) := by
  unfold deliver
  split
  · exact onZero_stationKeeps h _ ho
  · exact onPresence_stationKeeps h _ s
  · exact onJoin_stationKeeps h _ s
  · exact onJoinFounding_stationKeeps h _ s
  · exact onExpel_stationKeeps _ _ s
  · exact (onClaim_sameBut h _ s).stationKeeps
  · exact (onDecline_sameBut _ _ s).stationKeeps
  · exact (onUnclaimed_sameBut _ s).stationKeeps
  · exact (onCancel_sameBut h _ _ s).stationKeeps
  · exact (onPropose_sameBut h _ s).stationKeeps
  · exact (onBody_sameBut h _ _ _ s).stationKeeps
  · exact (onAccept_sameBut h _ _ s).stationKeeps
  · exact (onRefuse_sameBut h _ _ _ s).stationKeeps
  · exact onCommit_stationKeeps h _ _ _ ho
  · exact (onAbandon_sameBut h _ _ s).stationKeeps
  · exact onOrder_stationKeeps h _ _ ho
  · exact onComponent_stationKeeps h _ s
  · exact (onOpen_sameBut h _ s).stationKeeps
  · exact (onClose_sameBut h _ s).stationKeeps
  · exact (onCleared_sameBut h _ s).stationKeeps
  · exact (onJob_sameBut h _ s).stationKeeps
  · exact (onBatch_sameBut h _ s).stationKeeps
  · exact (onCards_sameBut h _ s).stationKeeps
  · exact .refl s
  · exact (onFinal_sameBut h _ s).stationKeeps
  · exact (onPull_sameBut h _ _ s).stationKeeps
  · exact onImage_stationKeeps h _ _ _ _ s
  · exact onQueryFrame_stationKeeps h _ _ _ s
  · exact .refl s

theorem onLink_of_actsOn {s : State} {f : Frame} (h : actsOn s.memb.state f = true) : onLink s = true := by
  rw [onLink_iff]
  constructor <;> (intro hs; rw [hs] at h; exact absurd h (by simp [actsOn]))

/-- The filter hands a frame over on the link alone (R1). -/
theorem filterFrame_stationKeeps (h : Header) (f : Frame) {g : State → State}
    (hg : ∀ u, onLink u = true → StationKeeps u (g u)) (s : State) : StationKeeps s (filterFrame h f g s) := by
  have hi : StationKeeps s (receivedIntact s) := (receivedIntact_sameBut s).stationKeeps
  have hn : StationKeeps s (noteGateway h (receivedIntact s)) := hi.trans (noteGateway_sameBut h _).stationKeeps
  exact .ite (fun _ => .ite (fun _ => hi.trans (countMisplaced_sameBut _).stationKeeps) fun _ =>
      .ite (fun _ => hn) fun _ => .ite (fun _ => hn.trans (countNonMember_sameBut _).stationKeeps) fun _ =>
        .ite (fun ha => hn.trans (hg _ (onLink_of_actsOn ha))) (fun _ => hn))
    (fun _ => (slotUndriven_sameBut s).stationKeeps)

theorem receiveErrorFound_stationKeeps (s : State) : StationKeeps s (receiveErrorFound s) := by
  unfold receiveErrorFound
  split
  · exact (selfExpel_sameBut _ s).stationKeeps
  · exact findFailure_stationKeeps _ s
  · exact .refl s

theorem receiveError_stationKeeps (s : State) : StationKeeps s (receiveError s) :=
  .ite (fun _ => (countReceiveError_sameBut s).stationKeeps.trans (receiveErrorFound_stationKeeps _))
    (fun _ => (slotUndriven_sameBut s).stationKeeps)

theorem receiveRaw_stationKeeps (r : RawFrame) (s : State) : StationKeeps s (receiveRaw r s) := by
  refine .ite (fun _ => receiveError_stationKeeps s) fun _ => ?_
  split
  · exact .ite (fun _ => (receivedIntact_sameBut s).stationKeeps.trans (countMisplaced_sameBut _).stationKeeps)
      (fun _ => (slotUndriven_sameBut s).stationKeeps)
  · exact filterFrame_stationKeeps _ _ (fun _ => deliver_stationKeeps _ _) s

/-! ### The own transmitter -/

theorem setBus_stationKeeps (s : State) (b : Bus) : StationKeeps s (setBus s b) := (setBus_sameBut s b).stationKeeps

theorem contend_stationKeeps (s : State) : StationKeeps s (contend s) := by
  unfold contend
  split
  · refine .ite (fun _ => ?_) (fun _ => .refl s)
    split
    · exact .refl s
    · exact setBus_stationKeeps s _
  · exact .refl s

/-- A fetch shortens the window's remaining time only where a window is open (R178). -/
theorem beforeFetch_stationKeeps (f : TxFrame) (s : State) : StationKeeps s (beforeFetch f s) := by
  unfold beforeFetch
  split
  · split
    · exact .refl s
    · rename_i hw
      exact ⟨rfl, fun hs => ⟨hs.straps, hs.pulling, fun hr => absurd (hs.retained hr).1 (by rw [hw]; simp), hs.live⟩⟩
  · exact .refl s

theorem winArbitration_stationKeeps (c : Candidate) (s : State) : StationKeeps s (winArbitration c s) := by
  unfold winArbitration
  split
  · split
    · exact setBus_stationKeeps s _
    · exact setBus_stationKeeps s _
  · exact setBus_stationKeeps s _
  · split
    · exact setBus_stationKeeps s _
    · exact (((beforeFetch_stationKeeps _ s).trans (refuseHeld_sameBut _ _).stationKeeps).trans
        (clearHold_sameBut _ _).stationKeeps).trans (setBus_stationKeeps _ _)

theorem withdrawn_stationKeeps (f : TxFrame) (s : State) : StationKeeps s (withdrawn f s) := by
  unfold withdrawn
  split
  · exact (returnClaim_sameBut _ s).stationKeeps
  · exact (proposeWithdrawn_sameBut s).stationKeeps
  · exact .ite (fun h => enterCatchup_stationKeeps h) (fun _ => .refl s)
  · exact .ite (fun h => failAttempt_stationKeeps (eq_of_beq h)) (fun _ => .refl s)
  · exact (finalWithdrawn_sameBut _ s).stationKeeps
  · exact .refl s

theorem loseArbitration_stationKeeps (c : Candidate) (s : State) : StationKeeps s (loseArbitration c s) := by
  have h0 := setBus_stationKeeps s .idle
  have hfree : ∀ age, StationKeeps s (fillQueue { setBus s .idle with link := freeEntry (setBus s .idle).link age }) :=
    fun age => (h0.trans (freeEntry_sameBut _ age).stationKeeps).trans (fillQueue_sameBut _).stationKeeps
  unfold loseArbitration
  dsimp only
  split
  · exact h0
  · exact h0
  · split
    · exact h0
    · split
      · exact h0
      · exact hfree _
      · exact (hfree _).trans (withdrawn_stationKeeps _ _)

theorem endArbitration_stationKeeps (won : Bool) (s : State) : StationKeeps s (endArbitration won s) := by
  unfold endArbitration
  split
  · exact .ite (fun _ => winArbitration_stationKeeps _ s) (fun _ => loseArbitration_stationKeeps _ s)
  · exact .refl s

theorem completed_stationKeeps (f : TxFrame) (m : NodeMap) (s : State) : StationKeeps s (completed f m s) := by
  unfold completed
  split
  · exact .ite (fun _ => (returnClaim_sameBut _ s).stationKeeps) (fun _ => .refl s)
  · exact (answerSent_sameBut _ _ _ _ s).stationKeeps
  · exact (finalSent_sameBut _ _ _ s).stationKeeps
  · exact pullSent_stationKeeps _ s
  · exact (imageSent_sameBut _ _ _ s).stationKeeps
  · exact .refl s

theorem releaseSent_stationKeeps (c : Candidate) (s : State) :
    StationKeeps s { s with link := releaseSent c { s.link with bus := .idle } } :=
  stationKeeps_of_eq

theorem frameCompleted_stationKeeps (receipt : NodeMap) (s : State) : StationKeeps s (frameCompleted receipt s) := by
  unfold frameCompleted
  split
  · rename_i c dst f _
    dsimp only
    have h0 := (releaseSent_stationKeeps c s).trans (fillQueue_sameBut _).stationKeeps
    have h1 := h0.trans (filterFrame_stationKeeps ⟨ownNode s, dst⟩ f (fun _ => deliver_stationKeeps ⟨ownNode s, dst⟩ f) _)
    split
    · exact h1
    · exact h1.trans (completed_stationKeeps _ _ _)
  · exact .refl s

theorem abortFrame_stationKeeps (s : State) : StationKeeps s (abortFrame s) := by
  have h0 : StationKeeps s (slotUndriven s) := (slotUndriven_sameBut s).stationKeeps
  refine .ite (fun _ => ?_) (fun _ => h0)
  split
  · exact h0.trans (setBus_stationKeeps _ _)
  · exact h0

/-! ### The inputs and the supply -/

theorem takePins_stationKeeps (p : Pins) (s : State) : StationKeeps s (takePins p s) := (takePins_sameBut p s).stationKeeps

theorem noteDoor_stationKeeps (ch : Channel) (v : BitVec 10) (s : State) : StationKeeps s (noteDoor ch v s) := by
  unfold noteDoor
  split
  · exact takePins_stationKeeps _ s
  · exact .refl s

theorem supplyReturn_stationKeeps (s : State) : StationKeeps s (match s.memb.state with
    | .retention => supplyToRetained s
    | .strapFault => if s.inputs.powerFail then coldStart s else s
    | _ => s) := by
  split
  · rename_i h
    exact .ite (fun _ => coldStart_stationKeeps s) fun _ =>
      .ite (fun _ => returnZeroised_stationKeeps h) (fun _ => warmStart_stationKeeps _ s)
  · exact .ite (fun _ => coldStart_stationKeeps s) (fun _ => .refl s)
  · exact .refl s

theorem powerFail_stationKeeps (s : State) : StationKeeps s (match s.memb.state with
    | .retention => s
    | .strapFault => { s with
        inputs := { s.inputs with powerFail := true }, tamper := { s.tamper with storeValid := false } }
    | _ => enterRetention { s with inputs := { s.inputs with powerFail := true } }) := by
  have hi : StationKeeps s { s with inputs := { s.inputs with powerFail := true } } :=
    stationKeeps_of_eq
  split
  · exact .refl s
  · exact stationKeeps_of_eq
  · rename_i h
    exact hi.trans (enterRetention_stationKeeps (s := { s with inputs := _ }) h)

theorem clearAsserted_stationKeeps (s : State) :
    StationKeeps s (if s.memb.state = .zeroised then clearToBlank { s with inputs := { s.inputs with clear := true } }
      else { s with inputs := { s.inputs with clear := true } }) := by
  have hi : StationKeeps s { s with inputs := { s.inputs with clear := true } } :=
    stationKeeps_of_eq
  exact .ite (fun h => hi.trans (clearToBlank_stationKeeps h)) (fun _ => hi)

/-! ### Every command -/

/-- A command answers a next state with the commands that wait as they were, the station consistent, and no notice left that did not
stand before. -/
def AnswersSteady (c : Instr) (s : State) : Prop :=
  Yields c s fun t => StationKeeps s t ∧ (s.lines.notice = false → t.lines.notice = false)

theorem answersSteady_settled {c : Instr} {s u : State} (hx : exec c s = .next (settle u)) (h : StationKeeps s u) :
    AnswersSteady c s := ⟨_, hx, h.trans (settle_stationKeeps u), fun _ => settle_notice u⟩

theorem answersSteady_quiet {c : Instr} {s u : State} (hx : exec c s = .next u) (h : StationKeeps s u)
    (hn : u.lines.notice = s.lines.notice) : AnswersSteady c s := ⟨_, hx, h, fun hs => hn.trans hs⟩

theorem contend_notice (s : State) : (contend s).lines.notice = s.lines.notice := by
  unfold contend
  split
  · split
    · split <;> rfl
    · rfl
  · rfl

theorem abortFrame_notice (s : State) : (abortFrame s).lines.notice = s.lines.notice := by
  unfold abortFrame
  dsimp only
  split
  · split <;> rfl
  · rfl

theorem clearAsserted_answersSteady (s : State) : AnswersSteady .clearAsserted s := by
  by_cases hc : s.inputs.clear = true
  · exact answersSteady_quiet (u := s) (if_pos hc) (.refl s) rfl
  · exact answersSteady_settled (if_neg hc) (clearAsserted_stationKeeps s)

theorem exec_answersSteady (c : Instr) (s : State) : AnswersSteady c s := by
  have received : ∀ {c : Instr} {h : Header} {f : Frame} {g : State → State}, exec c s = .next (receive h f g s) →
      (∀ u, onLink u = true → StationKeeps u (g u)) → AnswersSteady c s :=
    fun hx hg => answersSteady_settled hx (filterFrame_stationKeeps _ _ hg s)
  have receivedPins : ∀ {c : Instr} {pins : Pins} {h : Header} {f : Frame} {g : State → State},
      exec c s = .next (receive h f g (takePins pins s)) → (∀ u, onLink u = true → StationKeeps u (g u)) → AnswersSteady c s :=
    fun hx hg => answersSteady_settled hx ((takePins_stationKeeps _ s).trans (filterFrame_stationKeeps _ _ hg _))
  have accepted : ∀ (k : Byte) (change : ChangeKind) (h : Header) (b : OrderBody) (u : State),
      StationKeeps u (orderArrives k (acceptRoundOrder change h b) h b u) :=
    fun k change h b u => orderArrives_stationKeeps k h b (acceptRoundOrder_stationKeeps change h b u)
  cases c with
  | supplyReturn pins =>
    exact answersSteady_settled rfl ((takePins_stationKeeps pins s).trans (supplyReturn_stationKeeps _))
  | powerFail pins => exact answersSteady_settled rfl ((takePins_stationKeeps pins s).trans (powerFail_stationKeeps _))
  | clearAsserted => exact clearAsserted_answersSteady s
  | contention => exact answersSteady_quiet rfl (contend_stationKeeps s) (contend_notice s)
  | arbitrationEnd won => exact answersSteady_settled rfl (endArbitration_stationKeeps won s)
  | frameSent receipt pins =>
    exact answersSteady_settled rfl ((takePins_stationKeeps pins s).trans (frameCompleted_stationKeeps receipt _))
  | abort => exact answersSteady_quiet rfl (abortFrame_stationKeeps s) (abortFrame_notice s)
  | receiveError => exact answersSteady_settled rfl (receiveError_stationKeeps s)
  | misplacedFrame raw => exact answersSteady_settled rfl (receiveRaw_stationKeeps raw s)
  | zero h cause => exact received rfl fun u => onZero_stationKeeps h cause
  | presence h b => exact received rfl fun u _ => onPresence_stationKeeps h b u
  | join h b => exact received rfl fun u _ => onJoin_stationKeeps h b u
  | joinFounding h b => exact received rfl fun u _ => onJoinFounding_stationKeeps h b u
  | expel h node reason pins => exact receivedPins rfl fun u _ => onExpel_stationKeeps node reason u
  | claim h b => exact received rfl fun u _ => (onClaim_sameBut h b u).stationKeeps
  | decline h pos reason => exact received rfl fun u _ => (onDecline_sameBut pos reason u).stationKeeps
  | unclaimed h pos => exact received rfl fun u _ => (onUnclaimed_sameBut pos u).stationKeeps
  | cancel h line position => exact received rfl fun u _ => (onCancel_sameBut h line position u).stationKeeps
  | propose h b => exact received rfl fun u _ => (onPropose_sameBut h b u).stationKeeps
  | roundBody h number material check => exact received rfl fun u _ => (onBody_sameBut h number material check u).stationKeeps
  | accept h proposer number => exact received rfl fun u _ => (onAccept_sameBut h proposer number u).stationKeeps
  | refuse h proposer number reason => exact received rfl fun u _ => (onRefuse_sameBut h proposer number reason u).stationKeeps
  | commit h number seq version pins => exact receivedPins rfl fun u => onCommit_stationKeeps h number seq version
  | abandon h number reason => exact received rfl fun u _ => (onAbandon_sameBut h number reason u).stationKeeps
  | orderActivate h b => exact received rfl fun u _ => accepted _ _ h b u
  | orderSuspend h b => exact received rfl fun u _ => accepted _ _ h b u
  | orderResume h b => exact received rfl fun u _ => accepted _ _ h b u
  | orderRetire h b => exact received rfl fun u _ => accepted _ _ h b u
  | orderDestroy h b => exact received rfl fun u _ => accepted _ _ h b u
  | orderEdit h b => exact received rfl fun u _ => accepted _ _ h b u
  | orderWindowOpen h b => exact received rfl fun u _ => accepted _ _ h b u
  | orderWindowClose h b => exact received rfl fun u _ => accepted _ _ h b u
  | orderRestart h b pins =>
    exact receivedPins rfl fun u ho => orderArrives_stationKeeps _ h b (acceptRestart_stationKeeps h b ((onLink_iff u).mp ho).2)
  | orderYield h b pins =>
    exact receivedPins rfl fun u ho => orderArrives_stationKeeps _ h b (acceptYield_stationKeeps h b ((onLink_iff u).mp ho).2)
  | orderErase h b =>
    exact received rfl fun u ho => orderArrives_stationKeeps _ h b (zeroise_stationKeeps _ _ ((onLink_iff u).mp ho).1)
  | orderUnknownKind h kind b => exact received rfl fun u _ => orderArrives_stationKeeps kind (accept := id) h b (.refl u)
  | componentSlot h b => exact received rfl fun u _ => onComponentSlot_stationKeeps h b u
  | componentCabinet h b => exact received rfl fun u _ => onComponentCabinet_stationKeeps h b u
  | openLine h line => exact received rfl fun u _ => (onOpen_sameBut h line u).stationKeeps
  | close h b => exact received rfl fun u _ => (onClose_sameBut h b u).stationKeeps
  | cleared h b => exact received rfl fun u _ => (onCleared_sameBut h b u).stationKeeps
  | job h b => exact received rfl fun u _ => (onJob_sameBut h b u).stationKeeps
  | batch h b => exact received rfl fun u _ => (onBatch_sameBut h b u).stationKeeps
  | cards h b => exact received rfl fun u _ => (onCards_sameBut h b u).stationKeeps
  | answer h body => exact received (g := passedOver) rfl fun u _ => .refl u
  | final h b => exact received rfl fun u _ => (onFinal_sameBut h b u).stationKeeps
  | pull h area start => exact received rfl fun u _ => (onPull_sameBut h area start u).stationKeeps
  | image h area item seq contents => exact received rfl fun u _ => onImage_stationKeeps h area item seq contents u
  | queryIdentity h tag => exact received rfl fun u _ => (onQuery_sameBut h tag _ u).stationKeeps
  | queryStatus h tag => exact received rfl fun u _ => (onQuery_sameBut h tag _ u).stationKeeps
  | querySlot h tag sel => exact received rfl fun u _ => (onQuery_sameBut h tag _ u).stationKeeps
  | queryLine h tag gateway line => exact received rfl fun u _ => (onQuery_sameBut h tag _ u).stationKeeps
  | querySensors h tag => exact received rfl fun u _ => (onQuery_sameBut h tag _ u).stationKeeps
  | report h body => exact received (g := passedOver) rfl fun u _ => .refl u
  | presenceLoad =>
    refine answersSteady_quiet rfl (.ite (fun _ => ?_) (fun _ => .refl s)) ?_
    · exact stationKeeps_of_eq
    · split <;> rfl
  | silenceWatchExpiry k => exact answersSteady_settled rfl (silenceExpired_sameBut k s).stationKeeps
  | listeningWindowExpiry => exact answersSteady_settled rfl (listeningExpired_stationKeeps s)
  | roundDeadlineExpiry => exact answersSteady_settled rfl (roundDeadline_sameBut s).stationKeeps
  | assemblyTimeout a => exact answersSteady_settled rfl (areaTimeout_sameBut a s).stationKeeps
  | pullTimerExpiry => exact answersSteady_settled rfl (pullTimedOut_stationKeeps s)
  | verificationTimerExpiry => exact answersSteady_settled rfl (verificationTimedOut_stationKeeps s)
  | deferralTimerExpiry l p => exact answersSteady_settled rfl (deferralExpired_sameBut l p s).stationKeeps
  | unclaimedDeadlineExpiry l p => exact answersSteady_settled rfl (unclaimedExpired_sameBut l p s).stationKeeps
  | gatewayWatchExpiry g => exact answersSteady_settled rfl (gatewayExpired_sameBut g s).stationKeeps
  | cardGapDeadlineExpiry d =>
    exact answersSteady_settled rfl (.ite (fun _ => (endLoading_sameBut _ s d).stationKeeps) (fun _ => .refl s))
  | channelSample ch reading =>
    exact answersSteady_settled rfl ((noteDoor_stationKeeps ch reading s).trans
      (.ite (fun _ => sample_stationKeeps _ ch _) (fun _ => .refl _)))
  | windowExpiry => exact answersSteady_settled rfl (closeWindow_stationKeeps s)
  | cardCompletion => exact answersSteady_settled rfl (completeCard_sameBut s).stationKeeps
  | retainedStorePowerLoss =>
    refine answersSteady_quiet rfl (.ite (fun _ => tamper_stationKeeps fun _ h => h) (fun _ => .refl s)) ?_
    split <;> rfl
  | clearReleased =>
    exact answersSteady_quiet rfl stationKeeps_of_eq rfl

/-- Settles O2: no command is refused, faults or stops, and none takes a further command from the queue. -/
theorem everyCommandAnswersNext : Obligations.EveryCommandAnswersNext := by
  intro c s
  obtain ⟨t, hx, hk, -⟩ := exec_answersSteady c s
  exact ⟨t, hx, hk.pending⟩

/-- Settles O58, by the invariant `Steady`, which every operation keeps; the end of the step clears the notice. -/
theorem stepKeepsSound : Obligations.StepKeepsSound := by
  intro s t hsound hlive ht
  obtain ⟨hs, hn⟩ := (sound_iff s).mp ⟨hsound, hlive⟩
  refine (sound_iff t).mpr ?_
  unfold step at ht
  split at ht
  · cases ht
    exact ⟨hs, hn⟩
  · rename_i c rest _
    obtain ⟨u, hx, hk, hq⟩ := exec_answersSteady c { s with pending := rest }
    obtain rfl : u = t := Host.Outcome.next.inj (hx.symm.trans ht)
    exact ⟨hk.steady ⟨hs.straps, hs.pulling, hs.retained, hs.live⟩, hq hn⟩

end Sys2Proof.Machine

namespace Sys2Proof.Machine

/-! ## The reset state, the cold start and the input levels (O3, O4, O8) -/

/-- A cold start at an idle bus, block by block (R23). -/
theorem coldStart_eq (s : State) : coldStart s = { State.reset with
    inputs := { s.inputs with powerFail := false }
    straps := strapsOf s.inputs.pins
    memb := { State.reset.memb with
      state := if (strapsOf s.inputs.pins).valid then .blank else .strapFault, presenceLoading := (strapsOf s.inputs.pins).valid }
    link := { State.reset.link with
      nextAge := s.link.nextAge, presence := ⟨(strapsOf s.inputs.pins).valid, false⟩, slotDriven := s.link.slotDriven }
    wirePlace := s.wirePlace
    freeIndex := s.freeIndex
    pending := s.pending } := by
  obtain ⟨hlink, hrounds, -, hcatch, hlines, hpool, hengine, hrep, -, hplace, hfree, hpending⟩ := clearedBlocks s
  have hinputs : (clearCounters (clearVolatile s)).inputs = s.inputs := (clearVolatile_keeps s).2.1
  unfold coldStart
  dsimp only
  rw [hinputs, startPresence_idle (ok := (strapsOf s.inputs.pins).valid) rfl rfl]
  · dsimp only
    rw [hlink, hrounds, hcatch, hlines, hpool, hengine, hrep, hplace, hfree, hpending]
    rfl
  · dsimp only
    cases (strapsOf s.inputs.pins).valid <;> simp

/-- After a cold start nothing waits for the end of the step. -/
theorem settle_coldStart (s : State) : settle (coldStart s) = coldStart s := by
  rw [coldStart_eq]
  exact settle_quiet rfl (.inr (.inl rfl)) rfl rfl

/-- Settles O4: a cold start, and an end of the step that finds nothing to do. -/
theorem supplyReturnColdStart : Obligations.SupplyReturnColdStart := by
  intro pins s hcase ok
  have hx : exec (.supplyReturn pins) s = .next (settle (coldStart (takePins pins s))) := by
    unfold exec execSupplyReturn
    dsimp only
    rw [takePins_memb]
    obtain ⟨hst, hvalid⟩ | ⟨hst, hfail⟩ := hcase
    · have hs : supplyToRetained (takePins pins s) = coldStart (takePins pins s) := by
        unfold supplyToRetained
        rw [takePins_tamper, hvalid]
        rfl
      rw [hst]
      exact congrArg (fun t => Host.Outcome.next (settle t)) hs
    · rw [hst]
      exact congrArg (fun t => Host.Outcome.next (settle t)) (if_pos hfail)
  rw [hx, settle_coldStart, coldStart_eq]
  rfl

theorem entryAt_reset (l : LineId) : entryAt State.reset l = LineEntry.zero := tget_replicate _ _

theorem localAt_reset (l : LineId) (p : PosId) : localAt State.reset l p = LocalPos.empty := by
  show tget (tget (Vector.replicate 32 (Vector.replicate 16 LocalPos.empty)) l) p = _
  rw [tget_replicate, tget_replicate]

/-- Settles O3: what a cold start makes of the reset state, and the invariants on its empty blocks. -/
theorem resetIsAColdStart : Obligations.ResetIsAColdStart := by
  refine ⟨coldStart_eq State.reset, rfl, rfl, rfl, rfl, rfl, ⟨by decide, by decide⟩, ⟨.nil, ?_⟩, ?_,
    ⟨by decide, by decide, by decide, by decide, by decide⟩, liveWithin_empty rfl, fun l _ => entryAt_reset l, ?_, ?_, ?_⟩
  · intro e he
    exact absurd he (List.not_mem_nil)
  · intro d
    rw [show poolQueues State.reset.pool = List.finRange 48 by simp [poolQueues, State.reset, Pool.empty]]
    exact List.count_eq_one_of_mem (List.nodup_finRange 48) (List.mem_finRange d)
  · exact ⟨fun _ => rfl, fun _ => ⟨rfl, rfl, rfl⟩, rfl, fun h => nomatch h⟩
  · rintro age (h | ⟨d, f, h⟩) <;> cases h
  · intro l p note h
    rw [localAt_reset] at h
    cases h

/-- CLEAR at a station that holds no cabinet state changes the station state's own fields alone (R24). -/
theorem clearToBlank_sameBut (s : State) :
    SameBut [.station, .live, .heard, .windowOpen, .watches, .leaving, .yieldMark, .retainedZeroised] s (clearToBlank s) := by
  intro p hp
  cases p <;> first | rfl | exact ⟨rfl, rfl⟩ | exact ⟨rfl, rfl, rfl⟩ | exact absurd (by decide) hp

theorem clearLevel_sameBut (s : State) (b : Bool) : SameBut [.inputs] s { s with inputs := { s.inputs with clear := b } } := by
  intro p hp
  cases p <;> first | rfl | exact ⟨rfl, rfl⟩ | exact ⟨rfl, rfl, rfl⟩ | exact absurd (by decide) hp

theorem exec_clearAsserted {s : State} (h : s.inputs.clear = false) :
    exec .clearAsserted s = .next (settle (if s.memb.state = .zeroised
      then clearToBlank { s with inputs := { s.inputs with clear := true } }
      else { s with inputs := { s.inputs with clear := true } })) :=
  if_neg (by rw [h]; decide)

/-- The register held when its PRESENCE is not the frame in transmission (R16). -/
theorem loadPresence_elsewhere {l : Link} (h : ∀ d f, l.bus ≠ .sending .presence d f) :
    loadPresence l = { l with presence := { l.presence with held := true } } := by
  unfold loadPresence
  split
  · exact absurd ‹_› (h _ _)
  · rfl

theorem loadPresence_sending {l : Link} {d : Dest} {f : Frame} (h : l.bus = .sending .presence d f) :
    loadPresence l = { l with presence := { l.presence with reload := true } } := by
  unfold loadPresence
  rw [h]

/-- Settles O8, command by command. -/
theorem inputLevels : Obligations.InputLevels := by
  refine ⟨fun s h => if_pos h, ?_, ?_, fun s => rfl, ?_, ?_, ?_, ?_, ?_⟩
  · intro s hc hz
    refine yields_settle (exec_clearAsserted hc) (if_pos hz) ?_
    have hclear := (clearLevel_sameBut s true).comp (clearToBlank_sameBut _)
      (e := [.inputs, .station, .live, .heard, .windowOpen, .watches, .leaving, .yieldMark, .retainedZeroised])
      (by decide) (by decide)
    generalize hu : clearToBlank { s with inputs := { s.inputs with clear := true } } = u at hclear ⊢
    have hset := settle_sameBut u
    refine ⟨?_, ?_, ?_, hclear.comp hset (by decide) (by decide)⟩
    · rw [(hset .station (by decide)).1, ← hu]; rfl
    · exact (hset .live (by decide)).trans (by rw [← hu]; rfl)
    · exact (hset .inputs (by decide)).trans (by rw [← hu]; rfl)
  · intro s hc hz
    refine yields_settle (exec_clearAsserted hc) (if_neg hz) ?_
    have hset := settle_sameBut { s with inputs := { s.inputs with clear := true } }
    exact ⟨hset .inputs (by decide), (clearLevel_sameBut s true).comp hset (by decide) (by decide)⟩
  · exact fun s h => congrArg Host.Outcome.next (if_pos h)
  · exact fun s h => congrArg Host.Outcome.next (if_neg h)
  · intro s hl hb
    refine congrArg Host.Outcome.next ((if_pos hl).trans ?_)
    rw [loadPresence_elsewhere hb]
  · intro s d f hl hb
    refine congrArg Host.Outcome.next ((if_pos hl).trans ?_)
    rw [loadPresence_sending hb]
  · intro s hl
    exact congrArg Host.Outcome.next (if_neg (by rw [hl]; decide))

end Sys2Proof.Machine

namespace Sys2Proof.Machine

/-! ## The silence watch (O19) -/

theorem isSilentExpelOf_lasting (k : StationId) : Lasting (isSilentExpelOf k) := ⟨fun _ _ _ _ => rfl, fun _ => rfl, fun _ _ => rfl⟩

/-- The EXPEL is queued, or one was already (R33). -/
theorem hasFrame_ensureSilent (k : StationId) (s : State) : hasFrame (ensureSilent k s) (isSilentExpelOf k) = true := by
  by_cases h : hasFrame s (isSilentExpelOf k) = true
  · rw [ensureSilent, if_pos h]
    exact h
  · rw [ensureSilent, if_neg h]
    exact hasFrame_requested (isSilentExpelOf_lasting k).1 s (by simp [isSilentExpelOf])

/-- Without the duty, and with every lower member failed, the lowest is put out (R33). -/
theorem silentUpkeep_failed {s : State} {m : StationId} {rest : List StationId} (hl : isLive s = true) (hd : duty s = false)
    (hm : (members s).filter (fun j => j.val < (self s).val) = m :: rest) (hf : ∀ j ∈ m :: rest, hasFailed s j = true) :
    silentUpkeep s = ensureSilent m s := by
  unfold silentUpkeep
  rw [if_pos (by rw [hl, hd]; rfl)]
  dsimp only
  rw [hm]
  exact if_pos (List.all_eq_true.mpr hf)

theorem silenceExpired_running {k : StationId} {s : State} (h : tget s.memb.watches k = .running) :
    silenceExpired k s = if duty s = true then ensureSilent k (setSilence s k .expired) else silentUpkeep (setSilence s k .expired) :=
  if_pos h

theorem silenceExpired_watches {k : StationId} {s : State} (h : tget s.memb.watches k = .running) :
    (silenceExpired k s).memb.watches = tset s.memb.watches k .expired := by
  rw [silenceExpired_running h]
  split
  · exact ensureSilent_sameBut k _ .watches (by decide)
  · exact silentUpkeep_sameBut _ .watches (by decide)

/-- Settles O19: the watch's own case split, then the end of the step, which keeps an EXPEL(SILENT). -/
theorem silenceWatchExpires : Obligations.SilenceWatchExpires := by
  refine ⟨fun k s hw => ?_, fun k s hw => ?_⟩
  · refine yields_settle (c := .silenceWatchExpiry k) rfl rfl ?_
    have hset := settle_sameBut (silenceExpired k s)
    have hwatch : (settle (silenceExpired k s)).memb.watches = tset s.memb.watches k .expired :=
      (hset .watches (by decide)).trans (silenceExpired_watches hw)
    refine ⟨?_, fun j hj => ?_, fun hd => ?_, fun m rest hl hd hm hf => ?_, ?_⟩
    · rw [hwatch, tget_tset_self]
    · rw [hwatch, tget_tset_of_ne _ _ hj]
    · rw [silenceExpired_running hw, if_pos hd]
      exact hasFrame_settle (isSilentExpelOf_lasting k) (hasFrame_ensureSilent k _)
    · rw [silenceExpired_running hw, if_neg (by rw [hd]; decide), silentUpkeep_failed (s := setSilence s k .expired) hl hd hm hf]
      exact hasFrame_settle (isSilentExpelOf_lasting m) (hasFrame_ensureSilent m _)
    · exact (silenceExpired_sameBut k s).comp hset (by decide) (by decide)
  · exact yields_settle (c := .silenceWatchExpiry k) rfl (if_neg hw) (settle_sameBut s)

/-! ## From LISTENING to a source (R39, R110) -/

theorem isPull_lasting : Lasting isPull := ⟨fun _ _ _ _ => rfl, fun _ => rfl, fun _ _ => rfl⟩

theorem isFoundingJoin_lasting : Lasting isFoundingJoin := ⟨fun _ _ _ _ => rfl, fun _ => rfl, fun _ _ => rfl⟩

theorem hasFrame_startAttempt (k : StationId) (s : State) : hasFrame (startAttempt k s) isPull = true :=
  hasFrame_requested isPull_lasting.1 _ rfl

/-- The station as it turns from LISTENING to its source. -/
def turned (s : State) : State :=
  { s with memb := { s.memb with state := .catchup, windowOpen := false, yieldMark := false } }

theorem enterCatchup_eq {s : State} {k : StationId} (hk : listeningSource s = some k) : enterCatchupFromListening s =
    if s.memb.yieldMark = true then startAttempt k (turned s)
    else match tget s.memb.peers k with
      | some r => aheadCheck k r.seq (turned s)
      | none => setCatchUp (turned s) { s.catchUp with phase := .waitSource, source := some k, verifyTimer := true } := by
  unfold enterCatchupFromListening
  rw [hk]
  rfl

/-- The three ways out of LISTENING toward a source. -/
theorem enterCatchup_cases {s : State} {k : StationId} (hk : listeningSource s = some k) :
    ((s.memb.yieldMark = true ∨ ∃ r, tget s.memb.peers k = some r ∧ s.dir.seq.toNat ≤ r.seq.toNat)
        ∧ enterCatchupFromListening s = startAttempt k (turned s))
      ∨ ((s.memb.yieldMark = false ∧ ∃ r, tget s.memb.peers k = some r ∧ r.seq.toNat < s.dir.seq.toNat)
        ∧ enterCatchupFromListening s = enterDetached .ahead (turned s))
      ∨ ((s.memb.yieldMark = false ∧ tget s.memb.peers k = none)
        ∧ enterCatchupFromListening s =
          setCatchUp (turned s) { s.catchUp with phase := .waitSource, source := some k, verifyTimer := true }) := by
  rw [enterCatchup_eq hk]
  cases hy : s.memb.yieldMark with
  | true => exact .inl ⟨.inl rfl, if_pos rfl⟩
  | false =>
    rw [if_neg (by decide)]
    cases hr : tget s.memb.peers k with
    | none => exact .inr (.inr ⟨⟨rfl, rfl⟩, rfl⟩)
    | some r =>
      by_cases hlt : r.seq.toNat < s.dir.seq.toNat
      · exact .inr (.inl ⟨⟨rfl, r, rfl, hlt⟩, if_pos hlt⟩)
      · exact .inl ⟨.inr ⟨r, rfl, Nat.le_of_not_lt hlt⟩, if_neg hlt⟩

/-- The entry to CATCHUP or DETACHED(AHEAD) is what the record of the source decides (R39, R110). -/
theorem enterCatchup_enters {s : State} {k : StationId} (hk : listeningSource s = some k) :
    EntersCatchUp k (tget s.memb.peers k) s (enterCatchupFromListening s) := by
  obtain ⟨hcase, he⟩ | ⟨⟨hy, r, hr, hlt⟩, he⟩ | ⟨⟨hy, hr⟩, he⟩ := enterCatchup_cases hk
  · rw [he]
    unfold EntersCatchUp
    rw [startAttempt_memb, startAttempt_catchUp]
    refine ⟨rfl, rfl, fun x hy hx hlt => ?_, fun _ => ⟨rfl, rfl, rfl, rfl, hasFrame_startAttempt _ _⟩, fun hy hn => ?_⟩
    · rcases hcase with hy' | ⟨r, hr, hle⟩
      · rw [hy] at hy'; cases hy'
      · obtain rfl : r = x := Option.some.inj (hr.symm.trans hx)
        omega
    · rcases hcase with hy' | ⟨r, hr, -⟩
      · rw [hy] at hy'; cases hy'
      · rw [hr] at hn; cases hn
  · rw [he]
    refine ⟨rfl, rfl, fun _ _ _ _ => ⟨rfl, rfl, rfl⟩, fun h => ?_, fun _ hn => ?_⟩
    · rcases h with hy' | ⟨x, hx, hle⟩
      · rw [hy] at hy'; cases hy'
      · obtain rfl : r = x := Option.some.inj (hr.symm.trans hx)
        omega
    · rw [hr] at hn; cases hn
  · rw [he]
    refine ⟨rfl, rfl, fun x _ hx => ?_, fun h => ?_, fun _ _ => ⟨rfl, rfl, rfl, rfl⟩⟩
    · rw [hr] at hx; cases hx
    · rcases h with hy' | ⟨x, hx, -⟩
      · rw [hy] at hy'; cases hy'
      · rw [hr] at hx; cases hx

/-- A station in CATCHUP has kept its live set, one in DETACHED has none. -/
theorem enterCatchup_live {s : State} {k : StationId} (hk : listeningSource s = some k)
    (h : (enterCatchupFromListening s).memb.state = .catchup) : (enterCatchupFromListening s).memb.live = s.memb.live := by
  obtain ⟨-, he⟩ | ⟨-, he⟩ | ⟨-, he⟩ := enterCatchup_cases hk
  · rw [he, startAttempt_memb]; rfl
  · rw [he] at h; cases h
  · rw [he]; rfl

/-- The end of the step keeps the entry. -/
theorem EntersCatchUp.settled {k : StationId} {r : Option PeerRecord} {s t : State} (h : EntersCatchUp k r s t) :
    EntersCatchUp k r s (settle t) := by
  have e := settle_sameBut t
  have hm : (settle t).memb = t.memb := e.memb (by decide)
  have hc : (settle t).catchUp = t.catchUp := e.catchUp (by decide)
  obtain ⟨h1, h2, h3, h4, h5⟩ := h
  unfold EntersCatchUp
  rw [hm, hc]
  refine ⟨h1, h2, h3, fun hp => ?_, h5⟩
  obtain ⟨a1, a2, a3, a4, a5⟩ := h4 hp
  exact ⟨a1, a2, a3, a4, hasFrame_settle isPull_lasting a5⟩

/-- Only the yield mark and the commit sequence of the state before count. -/
theorem EntersCatchUp.of_eq {k : StationId} {r : Option PeerRecord} {s u t : State} (h : EntersCatchUp k r u t)
    (hy : u.memb.yieldMark = s.memb.yieldMark) (hq : u.dir.seq = s.dir.seq) : EntersCatchUp k r s t := by
  unfold EntersCatchUp at h ⊢
  rwa [hy, hq] at h

/-! ## The listening window (O20) -/

theorem listeningExpired_open {s : State} (hst : s.memb.state = .listening) (hw : s.memb.windowOpen = true) :
    listeningExpired s =
      if (heardLive s).isSome = true ∨ s.memb.live ≠ 0#8 then enterCatchupFromListening s
      else if mayFound s = true then request (.join true) { s with memb := { s.memb with windowOpen := false } }
      else { s with memb := { s.memb with heard := Vector.replicate 8 none } } := if_pos ⟨hst, hw⟩

theorem listeningExpired_alone {s : State} (hst : s.memb.state = .listening) (hw : s.memb.windowOpen = true)
    (hh : heardLive s = none) (hl : s.memb.live = 0#8) : listeningExpired s =
      if mayFound s = true then request (.join true) { s with memb := { s.memb with windowOpen := false } }
      else { s with memb := { s.memb with heard := Vector.replicate 8 none } } := by
  rw [listeningExpired_open hst hw, if_neg]
  rw [hh, hl]
  simp

/-- Settles O20, by what the window has heard. -/
theorem listeningWindowDecides : Obligations.ListeningWindowDecides := by
  refine ⟨fun s hst hw hh hl hf => ?_, fun s hst hw hh hl hf => ?_, fun s k hst hw hh hk => ?_, fun s hn => ?_⟩
  · refine yields_settle (c := .listeningWindowExpiry) rfl
      ((listeningExpired_alone hst hw hh hl).trans (if_pos hf)) ?_
    have hsame := (windowShut_sameBut s).comp ((request_sameBut (.join true) _).comp (settle_sameBut _) (e := reacting)
      (by decide) (by decide)) (e := .windowOpen :: reacting) (by decide) (by decide)
    refine ⟨?_, hasFrame_settled_request isFoundingJoin_lasting _ rfl, hsame⟩
    rw [settle_sameBut _ .windowOpen (by decide), request_sameBut _ _ .windowOpen (by decide)]
  · refine yields_settle (c := .listeningWindowExpiry) rfl
      ((listeningExpired_alone hst hw hh hl).trans (if_neg (by rw [hf]; decide))) ?_
    exact ⟨settle_sameBut _ .heard (by decide), (heard_sameBut s _).comp (settle_sameBut _) (by decide) (by decide)⟩
  · have hh' : (heardLive s).isSome = true ∨ s.memb.live ≠ 0#8 := hh.imp_left Option.isSome_iff_ne_none.mpr
    refine yields_settle (c := .listeningWindowExpiry) rfl
      ((listeningExpired_open hst hw).trans (if_pos hh')) ?_
    have hsame := (enterCatchup_sameBut s).comp (settle_sameBut _) (e := .roundCounter :: .custodyQueue :: .ownRound :: .pool ::
      .yieldMark :: attempting) (by decide) (by decide)
    have hlive : (settle (enterCatchupFromListening s)).memb.state = .catchup →
        (settle (enterCatchupFromListening s)).memb.live = s.memb.live := by
      rw [(settle_sameBut _).memb (by decide)]
      exact enterCatchup_live hk
    obtain ⟨hopen, hmark, hahead, hpull, hwait⟩ := (enterCatchup_enters hk).settled
    refine ⟨hopen, hmark, hahead, fun r hr hle => ?_, fun hy => ?_, fun hy hn => ?_, hsame .slots (by decide),
      hsame .cabinetKey (by decide), hsame .seq (by decide)⟩
    · obtain ⟨h1, h2, h3, h4, h5⟩ := hpull (.inr ⟨r, hr, hle⟩)
      exact ⟨h1, h2, h3, h4, hlive h1, h5⟩
    · obtain ⟨h1, h2, h3, -, -⟩ := hpull (.inl hy)
      exact ⟨h1, h2, h3⟩
    · obtain ⟨h1, h2, -, h4⟩ := hwait hy hn
      exact ⟨h1, h2, h4⟩
  · exact yields_settle (c := .listeningWindowExpiry) rfl (if_neg hn) (settle_sameBut s)

end Sys2Proof.Machine

namespace Sys2Proof.Machine

/-! ## The founder that meets a member (R40) -/

theorem founderCheck_none {s : State} (h : hasFrame s isFoundingJoin = false) : founderCheck s = s := by
  unfold founderCheck
  rw [if_neg]
  rintro ⟨-, -, hf⟩
  rw [h] at hf
  cases hf

theorem founderCheck_eq {s : State} (hst : s.memb.state = .listening) (hl : s.memb.live ≠ 0#8)
    (hf : hasFrame s isFoundingJoin = true) : founderCheck s =
      if hasFrame (retract isFoundingJoin s) isFoundingJoin = true then retract isFoundingJoin s
      else enterCatchupFromListening (retract isFoundingJoin s) := if_pos ⟨hst, hl, hf⟩

theorem live_ne_empty {s : State} {k : StationId} (h : lowestMember s = some k) : s.memb.live ≠ 0#8 := by
  intro h0
  unfold lowestMember members at h
  rw [h0] at h
  revert h
  simp [setList, setHas]

theorem lowestMember_of {s : State} {k : StationId} (hk : isMember s k = true) (hlow : ∀ i : StationId, i < k → isMember s i = false) :
    lowestMember s = some k := by
  have hstations : stationList.Pairwise (· < ·) := by decide
  have hsorted : (members s).Pairwise (· < ·) := by
    unfold members setList
    exact hstations.filter _
  have hmem := (mem_members s k).mpr hk
  unfold lowestMember
  cases hm : members s with
  | nil => rw [hm] at hmem; cases hmem
  | cons i rest =>
    rw [hm] at hmem hsorted
    rcases List.mem_cons.mp hmem with rfl | hrest
    · rfl
    · have hi : isMember s i = true := (mem_members s i).mp (by rw [hm]; exact List.mem_cons_self)
      rw [hlow i ((List.pairwise_cons.mp hsorted).1 k hrest)] at hi
      cases hi

/-- A queue whose matching entries all wait is free of them after their withdrawal (R18). -/
theorem noFrame_retract_waiting {p : TxFrame → Bool} (hp : NoAnswer p) {s : State}
    (hw : ∀ e ∈ s.link.queue, p e.frame = true → isWaiting s.link e = true) : hasFrame (retract p s) p = false := by
  refine noFrame_retracted hp (fun _ _ h => h) fun e he h => ?_
  by_contra hn
  rw [Bool.not_eq_false] at hn
  rw [hn, hw e he hn] at h
  cases h

/-- The entry to CATCHUP asks for a PULL alone. -/
theorem noFoundingJoin_enterCatchup {s : State} {k : StationId} (hk : listeningSource s = some k)
    (h : hasFrame s isFoundingJoin = false) : hasFrame (enterCatchupFromListening s) isFoundingJoin = false := by
  obtain ⟨-, he⟩ | ⟨-, he⟩ | ⟨-, he⟩ := enterCatchup_cases hk <;> rw [he]
  · exact noFrame_request isFoundingJoin_lasting.1 rfl h
  · exact h
  · exact h

theorem noFoundingJoin_settle {s : State} (h : hasFrame s isFoundingJoin = false) : hasFrame (settle s) isFoundingJoin = false :=
  (noFrame_settleKeeps isFoundingJoin_lasting.1 fun f hf => by cases f <;> first | rfl | cases hf).settle h

/-- A founder whose JOIN still waits, or waits for admission, withdraws it and turns to the lowest member (R40). -/
theorem founderCheck_enters {s : State} {k : StationId} (hst : s.memb.state = .listening) (hf : hasFrame s isFoundingJoin = true)
    (hh : heardLive s = none) (hk : lowestMember s = some k)
    (hw : ∀ e ∈ s.link.queue, isFoundingJoin e.frame = true → isWaiting s.link e = true) :
    hasFrame (settle (founderCheck s)) isFoundingJoin = false
      ∧ EntersCatchUp k (tget s.memb.peers k) s (settle (founderCheck s)) := by
  have hr := retract_sameBut isFoundingJoin s
  have hm : (retract isFoundingJoin s).memb = s.memb := hr.memb (by decide)
  have hd : (retract isFoundingJoin s).dir = s.dir := hr.dir (by decide)
  have hgone := noFrame_retract_waiting isFoundingJoin_lasting.1 hw
  have hsource : listeningSource (retract isFoundingJoin s) = some k := by
    unfold listeningSource heardLive lowestMember members at *
    rw [hm, hd, hh]
    exact hk
  rw [founderCheck_eq hst (live_ne_empty hk) hf, if_neg (by rw [hgone]; decide)]
  refine ⟨noFoundingJoin_settle (noFoundingJoin_enterCatchup hsource hgone), ?_⟩
  have he := (enterCatchup_enters hsource).settled
  rw [hm] at he
  exact he.of_eq (by rw [hm]) (by rw [hd])

/-- A founder whose JOIN is on the bus asks for its withdrawal and stays (R18, R40). -/
theorem founderCheck_waits {s : State} (hst : s.memb.state = .listening) (hl : s.memb.live ≠ 0#8)
    (he : ∃ e ∈ s.link.queue, isFoundingJoin e.frame = true ∧ isWaiting s.link e = false) :
    (settle (founderCheck s)).memb = s.memb := by
  obtain ⟨e, hmem, hfound, hbus⟩ := he
  have hf : hasFrame s isFoundingJoin = true := (hasFrame_iff s _).mpr (.inr ⟨e, hmem, hfound⟩)
  have hstays := hasFrame_retract_onBus isFoundingJoin_lasting.1 hmem hfound hbus isFoundingJoin
  rw [founderCheck_eq hst hl hf, if_pos hstays, (settle_sameBut _).memb (by decide)]
  exact (retract_sameBut isFoundingJoin s).memb (by decide)

/-! ## A member that puts itself out (R35) -/

theorem ownExpel_lasting (k : StationId) (r : ExpelReason) : Lasting (fun f => f == TxFrame.expel k r) :=
  ⟨fun _ _ _ _ => rfl, fun _ => rfl, fun _ _ => rfl⟩

/-- A LIVE station that was not leaving is leaving, its EXPEL asked for. -/
theorem selfExpel_leaves {r : ExpelReason} {s : State} (hl : s.memb.state = .live) (hn : s.memb.leaving = false) :
    (settle (selfExpel r s)).memb.leaving = true ∧ hasFrame (settle (selfExpel r s)) (fun f => f == .expel (self s) r) = true := by
  have hlive : isLive s = true := by unfold isLive; rw [hl]; rfl
  have hlast := ownExpel_lasting (self s) r
  have apart : ∀ q, q (.expel (self s) r) = false → Apart (fun f => f == TxFrame.expel (self s) r) q :=
    fun q hq f hf => by rw [eq_of_beq hf]; exact hq
  refine ⟨?_, hasFrame_settle hlast (hasFrame_selfExpel hlast.1 hlive hn (beq_self_eq_true _) (apart _ rfl) (apart _ rfl)
    (apart _ rfl) (apart _ rfl))⟩
  rw [(settle_sameBut _ .leaving (by decide)).1]
  exact (selfExpel_leaving hlive hn).1

/-! ## Frames of stations -/

/-- Any frame of a station that reaches its block. -/
theorem yields_received {c : Instr} {h : Header} {f : Frame} {g : State → State} {s v : State} {P : State → Prop}
    (hx : exec c s = .next (receive h f g s)) (hr : Reaches s h f) (hf : ∀ r, frameSentBy f r = (r == .station))
    (hv : g (receivedIntact s) = v) (hp : P (settle v)) : Yields c s P := by
  have hm := hr.2.1
  refine yields_settle (u := g (receivedIntact s)) ?_ hv hp
  rw [hx, receive_reaches _ hr, arrived_station (station_of_sent hm hf)]

/-- A change made by a station's frame, and the end of the step. -/
theorem SameBut.received {c e : List Part} {s v : State} (hv : SameBut c (receivedIntact s) v) (hc : ∀ p, p ∈ c → p ∈ e)
    (he : ∀ p, p ∈ stationFrame → p ∈ e) : SameBut e s (settle v) :=
  ((receivedIntact_sameBut s).comp hv (e := e) (fun p hp => he p (by revert p; decide)) hc).trans
    ((settle_sameBut v).mono fun p hp => he p (by revert p; decide))

/-! ## PRESENCE by station state (R22, R28) -/

theorem ofCode_live : StationState.ofCode? StationState.live.code = some .live := rfl

theorem code_of_ofCode {b : Byte} {st : StationState} (h : StationState.ofCode? b = some st) : b = st.code := by
  unfold StationState.ofCode? at h
  split at h <;> cases h
  all_goals
    rename_i hb
    exact BitVec.eq_of_toNat_eq hb

section Presence

variable {h : Header} {b : PresenceBody} {k : StationId} {st : StationState} {s : State}

theorem onPresence_eq (hk : stationOf? s h.src = some k) (hst : StationState.ofCode? b.state = some st)
    (ha : actsOnPresence s.memb.state = true) : onPresence h b s = match s.memb.state with
      | .live => livePresence k st b (recordPresence k st b s)
      | .listening => listeningPresence k st b (recordPresence k st b s)
      | .catchup => catchUpPresence k b (recordPresence k st b s)
      | _ => recordPresence k st b s := by
  unfold onPresence
  rw [hk, hst]
  dsimp only
  rw [if_pos ha]
  rfl

theorem onPresence_live (hk : stationOf? s h.src = some k) (hst : StationState.ofCode? b.state = some st)
    (hs : s.memb.state = .live) : onPresence h b s = livePresence k st b (recordPresence k st b s) := by
  rw [onPresence_eq hk hst (by rw [hs]; rfl), hs]

theorem onPresence_listening (hk : stationOf? s h.src = some k) (hst : StationState.ofCode? b.state = some st)
    (hs : s.memb.state = .listening) : onPresence h b s = listeningPresence k st b (recordPresence k st b s) := by
  rw [onPresence_eq hk hst (by rw [hs]; rfl), hs]

theorem onPresence_catchup (hk : stationOf? s h.src = some k) (hst : StationState.ofCode? b.state = some st)
    (hs : s.memb.state = .catchup) : onPresence h b s = catchUpPresence k b (recordPresence k st b s) := by
  rw [onPresence_eq hk hst (by rw [hs]; rfl), hs]

theorem onPresence_recorded (hk : stationOf? s h.src = some k) (hst : StationState.ofCode? b.state = some st)
    (hs : s.memb.state = .blank ∨ s.memb.state = .zeroised ∨ s.memb.state = .detached) :
    onPresence h b s = recordPresence k st b s := by
  rcases hs with hs | hs | hs <;> rw [onPresence_eq hk hst (by rw [hs]; rfl), hs]

/-- Whatever the station state does with a PRESENCE, the records are as it left them (R28). -/
theorem onPresence_peers (hk : stationOf? s h.src = some k) (hst : StationState.ofCode? b.state = some st)
    (ha : actsOnPresence s.memb.state = true) : (onPresence h b s).memb.peers = (recordPresence k st b s).memb.peers := by
  rw [onPresence_eq hk hst ha]
  split
  · exact livePresence_sameBut k st b _ .peers (by decide)
  · exact listeningPresence_sameBut k st b _ .peers (by decide)
  · exact catchUpPresence_sameBut k b _ .peers (by decide)
  · rfl

/-- A PRESENCE that reaches the membership unit, and what the unit makes of it. -/
theorem yields_presence {P : State → Prop} {v : State} (hr : Reaches s h (.presence b))
    (hv : onPresence h b (receivedIntact s) = v) (hp : P (settle v)) : Yields (.presence h b) s P :=
  yields_received rfl hr (fun _ => rfl) hv hp

theorem actsOnPresence_of_reaches (hr : Reaches s h (.presence b)) : actsOnPresence s.memb.state = true := hr.1

/-- The record as R28 fills it. -/
def presenceRecord (k : StationId) (st : StationState) (b : PresenceBody) (s : State) : PeerRecord :=
  ⟨st, b.seq, b.dirDigest, b.workDigest, if k = self s then .agree else standingOf s b.seq b.dirDigest b.workDigest⟩

theorem recordPresence_peers : (recordPresence k st b s).memb.peers = tset s.memb.peers k (some (presenceRecord k st b s)) := rfl

/-- A change made by a PRESENCE after the record has taken it. -/
theorem SameBut.presence {c e : List Part} {v : State} (hv : SameBut c (recordPresence k st b (receivedIntact s)) v)
    (hc : ∀ p, p ∈ c → p ∈ e) (he : ∀ p, p ∈ Part.peers :: stationFrame → p ∈ e) : SameBut e s (settle v) :=
  ((recordPresence_sameBut k st b _).comp hv (e := e) (fun p hp => he p (by revert p; decide)) hc).received (fun _ hp => hp)
    (fun p hp => he p (List.mem_cons_of_mem _ hp))

end Presence

end Sys2Proof.Machine

namespace Sys2Proof.Machine

section Presence

variable {h : Header} {b : PresenceBody} {k : StationId} {st : StationState} {s : State}

/-! ### PRESENCE in LIVE (R33, R36, R37) -/

theorem watchPresence_watches (k : StationId) (st : StationState) (s : State) :
    (watchPresence k st s).memb.watches = tset s.memb.watches k .running := by
  unfold watchPresence
  dsimp only
  split
  · exact (silentUpkeep_sameBut _ .watches (by decide)).trans (retract_sameBut _ _ .watches (by decide))
  · split
    · exact ensureSilent_sameBut k _ .watches (by decide)
    · exact silentUpkeep_sameBut _ .watches (by decide)

theorem livePresence_member (hm : isMember s k = true) (hk : k ≠ self s) : livePresence k st b s =
    if st = .live then presenceCauses k b (watchPresence k st s) else watchPresence k st s :=
  if_pos (by rw [hm]; simpa using hk)

theorem livePresence_watch (hm : isMember s k = true) (hk : k ≠ self s) :
    tget (livePresence k st b s).memb.watches k = .running := by
  have hw : tget (watchPresence k st s).memb.watches k = .running := by rw [watchPresence_watches, tget_tset_self]
  rw [livePresence_member hm hk]
  split
  · rw [presenceCauses_sameBut k b _ .watches (by decide)]
    exact hw
  · exact hw

/-- The duty station puts out a member that announces another state (R33). -/
theorem livePresence_silent (hm : isMember s k = true) (hk : k ≠ self s) (hst : st ≠ .live) (hd : duty s = true) :
    hasFrame (livePresence k st b s) (isSilentExpelOf k) = true := by
  have hw : watchPresence k st s = ensureSilent k (setSilence s k .running) := by
    unfold watchPresence
    rw [if_neg hst]
    exact if_pos hd
  rw [livePresence_member hm hk, if_neg hst, hw]
  exact hasFrame_ensureSilent k _

/-- The comparison of R37 looks at the live set, the records, the own number and the own commit sequence. -/
theorem mismatched_of_eq {s t : State} (hm : members t = members s) (hp : t.memb.peers = s.memb.peers)
    (hs : t.straps = s.straps) (hq : t.dir.seq = s.dir.seq) : mismatched t = mismatched s := by
  unfold mismatched comparable
  rw [hm, hp, hq, self_of_straps hs]

theorem watchPresence_members (k : StationId) (st : StationState) (s : State) : members (watchPresence k st s) = members s := by
  unfold members
  rw [watchPresence_sameBut k st s .live (by decide)]

theorem presenceCauses_sequence (hq : s.dir.seq.toNat < b.seq.toNat) : presenceCauses k b s = selfExpel .sequence s := if_pos hq

theorem presenceCauses_mismatch {r : PeerRecord} (hq : b.seq = s.dir.seq) (hr : tget s.memb.peers k = some r)
    (hd : r.standing = .differ) (hm : mismatched s = true) : presenceCauses k b s = selfExpel .mismatch s := by
  unfold presenceCauses
  rw [if_neg (by rw [hq]; exact Nat.lt_irrefl _), hr]
  exact if_pos ⟨hd, hm⟩

/-- A LIVE member's cause found by a PRESENCE makes the station leave (R35 to R37). -/
theorem presenceCause_leaves {r : ExpelReason} (hl : s.memb.state = .live) (hn : s.memb.leaving = false)
    (hc : presenceCauses k b (watchPresence k st s) = selfExpel r (watchPresence k st s)) :
    (settle (presenceCauses k b (watchPresence k st s))).memb.leaving = true
      ∧ hasFrame (settle (presenceCauses k b (watchPresence k st s))) (fun f => f == .expel (self s) r) = true := by
  have hw := watchPresence_sameBut k st s
  rw [hc, ← self_of_straps (hw .straps (by decide))]
  exact selfExpel_leaves ((hw .station (by decide)).1.trans hl) ((hw .leaving (by decide)).1.trans hn)

/-- At a LIVE station, the second clause of O15. -/
theorem presence_live (hr : Reaches s h (.presence b)) (hk : stationOf? s h.src = some k)
    (hst : StationState.ofCode? b.state = some st) (hs : s.memb.state = .live) (hm : isMember s k = true) (hne : k ≠ self s) :
    Yields (.presence h b) s fun t =>
      tget t.memb.watches k = .running
      ∧ (st ≠ .live → duty s = true → hasFrame t (isSilentExpelOf k) = true)
      ∧ (st = .live → s.dir.seq.toNat < b.seq.toNat → s.memb.leaving = false →
          t.memb.leaving = true ∧ hasFrame t (fun f => f == .expel (self s) .sequence) = true)
      ∧ (st = .live → b.seq = s.dir.seq → standingOf s b.seq b.dirDigest b.workDigest = .differ →
          mismatched (recordPresence k st b s) = true → s.memb.leaving = false →
          t.memb.leaving = true ∧ hasFrame t (fun f => f == .expel (self s) .mismatch) = true)
      ∧ SameBut (.peers :: .watches :: .leaving :: .serve :: stationFrame) s t := by
  refine yields_presence hr (onPresence_live (s := receivedIntact s) hk hst hs) ?_
  have hpeer : tget (recordPresence k st b (receivedIntact s)).memb.peers k = some (presenceRecord k st b s) := tget_tset_self _ _ _
  have hmis : mismatched (recordPresence k st b (receivedIntact s)) = mismatched (recordPresence k st b s) :=
    mismatched_of_eq rfl rfl rfl rfl
  have hsame := (livePresence_sameBut k st b (recordPresence k st b (receivedIntact s))).presence
    (e := .peers :: .watches :: .leaving :: .serve :: stationFrame) (by decide) (by decide)
  have hm' : isMember (recordPresence k st b (receivedIntact s)) k = true := hm
  have hne' : k ≠ self (recordPresence k st b (receivedIntact s)) := hne
  have hself : self (recordPresence k st b (receivedIntact s)) = self s := rfl
  have hs' : (recordPresence k st b (receivedIntact s)).memb.state = .live := hs
  have hleave : (recordPresence k st b (receivedIntact s)).memb.leaving = s.memb.leaving := rfl
  have hseq : (recordPresence k st b (receivedIntact s)).dir.seq = s.dir.seq := rfl
  have hduty : duty (recordPresence k st b (receivedIntact s)) = duty s := rfl
  generalize recordPresence k st b (receivedIntact s) = w at *
  have hwatch := watchPresence_sameBut k st w
  have hq : (watchPresence k st w).dir.seq = s.dir.seq := (hwatch .seq (by decide)).trans hseq
  refine ⟨?_, fun hn hd => ?_, fun hl hlt hn => ?_, fun hl heq hd hmm hn => ?_, hsame⟩
  · rw [settle_sameBut _ .watches (by decide)]
    exact livePresence_watch hm' hne'
  · exact hasFrame_settle (isSilentExpelOf_lasting k) (livePresence_silent hm' hne' hn (hduty.trans hd))
  · rw [livePresence_member hm' hne', if_pos hl, ← hself]
    exact presenceCause_leaves hs' (hleave.trans hn) (presenceCauses_sequence (by rw [hq]; exact hlt))
  · rw [livePresence_member hm' hne', if_pos hl, ← hself]
    have hp : tget (watchPresence k st w).memb.peers k = some (presenceRecord k st b s) := by
      rw [hwatch .peers (by decide)]
      exact hpeer
    have hdiff : (presenceRecord k st b s).standing = .differ := (if_neg hne).trans hd
    refine presenceCause_leaves hs' (hleave.trans hn) (presenceCauses_mismatch (by rw [hq]; exact heq) hp hdiff ?_)
    rw [mismatched_of_eq (watchPresence_members k st w) (hwatch .peers (by decide)) (hwatch .straps (by decide))
      (hwatch .seq (by decide)), hmis]
    exact hmm

/-! ### PRESENCE in LISTENING (R38, R40) -/

/-- The listening record takes the PRESENCE while the window is open (R38). -/
def heardNote (k : StationId) (st : StationState) (b : PresenceBody) (s : State) : State :=
  if (s.memb.windowOpen && k != self s) = true then
    { s with memb := { s.memb with heard := tset s.memb.heard k (some ⟨st, b.seq, b.yield, b.check⟩) } }
  else s

theorem heardNote_sameBut (k : StationId) (st : StationState) (b : PresenceBody) (s : State) :
    SameBut [.heard] s (heardNote k st b s) := SameBut.ite (heard_sameBut s _) (SameBut.refl _ s)

theorem heardNote_heard (k : StationId) (st : StationState) (b : PresenceBody) (s : State) (j : StationId) :
    tget (heardNote k st b s).memb.heard j = if j = k ∧ k ≠ self s ∧ s.memb.windowOpen = true
      then some ⟨st, b.seq, b.yield, b.check⟩ else tget s.memb.heard j := by
  unfold heardNote
  by_cases hw : (s.memb.windowOpen && k != self s) = true
  · have hw' : s.memb.windowOpen = true ∧ k ≠ self s := by simpa using hw
    rw [if_pos hw, tget_tset]
    simp [hw']
  · have hw' : ¬(k ≠ self s ∧ s.memb.windowOpen = true) := by simpa [and_comm] using hw
    rw [if_neg hw, if_neg fun hj => hw' hj.2]

theorem listeningPresence_eq (k : StationId) (st : StationState) (b : PresenceBody) (s : State) : listeningPresence k st b s =
    if st = .live ∧ b.check = (heardNote k st b s).dir.cabinetCheck then
      founderCheck { heardNote k st b s with
        memb := { (heardNote k st b s).memb with live := setOfMap (stationCount (heardNote k st b s)) b.live } }
    else heardNote k st b s := rfl

theorem heardNote_link (k : StationId) (st : StationState) (b : PresenceBody) (s : State) : (heardNote k st b s).link = s.link := by
  unfold heardNote
  split <;> rfl

theorem heardNote_dir (k : StationId) (st : StationState) (b : PresenceBody) (s : State) : (heardNote k st b s).dir = s.dir :=
  (heardNote_sameBut k st b s).dir (by decide)

/-- The live set adopted from a LIVE sender (R40). -/
def adopted (k : StationId) (st : StationState) (b : PresenceBody) (s : State) : State :=
  { heardNote k st b s with memb := { (heardNote k st b s).memb with live := setOfMap (stationCount s) b.live } }

theorem listeningPresence_adopts (hst : st = .live) (hc : b.check = s.dir.cabinetCheck) :
    listeningPresence k st b s = founderCheck (adopted k st b s) := by
  have hn : stationCount (heardNote k st b s) = stationCount s := by
    unfold stationCount
    rw [heardNote_sameBut k st b s .straps (by decide)]
  rw [listeningPresence_eq, heardNote_dir, if_pos ⟨hst, hc⟩, hn]
  rfl

theorem listeningPresence_notes (hc : st ≠ .live ∨ b.check ≠ s.dir.cabinetCheck) :
    listeningPresence k st b s = heardNote k st b s := by
  rw [listeningPresence_eq, heardNote_dir, if_neg]
  rintro ⟨h1, h2⟩
  exact hc.elim (fun h => h h1) (fun h => h h2)

theorem adopted_sameBut (k : StationId) (st : StationState) (b : PresenceBody) (s : State) :
    SameBut [.heard, .live] s (adopted k st b s) :=
  (heardNote_sameBut k st b s).comp (liveSet_sameBut _ _) (by decide) (by decide)

/-- At a station that is no founder, whichever way the sender's live set goes. -/
theorem listeningPresence_cases (hf : hasFrame s isFoundingJoin = false) :
    (listeningPresence k st b s = heardNote k st b s ∧ ¬(st = .live ∧ b.check = s.dir.cabinetCheck))
      ∨ listeningPresence k st b s = adopted k st b s := by
  by_cases hc : st = .live ∧ b.check = s.dir.cabinetCheck
  · refine .inr ((listeningPresence_adopts hc.1 hc.2).trans (founderCheck_none ?_))
    exact (hasFrame_of_link (t := adopted k st b s) (heardNote_link k st b s) _).trans hf
  · exact .inl ⟨listeningPresence_notes (not_and_or.mp hc), hc⟩

end Presence

end Sys2Proof.Machine

namespace Sys2Proof.Machine

section Presence

variable {h : Header} {b : PresenceBody} {k j : StationId} {st : StationState} {s : State}

/-- A PRESENCE that is not adopted, the third clause of O15. -/
theorem presence_noted (hr : Reaches s h (.presence b)) (hk : stationOf? s h.src = some k)
    (hst : StationState.ofCode? b.state = some st) (hs : s.memb.state = .listening)
    (hc : st ≠ .live ∨ b.check ≠ s.dir.cabinetCheck) :
    Yields (.presence h b) s fun t => SameBut (.peers :: .heard :: stationFrame) s t :=
  yields_presence hr ((onPresence_listening (s := receivedIntact s) hk hst hs).trans
    (listeningPresence_notes (s := recordPresence k st b (receivedIntact s)) hc))
    ((heardNote_sameBut k st b _).presence (by decide) (by decide))

/-- At a station that is no founder, the fourth clause of O15. -/
theorem presence_listening (hr : Reaches s h (.presence b)) (hk : stationOf? s h.src = some k)
    (hst : StationState.ofCode? b.state = some st) (hs : s.memb.state = .listening) (hf : hasFrame s isFoundingJoin = false) :
    Yields (.presence h b) s fun t =>
      (∀ j, tget t.memb.heard j = if j = k ∧ k ≠ self s ∧ s.memb.windowOpen = true then some ⟨st, b.seq, b.yield, b.check⟩
        else tget s.memb.heard j)
      ∧ (st = .live → b.check = s.dir.cabinetCheck → t.memb.live = setOfMap (stationCount s) b.live)
      ∧ SameBut (.peers :: .heard :: .live :: stationFrame) s t := by
  have hheard : ∀ j, tget (heardNote k st b (recordPresence k st b (receivedIntact s))).memb.heard j =
      if j = k ∧ k ≠ self s ∧ s.memb.windowOpen = true then some ⟨st, b.seq, b.yield, b.check⟩ else tget s.memb.heard j :=
    heardNote_heard k st b (recordPresence k st b (receivedIntact s))
  refine yields_presence hr (onPresence_listening (s := receivedIntact s) hk hst hs) ?_
  obtain ⟨he, hn⟩ | he := listeningPresence_cases (k := k) (st := st) (b := b) (s := recordPresence k st b (receivedIntact s)) hf
  · rw [he]
    refine ⟨fun j => ?_, fun h1 h2 => absurd ⟨h1, h2⟩ hn, (heardNote_sameBut k st b _).presence (by decide) (by decide)⟩
    rw [settle_sameBut _ .heard (by decide)]
    exact hheard j
  · rw [he]
    refine ⟨fun j => ?_, fun _ _ => settle_sameBut _ .live (by decide), (adopted_sameBut k st b _).presence (by decide) (by decide)⟩
    rw [settle_sameBut _ .heard (by decide)]
    exact hheard j

theorem adopted_closed (hw : s.memb.windowOpen = false) :
    adopted k st b s = { s with memb := { s.memb with live := setOfMap (stationCount s) b.live } } := by
  unfold adopted
  rw [show heardNote k st b s = s from if_neg (by rw [hw]; simp)]

/-- A founder that hears a LIVE station, the fifth clause of O15. -/
theorem presence_founder (hr : Reaches s h (.presence b)) (hk : stationOf? s h.src = some k)
    (hst : b.state = StationState.live.code) (hs : s.memb.state = .listening) (hw : s.memb.windowOpen = false)
    (hh : heardLive s = none) (hf : hasFrame s isFoundingJoin = true) (hc : b.check = s.dir.cabinetCheck)
    (hj : setHas (setOfMap (stationCount s) b.live) j.val = true)
    (hlow : ∀ i : StationId, i < j → setHas (setOfMap (stationCount s) b.live) i.val = false) :
    Yields (.presence h b) s fun t =>
      ((∀ e ∈ s.link.queue, isFoundingJoin e.frame = true → isWaiting s.link e = true) →
        hasFrame t isFoundingJoin = false ∧ EntersCatchUp j (tget (recordPresence k .live b s).memb.peers j) s t)
      ∧ ((∃ e ∈ s.link.queue, isFoundingJoin e.frame = true ∧ isWaiting s.link e = false) →
        t.memb.state = .listening ∧ t.memb.live = setOfMap (stationCount s) b.live) := by
  have he : onPresence h b (receivedIntact s) = founderCheck { recordPresence k .live b (receivedIntact s) with
      memb := { (recordPresence k .live b (receivedIntact s)).memb with live := setOfMap (stationCount s) b.live } } := by
    rw [onPresence_listening (s := receivedIntact s) (st := .live) hk (by rw [hst]; rfl) hs]
    refine (listeningPresence_adopts (s := recordPresence k .live b (receivedIntact s)) rfl hc).trans (congrArg founderCheck ?_)
    exact adopted_closed (s := recordPresence k .live b (receivedIntact s)) hw
  refine yields_presence hr he ?_
  have hpeers : (recordPresence k .live b (receivedIntact s)).memb.peers = (recordPresence k .live b s).memb.peers := rfl
  generalize hu : ({ recordPresence k .live b (receivedIntact s) with
      memb := { (recordPresence k .live b (receivedIntact s)).memb with live := setOfMap (stationCount s) b.live } } : State) = u
  have hstate : u.memb.state = .listening := by rw [← hu]; exact hs
  have hframe : hasFrame u isFoundingJoin = true := by rw [← hu]; exact hf
  have hheard : heardLive u = none := by rw [← hu]; exact hh
  have hlowest : lowestMember u = some j := by
    rw [← hu]
    exact lowestMember_of hj hlow
  have hqueue : u.link.queue = s.link.queue := by rw [← hu]; rfl
  have hwaits : isWaiting u.link = isWaiting s.link := by rw [← hu]; rfl
  refine ⟨fun hall => ?_, fun hex => ?_⟩
  · obtain ⟨hgone, henter⟩ := founderCheck_enters hstate hframe hheard hlowest (by rw [hqueue, hwaits]; exact hall)
    refine ⟨hgone, ?_⟩
    have hsame : u.memb.peers = (recordPresence k .live b s).memb.peers := by rw [← hu]; exact hpeers
    rw [← hsame]
    exact henter.of_eq (by rw [← hu]; rfl) (by rw [← hu]; rfl)
  · have hm := founderCheck_waits hstate (live_ne_empty hlowest) (by rw [hqueue, hwaits]; exact hex)
    rw [hm]
    exact ⟨hstate, by rw [← hu]⟩

/-! ### PRESENCE of the source in CATCHUP (R110, R117 to R119) -/

theorem catchUpPresence_source (hs : s.memb.state = .catchup) (hk : s.catchUp.source = some k) :
    catchUpPresence k b s = sourceHeard b k s := if_pos ⟨by unfold inCatchup; rw [hs]; rfl, hk⟩

theorem sourceHeard_waiting (hb : b.state = StationState.live.code) (hp : s.catchUp.phase = .waitSource) :
    sourceHeard b k s = aheadCheck k b.seq (setCatchUp s { s.catchUp with verifyTimer := false }) := by
  unfold sourceHeard
  rw [hp, hb]
  rfl

theorem sourceHeard_busy (hb : b.state = StationState.live.code) (hp : s.catchUp.phase = .pulling ∨ s.catchUp.phase = .joining) :
    sourceHeard b k s = s := by
  unfold sourceHeard
  rcases hp with hp | hp <;> rw [hp, hb] <;> rfl

theorem sourceHeard_verified (hp : s.catchUp.phase = .verifying) (hv : verified s b = true) :
    sourceHeard b k s = beginJoining s := by
  unfold sourceHeard
  rw [hp]
  exact if_pos hv

theorem findFailure_attempt (c : FailCause)
    (hp : s.catchUp.phase = .waitSource ∨ s.catchUp.phase = .pulling ∨ s.catchUp.phase = .verifying) :
    findFailure c s = failAttempt s := by
  unfold findFailure
  rcases hp with hp | hp | hp <;> rw [hp]

theorem findFailure_joining (c : FailCause) (hp : s.catchUp.phase = .joining) : findFailure c s = failJoining c s := by
  unfold findFailure
  rw [hp]

/-- A comparison that fails fails the attempt (R117, R119). -/
theorem sourceHeard_unequal (hp : s.catchUp.phase = .verifying) (hv : verified s b = false) :
    sourceHeard b k s = failAttempt s := by
  have hfail : ∀ c, findFailure c s = failAttempt s := fun c => findFailure_attempt c (.inr (.inr hp))
  unfold sourceHeard
  rw [hp]
  dsimp only
  rw [if_neg (by rw [hv]; decide)]
  split <;> exact hfail _

theorem not_verified_of_state (hb : b.state ≠ StationState.live.code) : verified s b = false := by
  unfold verified
  rw [beq_false_of_ne hb]
  rfl

/-- A source that has left LIVE is a cause of failure in every phase (R119). -/
theorem sourceHeard_lost (hb : b.state ≠ StationState.live.code) (hp : s.catchUp.phase ≠ .idle) :
    sourceHeard b k s = findFailure .sourceLost s := by
  have hlive : (b.state == StationState.live.code) = false := beq_false_of_ne hb
  unfold sourceHeard
  rw [hlive, not_verified_of_state hb]
  cases h : s.catchUp.phase with
  | idle => exact absurd h hp
  | _ => rfl

theorem verified_iff : verified s b = true ↔ b.state = StationState.live.code ∧ b.seq = s.dir.seq ∧ b.dirDigest = ownDirDigest s
    ∧ b.workDigest = ownWorkDigest s ∧ b.check = s.dir.cabinetCheck := by
  unfold verified
  simp [and_assoc]

theorem isJoinOf_lasting : Lasting (fun f => f == TxFrame.join false) := ⟨fun _ _ _ _ => rfl, fun _ => rfl, fun _ _ => rfl⟩

/-- WAIT_SOURCE ends in an attempt or in DETACHED(AHEAD) (R110). -/
theorem settle_aheadCheck (k : StationId) (q : Word) (s : State) (hs : s.memb.state = .catchup) :
    (q.toNat < s.dir.seq.toNat → (settle (aheadCheck k q s)).memb.state = .detached
        ∧ (settle (aheadCheck k q s)).memb.cause = some .ahead ∧ (settle (aheadCheck k q s)).memb.live = 0#8
        ∧ (settle (aheadCheck k q s)).catchUp.phase = .idle)
    ∧ (s.dir.seq.toNat ≤ q.toNat → (settle (aheadCheck k q s)).memb.state = .catchup
        ∧ (settle (aheadCheck k q s)).catchUp.phase = .pulling ∧ (settle (aheadCheck k q s)).catchUp.source = some k
        ∧ (settle (aheadCheck k q s)).catchUp.pullIndex = 1 ∧ (settle (aheadCheck k q s)).catchUp.verifyTimer = false
        ∧ hasFrame (settle (aheadCheck k q s)) isPull = true
        ∧ (settle (aheadCheck k q s)).catchUp.attempts.toNat = min 65535 (s.catchUp.attempts.toNat + 1)) := by
  rw [(settle_sameBut (aheadCheck k q s)).memb (by decide), (settle_sameBut (aheadCheck k q s)).catchUp (by decide)]
  refine ⟨fun hlt => ?_, fun hle => ?_⟩
  · rw [show aheadCheck k q s = enterDetached .ahead s from if_pos hlt]
    exact ⟨rfl, rfl, rfl, rfl⟩
  · rw [show aheadCheck k q s = startAttempt k s from if_neg (Nat.not_lt.mpr hle), startAttempt_memb, startAttempt_catchUp]
    exact ⟨hs, rfl, rfl, rfl, rfl, hasFrame_settle isPull_lasting (hasFrame_startAttempt k s), raise16_toNat _⟩

/-- The LIVE source of a CATCHUP station, the sixth clause of O15. -/
theorem presence_source (hr : Reaches s h (.presence b)) (hk : stationOf? s h.src = some k)
    (hst : b.state = StationState.live.code) (hs : s.memb.state = .catchup) (hsrc : s.catchUp.source = some k) :
    Yields (.presence h b) s fun t =>
      (s.catchUp.phase = .waitSource → b.seq.toNat < s.dir.seq.toNat →
        t.memb.state = .detached ∧ t.memb.cause = some .ahead ∧ t.memb.live = 0#8 ∧ t.catchUp.phase = .idle)
      ∧ (s.catchUp.phase = .waitSource → s.dir.seq.toNat ≤ b.seq.toNat →
        t.memb.state = .catchup ∧ t.catchUp.phase = .pulling ∧ t.catchUp.source = some k ∧ t.catchUp.pullIndex = 1
        ∧ t.catchUp.verifyTimer = false ∧ hasFrame t isPull = true
        ∧ t.catchUp.attempts.toNat = min 65535 (s.catchUp.attempts.toNat + 1))
      ∧ (s.catchUp.phase = .pulling ∨ s.catchUp.phase = .joining → SameBut (.peers :: stationFrame) s t)
      ∧ (s.catchUp.phase = .verifying → b.seq = s.dir.seq → b.dirDigest = ownDirDigest s → b.workDigest = ownWorkDigest s →
        b.check = s.dir.cabinetCheck →
        t.catchUp = { s.catchUp with phase := .joining, verifyTimer := false } ∧ hasFrame t (fun f => f == .join false) = true
        ∧ SameBut (.peers :: .pulling :: stationFrame) s t)
      ∧ (s.catchUp.phase = .verifying → b.seq ≠ s.dir.seq ∨ b.dirDigest ≠ ownDirDigest s ∨ b.workDigest ≠ ownWorkDigest s
          ∨ b.check ≠ s.dir.cabinetCheck → AttemptFailed (recordPresence k .live b s) t) := by
  refine yields_presence hr ((onPresence_catchup (s := receivedIntact s) (st := .live) hk (by rw [hst]; rfl) hs).trans
    (catchUpPresence_source (s := recordPresence k .live b (receivedIntact s)) hs hsrc)) ?_
  have hver : verified (recordPresence k .live b (receivedIntact s)) b = true ↔ b.state = StationState.live.code
      ∧ b.seq = s.dir.seq ∧ b.dirDigest = ownDirDigest s ∧ b.workDigest = ownWorkDigest s ∧ b.check = s.dir.cabinetCheck :=
    verified_iff
  refine ⟨fun hp => ?_, fun hp => ?_, fun hp => ?_, fun hp h1 h2 h3 h4 => ?_, fun hp hn => ?_⟩
  · rw [sourceHeard_waiting (s := recordPresence k .live b (receivedIntact s)) hst hp]
    exact (settle_aheadCheck k b.seq (setCatchUp (recordPresence k .live b (receivedIntact s)) _) hs).1
  · rw [sourceHeard_waiting (s := recordPresence k .live b (receivedIntact s)) hst hp]
    exact (settle_aheadCheck k b.seq (setCatchUp (recordPresence k .live b (receivedIntact s)) _) hs).2
  · rw [sourceHeard_busy (s := recordPresence k .live b (receivedIntact s)) hst hp]
    exact (SameBut.refl [] _).presence (by decide) (by decide)
  · rw [sourceHeard_verified (s := recordPresence k .live b (receivedIntact s)) hp (hver.mpr ⟨hst, h1, h2, h3, h4⟩)]
    refine ⟨?_, ?_, (beginJoining_sameBut _).presence (by decide) (by decide)⟩
    · rw [(settle_sameBut _).catchUp (by decide)]
      exact (request_sameBut _ _).catchUp (by decide)
    · exact hasFrame_settled_request isJoinOf_lasting _ rfl
  · have hnv : verified (recordPresence k .live b (receivedIntact s)) b = false := by
      rw [← Bool.not_eq_true, hver]
      rintro ⟨-, h1, h2, h3, h4⟩
      exact hn.elim (fun h => h h1) fun hn => hn.elim (fun h => h h2) fun hn => hn.elim (fun h => h h3) (fun h => h h4)
    rw [sourceHeard_unequal (s := recordPresence k .live b (receivedIntact s)) hp hnv]
    exact (failAttempt_attemptFailed (s := recordPresence k .live b (receivedIntact s)) hs).of_eq rfl rfl rfl
      ((settle_sameBut _).memb (by decide)) ((settle_sameBut _).catchUp (by decide))

/-- The source of a CATCHUP station has left LIVE, the last clause of O15. -/
theorem presence_sourceLost (hr : Reaches s h (.presence b)) (hk : stationOf? s h.src = some k)
    (hst : StationState.ofCode? b.state = some st) (hn : st ≠ .live) (hs : s.memb.state = .catchup)
    (hsrc : s.catchUp.source = some k) :
    Yields (.presence h b) s fun t =>
      (s.catchUp.phase = .waitSource ∨ s.catchUp.phase = .pulling ∨ s.catchUp.phase = .verifying →
        AttemptFailed (recordPresence k st b s) t)
      ∧ (s.catchUp.phase = .joining → JoiningFailed .sourceLost (recordPresence k st b s) t) := by
  have hb : b.state ≠ StationState.live.code := by
    intro hl
    rw [hl] at hst
    exact hn (Option.some.inj hst).symm
  refine yields_presence hr ((onPresence_catchup (s := receivedIntact s) hk hst hs).trans
    (catchUpPresence_source (s := recordPresence k st b (receivedIntact s)) hs hsrc)) ⟨fun hp => ?_, fun hp => ?_⟩
  · have hp' : s.catchUp.phase ≠ .idle := by rcases hp with hp | hp | hp <;> rw [hp] <;> decide
    rw [sourceHeard_lost (s := recordPresence k st b (receivedIntact s)) hb hp',
      findFailure_attempt (s := recordPresence k st b (receivedIntact s)) _ hp]
    exact (failAttempt_attemptFailed (s := recordPresence k st b (receivedIntact s)) hs).of_eq rfl rfl rfl
      ((settle_sameBut _).memb (by decide)) ((settle_sameBut _).catchUp (by decide))
  · have hp' : s.catchUp.phase ≠ .idle := by rw [hp]; decide
    rw [sourceHeard_lost (s := recordPresence k st b (receivedIntact s)) hb hp',
      findFailure_joining (s := recordPresence k st b (receivedIntact s)) _ hp]
    exact settle_failJoining (s := recordPresence k st b (receivedIntact s)) hs .sourceLost

end Presence

/-- Settles O15: the record in every state, then the station state's own part. -/
theorem presenceFillsRecord : Obligations.PresenceFillsRecord := by
  refine ⟨fun h b k st s hr hk hst => ?_, fun h b k st s hr hk hst hs hm hne => presence_live hr hk hst hs hm hne,
    fun h b k st s hr hk hst hs hc => presence_noted hr hk hst hs hc,
    fun h b k st s hr hk hst hs hf => presence_listening hr hk hst hs hf,
    fun h b k j s hr hk hst hs hw hh hf hc hj hlow => presence_founder hr hk hst hs hw hh hf hc hj hlow,
    fun h b k s hr hk hst hs hsrc => presence_source hr hk hst hs hsrc,
    fun h b k st s hr hk hst hn hs hsrc => presence_sourceLost hr hk hst hn hs hsrc⟩
  have hp : (settle (onPresence h b (receivedIntact s))).memb.peers = tset s.memb.peers k (some (presenceRecord k st b s)) :=
    (settle_sameBut _ .peers (by decide)).trans
      (onPresence_peers (s := receivedIntact s) hk hst (actsOnPresence_of_reaches hr))
  refine yields_presence hr rfl ⟨?_, fun j hj => ?_, fun hs => ?_⟩
  · rw [hp, tget_tset_self]
    rfl
  · rw [hp, tget_tset_of_ne _ _ hj]
  · rw [onPresence_recorded (s := receivedIntact s) hk hst hs]
    exact (SameBut.refl [] _).presence (by decide) (by decide)

end Sys2Proof.Machine

namespace Sys2Proof.Machine

/-! ## JOIN (O16) -/

section Join

variable {h : Header} {b : JoinBody} {k : StationId} {s : State}

theorem actsOnJoin_of_reaches {founding : Bool} (hr : Reaches s h (.join founding b)) : actsOnJoin s.memb.state = true := by
  obtain ⟨-, -, -, -, ha⟩ := hr
  cases hs : s.memb.state <;> rw [hs] at ha <;> first | rfl | cases ha

/-- The record of a JOIN's sender (R28). -/
def joinRecord (b : JoinBody) (s : State) : PeerRecord :=
  ⟨.live, b.seq, b.dirDigest, b.workDigest, standingOf s b.seq b.dirDigest b.workDigest⟩

/-- The sender of a JOIN in the live set and in its record (R28, R29, R40). -/
def joined (live : StationSet) (k : StationId) (b : JoinBody) (s : State) : State :=
  recordJoin s k b { s with memb := { s.memb with live := setAdd live k.val } }

theorem joined_sameBut (live : StationSet) (k : StationId) (b : JoinBody) (s : State) :
    SameBut [.live, .peers] s (joined live k b s) :=
  (liveSet_sameBut s _).comp (recordJoin_sameBut s k b _) (by decide) (by decide)

theorem joined_live (live : StationSet) (k : StationId) (b : JoinBody) (s : State) :
    (joined live k b s).memb.live = setAdd live k.val := rfl

theorem joined_peer (live : StationSet) (k : StationId) (b : JoinBody) (s : State) :
    tget (joined live k b s).memb.peers k = some (joinRecord b s) := tget_tset_self _ _ _

theorem onJoin_taken (hk : stationOf? s h.src = some k) (ha : actsOnJoin s.memb.state = true) (hm : isMember s k = false)
    (hc : b.check = s.dir.cabinetCheck) : onJoin h b s = joinTaken k (duty s) (joined s.memb.live k b s) := by
  unfold onJoin
  rw [hk]
  dsimp only
  rw [if_neg (by rw [ha]; decide), if_pos (by rw [hm, hc]; simp)]
  rfl

theorem onJoin_refused (hk : stationOf? s h.src = some k) (ha : actsOnJoin s.memb.state = true)
    (hn : isMember s k = true ∨ b.check ≠ s.dir.cabinetCheck) : onJoin h b s = joinRefused k s := by
  unfold onJoin
  rw [hk]
  dsimp only
  rw [if_neg (by rw [ha]; decide), if_neg]
  intro ht
  obtain ⟨hm, hc⟩ := Bool.and_eq_true_iff.mp ht
  rcases hn with hn | hn
  · rw [hn] at hm; cases hm
  · exact hn (eq_of_beq hc)

theorem onJoinFounding_taken (hk : stationOf? s h.src = some k) (ha : actsOnJoin s.memb.state = true) (hl : s.memb.live = 0#8)
    (hc : b.check = s.dir.cabinetCheck) : onJoinFounding h b s = joinTaken k false (joined 0#8 k b s) := by
  unfold onJoinFounding
  rw [hk]
  dsimp only
  rw [if_neg (by rw [ha]; decide), if_pos ⟨hl, hc⟩]
  rfl

theorem onJoinFounding_ignored (hk : stationOf? s h.src = some k) (ha : actsOnJoin s.memb.state = true)
    (hl : s.memb.live ≠ 0#8) : onJoinFounding h b s = foundingIgnored k s := by
  unfold onJoinFounding
  rw [hk]
  dsimp only
  rw [if_neg (by rw [ha]; decide), if_neg fun hn => hl hn.1]

/-- Another station's JOIN, at a station that is no founder (R29, R34, R139). -/
theorem joinTaken_other {d : Bool} (hk : k ≠ self s) (hf : hasFrame s isFoundingJoin = false) :
    SameBut (.watches :: regrouping) s (joinTaken k d s) := by
  unfold joinTaken
  rw [if_neg hk]
  split
  · exact (setSilence_sameBut s k _).comp (liveSetChanged_sameBut d _) (by decide) (by decide)
  · rw [founderCheck_none hf]
    exact SameBut.refl _ s
  · exact SameBut.refl _ s

theorem joinTaken_live {d : Bool} (hk : k ≠ self s) (hs : s.memb.state = .live) :
    joinTaken k d s = liveSetChanged d (setSilence s k .running) := by
  unfold joinTaken
  rw [if_neg hk, hs]

/-- Out of LIVE no watch starts. -/
theorem joinTaken_elsewhere {d : Bool} (hk : k ≠ self s) (hf : hasFrame s isFoundingJoin = false) (hs : s.memb.state ≠ .live) :
    joinTaken k d s = s := by
  unfold joinTaken
  rw [if_neg hk]
  split
  · exact absurd ‹_› hs
  · exact founderCheck_none hf
  · rfl

theorem joinTaken_own {d : Bool} : joinTaken (self s) d s = enterLive s := if_pos rfl

theorem joinTaken_founder {d : Bool} (hk : k ≠ self s) (hs : s.memb.state = .listening) : joinTaken k d s = founderCheck s := by
  unfold joinTaken
  rw [if_neg hk, hs]

/-! ### Entry to LIVE (R29, R33, R109) -/

/-- What the entry changes before any cause is found. -/
theorem wentLive_sameBut (s : State) : SameBut [.station, .windowOpen, .watches, .pulling] s (wentLive s) := by
  intro p hp
  cases p <;> first | rfl | exact ⟨rfl, rfl⟩ | exact ⟨rfl, rfl, rfl⟩ | exact absurd (by decide) hp

theorem liveDuty_sameBut (s : State) : SameBut [.txQueue, .segments, .queries, .notice] s (liveDuty s) :=
  SameBut.comp (SameBut.ite (dutyGained_sameBut s) (silentUpkeep_sameBut s)) (giveNotice_sameBut _) (by decide) (by decide)

theorem enterLive_quiet (h : s.catchUp.joinFailure ≠ some .receiveError) : enterLive s = liveDuty (wentLive s) := by
  rw [enterLive_eq]
  exact if_neg h

theorem enterLive_leaves (h : s.catchUp.joinFailure = some .receiveError) :
    enterLive s = selfExpel .receiveError (liveDuty (wentLive s)) := by
  rw [enterLive_eq]
  exact if_pos h

/-- Whatever cause is found, the entry's own values stand. -/
theorem enterLive_values (s : State) : SameBut departing (wentLive s) (enterLive s) := by
  have hd := liveDuty_sameBut (wentLive s)
  by_cases h : s.catchUp.joinFailure = some .receiveError
  · rw [enterLive_leaves h]
    exact hd.comp (selfExpel_sameBut _ _) (by decide) (by decide)
  · rw [enterLive_quiet h]
    exact hd.mono (by decide)

theorem startedWatches_member {own j : StationId} {live : StationSet} (hj : setHas live j.val = true) (hne : j ≠ own) :
    tget (startedWatches own live) j = .running := by
  have hv : (j.val != own.val) = true := by simpa using fun h => hne (Fin.ext h)
  unfold startedWatches
  rw [tget_tableOf, if_pos (by rw [hj, hv]; rfl)]

end Join

end Sys2Proof.Machine

namespace Sys2Proof.Machine

section Join

variable {h : Header} {b : JoinBody} {k : StationId} {s : State}

/-- The pulling side's phase and failure count, where its part is the same. -/
theorem pulling_same {c : List Part} {s t : State} (h : SameBut c s t) (hc : Part.pulling ∉ c) :
    t.catchUp.phase = s.catchUp.phase ∧ t.catchUp.failures = s.catchUp.failures := by
  have hp : Part.pulling.same s t := h .pulling hc
  simp only [Part.same, CatchUp.mk.injEq] at hp
  obtain ⟨hphase, -, -, -, -, -, hfailures, -⟩ := hp
  exact ⟨hphase, hfailures⟩

/-- The values at the end of a step that entered LIVE. -/
theorem settle_enterLive (s : State) :
    (settle (enterLive s)).memb.state = .live ∧ (settle (enterLive s)).memb.live = s.memb.live
      ∧ (settle (enterLive s)).memb.windowOpen = false
      ∧ (settle (enterLive s)).catchUp.phase = .idle ∧ (settle (enterLive s)).catchUp.failures = 0
      ∧ (settle (enterLive s)).memb.watches = startedWatches (self s) s.memb.live := by
  have e := (enterLive_values s).comp (settle_sameBut _) (e := .leaving :: .serve :: reacting) (by decide) (by decide)
  obtain ⟨hphase, hfailures⟩ := pulling_same e (by decide)
  exact ⟨(e .station (by decide)).1, e .live (by decide), e .windowOpen (by decide), hphase, hfailures, e .watches (by decide)⟩

/-- An entry to LIVE in which no receive error waits keeps the serving side (R29). -/
theorem enterLive_keeps {live : StationSet} (hf : s.catchUp.joinFailure ≠ some .receiveError) :
    SameBut (.station :: .live :: .peers :: .watches :: .windowOpen :: .pulling :: stationFrame) s
      (settle (enterLive (joined live k b (receivedIntact s)))) := by
  rw [enterLive_quiet (s := joined live k b (receivedIntact s)) hf]
  refine SameBut.received (c := [.station, .live, .peers, .watches, .windowOpen, .pulling, .txQueue, .segments, .queries, .notice])
    ?_ (by decide) (by decide)
  exact ((joined_sameBut live k b _).comp (wentLive_sameBut _) (e := [.station, .live, .peers, .watches, .windowOpen, .pulling])
    (by decide) (by decide)).comp (liveDuty_sameBut _) (by decide) (by decide)

/-- A receive error found in JOINING is a cause at the entry (R29, R118). -/
theorem enterLive_expels (hf : s.catchUp.joinFailure = some .receiveError) (hn : s.memb.leaving = false) :
    (settle (enterLive s)).memb.leaving = true
      ∧ hasFrame (settle (enterLive s)) (fun f => f == .expel (self s) .receiveError) = true := by
  have hd := liveDuty_sameBut (wentLive s)
  have hself : self (liveDuty (wentLive s)) = self s := self_of_straps (hd .straps (by decide))
  rw [enterLive_leaves hf, ← hself]
  exact selfExpel_leaves (hd .station (by decide)).1 ((hd .leaving (by decide)).1.trans hn)

/-- Another station's JOIN taken, the first clause of O16. -/
theorem join_other (hr : Reaches s h (.join false b)) (hk : stationOf? s h.src = some k) (hne : k ≠ self s)
    (hm : isMember s k = false) (hc : b.check = s.dir.cabinetCheck) (hf : hasFrame s isFoundingJoin = false) :
    Yields (.join h b) s fun t =>
      t.memb.live = setAdd s.memb.live k.val
      ∧ tget t.memb.peers k = some ⟨.live, b.seq, b.dirDigest, b.workDigest, standingOf s b.seq b.dirDigest b.workDigest⟩
      ∧ (s.memb.state = .live → tget t.memb.watches k = .running)
      ∧ SameBut (.live :: .peers :: .watches :: stationFrame) s t := by
  refine yields_received (v := joinTaken k (duty s) (joined s.memb.live k b (receivedIntact s))) rfl hr (fun _ => rfl)
    (onJoin_taken (s := receivedIntact s) hk (actsOnJoin_of_reaches hr) hm hc) ?_
  have hjoined := joined_sameBut s.memb.live k b (receivedIntact s)
  have hpeer : tget (joined s.memb.live k b (receivedIntact s)).memb.peers k = some (joinRecord b s) := joined_peer _ _ _ _
  have hlive := joined_live s.memb.live k b (receivedIntact s)
  have hne' : k ≠ self (joined s.memb.live k b (receivedIntact s)) := hne
  have hf' : hasFrame (joined s.memb.live k b (receivedIntact s)) isFoundingJoin = false := hf
  have hstate : (joined s.memb.live k b (receivedIntact s)).memb.state = s.memb.state := rfl
  generalize joined s.memb.live k b (receivedIntact s) = w at *
  have htaken := joinTaken_other (d := duty s) hne' hf'
  have hset := htaken.comp (settle_sameBut _) (e := .watches :: regrouping ++ reacting) (by decide) (by decide)
  have hsame := hjoined.comp htaken (e := .live :: .peers :: .watches :: regrouping) (by decide) (by decide)
  refine ⟨?_, ?_, fun hs => ?_, hsame.received (by decide) (by decide)⟩
  · rw [hset .live (by decide)]
    exact hlive
  · rw [hset .peers (by decide)]
    exact hpeer
  · rw [settle_sameBut _ .watches (by decide), joinTaken_live hne' (hstate.trans hs), liveSetChanged_sameBut _ _ .watches (by decide)]
    exact tget_tset_self _ _ _

/-- The own JOIN taken, the second clause of O16. -/
theorem join_own (hr : Reaches s h (.join false b)) (hk : stationOf? s h.src = some (self s))
    (hm : isMember s (self s) = false) (hc : b.check = s.dir.cabinetCheck) :
    Yields (.join h b) s fun t =>
      t.memb.state = .live ∧ t.memb.live = setAdd s.memb.live (self s).val ∧ t.catchUp.phase = .idle ∧ t.catchUp.failures = 0
      ∧ (∀ j, setHas s.memb.live j.val = true → j ≠ self s → tget t.memb.watches j = .running)
      ∧ (s.catchUp.joinFailure ≠ some .receiveError →
          SameBut (.station :: .live :: .peers :: .watches :: .windowOpen :: .pulling :: stationFrame) s t)
      ∧ (s.catchUp.joinFailure = some .receiveError → s.memb.leaving = false →
          t.memb.leaving = true ∧ hasFrame t (fun f => f == .expel (self s) .receiveError) = true) := by
  refine yields_received rfl hr (fun _ => rfl) ((onJoin_taken (s := receivedIntact s) hk (actsOnJoin_of_reaches hr) hm hc).trans
    (joinTaken_own (s := joined s.memb.live (self s) b (receivedIntact s)))) ?_
  obtain ⟨hstate, hlive, -, hphase, hfailures, hwatches⟩ := settle_enterLive (joined s.memb.live (self s) b (receivedIntact s))
  refine ⟨hstate, hlive, hphase, hfailures, fun j hj hne => ?_, enterLive_keeps,
    enterLive_expels (s := joined s.memb.live (self s) b (receivedIntact s))⟩
  rw [hwatches]
  refine startedWatches_member ?_ hne
  rw [joined_live, setHas_setAdd _ _ _ (self s).isLt, hj]
  rfl

/-- The own JOIN refused fails the attempt (R119). -/
theorem join_ownRefused (hr : Reaches s h (.join false b)) (hk : stationOf? s h.src = some (self s)) (hs : s.memb.state = .catchup)
    (hp : s.catchUp.phase = .joining) (hn : isMember s (self s) = true ∨ b.check ≠ s.dir.cabinetCheck) :
    Yields (.join h b) s fun t => AttemptFailed s t := by
  have hv : joinRefused (self s) (receivedIntact s) = failAttempt (receivedIntact s) := by
    refine if_pos ⟨rfl, ?_, ?_⟩
    · show (s.memb.state == .catchup) = true
      rw [hs]
      rfl
    · show s.catchUp.phase ≠ .idle
      rw [hp]
      decide
  refine yields_received rfl hr (fun _ => rfl)
    ((onJoin_refused (s := receivedIntact s) hk (actsOnJoin_of_reaches hr) hn).trans hv) ?_
  exact (failAttempt_attemptFailed (s := receivedIntact s) hs).of_eq rfl rfl rfl
    ((settle_sameBut _).memb (by decide)) ((settle_sameBut _).catchUp (by decide))

theorem join_otherRefused (hr : Reaches s h (.join false b)) (hk : stationOf? s h.src = some k) (hne : k ≠ self s)
    (hn : isMember s k = true ∨ b.check ≠ s.dir.cabinetCheck) : Yields (.join h b) s fun t => SameBut stationFrame s t :=
  yields_received rfl hr (fun _ => rfl) ((onJoin_refused (s := receivedIntact s) hk (actsOnJoin_of_reaches hr) hn).trans
    (if_neg fun hx => hne hx.1)) ((SameBut.refl [] _).received (by decide) (by decide))

/-! ### Founding JOIN (R40) -/

/-- Another station's founding JOIN at a station that is no founder. -/
theorem founding_other (hr : Reaches s h (.join true b)) (hk : stationOf? s h.src = some k) (hne : k ≠ self s)
    (hl : s.memb.live = 0#8) (hc : b.check = s.dir.cabinetCheck) (hs : s.memb.state ≠ .live)
    (hf : hasFrame s isFoundingJoin = false) :
    Yields (.joinFounding h b) s fun t =>
      t.memb.live = setAdd 0#8 k.val
      ∧ tget t.memb.peers k = some ⟨.live, b.seq, b.dirDigest, b.workDigest, standingOf s b.seq b.dirDigest b.workDigest⟩
      ∧ SameBut (.live :: .peers :: stationFrame) s t := by
  refine yields_received rfl hr (fun _ => rfl)
    ((onJoinFounding_taken (s := receivedIntact s) hk (actsOnJoin_of_reaches hr) hl hc).trans
      (joinTaken_elsewhere (s := joined 0#8 k b (receivedIntact s)) hne hf hs)) ?_
  refine ⟨settle_sameBut _ .live (by decide), ?_, (joined_sameBut 0#8 k b _).received (by decide) (by decide)⟩
  rw [settle_sameBut _ .peers (by decide), joined_peer]
  rfl

/-- The own founding JOIN delivered. -/
theorem founding_own (hr : Reaches s h (.join true b)) (hk : stationOf? s h.src = some (self s)) (hl : s.memb.live = 0#8)
    (hc : b.check = s.dir.cabinetCheck) (hf : s.catchUp.joinFailure = none) :
    Yields (.joinFounding h b) s fun t =>
      t.memb.state = .live ∧ t.memb.live = setAdd 0#8 (self s).val ∧ t.memb.windowOpen = false
      ∧ SameBut (.station :: .live :: .peers :: .watches :: .windowOpen :: .pulling :: stationFrame) s t := by
  refine yields_received rfl hr (fun _ => rfl)
    ((onJoinFounding_taken (s := receivedIntact s) hk (actsOnJoin_of_reaches hr) hl hc).trans
      (joinTaken_own (s := joined 0#8 (self s) b (receivedIntact s)))) ?_
  obtain ⟨hstate, hlive, hwindow, -⟩ := settle_enterLive (joined 0#8 (self s) b (receivedIntact s))
  exact ⟨hstate, hlive, hwindow, enterLive_keeps (by rw [hf]; decide)⟩

theorem lowestMember_single (hl : s.memb.live = setAdd 0#8 k.val) : lowestMember s = some k := by
  have hm : ∀ i, isMember s i = (i.val == k.val) := fun i => by
    unfold isMember
    rw [hl, setHas_setAdd _ _ _ k.isLt]
    simp [setHas]
  refine lowestMember_of (by rw [hm]; exact beq_self_eq_true _) fun i hi => ?_
  rw [hm]
  exact beq_false_of_ne (Nat.ne_of_lt hi)

/-- Another station's founding JOIN fills a founder's live set. -/
theorem founding_founder (hr : Reaches s h (.join true b)) (hk : stationOf? s h.src = some k) (hne : k ≠ self s)
    (hl : s.memb.live = 0#8) (hc : b.check = s.dir.cabinetCheck) (hs : s.memb.state = .listening)
    (hf : hasFrame s isFoundingJoin = true) (hh : heardLive s = none) :
    Yields (.joinFounding h b) s fun t =>
      ((∀ e ∈ s.link.queue, isFoundingJoin e.frame = true → isWaiting s.link e = true) →
        hasFrame t isFoundingJoin = false
        ∧ EntersCatchUp k (some ⟨.live, b.seq, b.dirDigest, b.workDigest, standingOf s b.seq b.dirDigest b.workDigest⟩) s t)
      ∧ ((∃ e ∈ s.link.queue, isFoundingJoin e.frame = true ∧ isWaiting s.link e = false) →
        t.memb.state = .listening ∧ t.memb.live = setAdd 0#8 k.val) := by
  refine yields_received rfl hr (fun _ => rfl)
    ((onJoinFounding_taken (s := receivedIntact s) hk (actsOnJoin_of_reaches hr) hl hc).trans
      (joinTaken_founder (s := joined 0#8 k b (receivedIntact s)) hne hs)) ?_
  have hpeer : tget (joined 0#8 k b (receivedIntact s)).memb.peers k = some (joinRecord b s) := joined_peer _ _ _ _
  have hlowest := lowestMember_single (joined_live 0#8 k b (receivedIntact s))
  refine ⟨fun hall => ?_, fun hex => ?_⟩
  · obtain ⟨hgone, henter⟩ := founderCheck_enters (s := joined 0#8 k b (receivedIntact s)) hs hf hh hlowest hall
    rw [hpeer] at henter
    exact ⟨hgone, henter.of_eq rfl rfl⟩
  · rw [founderCheck_waits (s := joined 0#8 k b (receivedIntact s)) hs (live_ne_empty hlowest) hex]
    exact ⟨hs, rfl⟩

/-- The own founding JOIN ignored. -/
theorem founding_ownIgnored (hr : Reaches s h (.join true b)) (hk : stationOf? s h.src = some (self s)) (hl : s.memb.live ≠ 0#8)
    (hs : s.memb.state = .listening) (hsrc : listeningSource s = some k) :
    Yields (.joinFounding h b) s fun t => EntersCatchUp k (tget s.memb.peers k) s t :=
  yields_received rfl hr (fun _ => rfl)
    ((onJoinFounding_ignored (s := receivedIntact s) hk (actsOnJoin_of_reaches hr) hl).trans (if_pos ⟨rfl, hs⟩))
    ((enterCatchup_enters (s := receivedIntact s) hsrc).settled.of_eq rfl rfl)

theorem founding_otherIgnored (hr : Reaches s h (.join true b)) (hk : stationOf? s h.src = some k) (hne : k ≠ self s)
    (hl : s.memb.live ≠ 0#8) : Yields (.joinFounding h b) s fun t => SameBut stationFrame s t :=
  yields_received rfl hr (fun _ => rfl)
    ((onJoinFounding_ignored (s := receivedIntact s) hk (actsOnJoin_of_reaches hr) hl).trans (if_neg fun hx => hne hx.1))
    ((SameBut.refl [] _).received (by decide) (by decide))

end Join

/-- Settles O16: whose JOIN it is, whether it is taken, and what the station state makes of it. -/
theorem joinAddsMember : Obligations.JoinAddsMember :=
  ⟨fun _ _ _ _ hr hk hne hm hc hf => join_other hr hk hne hm hc hf,
    fun _ _ _ hr hk hm hc _ => join_own hr hk hm hc,
    fun _ _ _ hr hk hs hp hn => join_ownRefused hr hk hs hp hn,
    fun _ _ _ _ hr hk hne hn => join_otherRefused hr hk hne hn,
    fun _ _ _ _ hr hk hne hl hc hs hf =>
      founding_other hr hk hne hl hc (by rcases hs with hs | hs <;> rw [hs] <;> decide) hf,
    fun _ _ _ hr hk hl hc _ hf => founding_own hr hk hl hc hf,
    fun _ _ _ _ hr hk hne hl hc hs hf hh => founding_founder hr hk hne hl hc hs hf hh,
    fun _ _ _ _ hr hk hl hs hsrc => founding_ownIgnored hr hk hl hs hsrc,
    fun _ _ _ _ hr hk hne hl => founding_otherIgnored hr hk hne hl⟩

end Sys2Proof.Machine

namespace Sys2Proof.Machine

/-! ## EXPEL of the source in JOINING, the bus naming no entry (O17)

The withdrawal of the EXPEL(SILENT) frames for a removed member lets pending frames into the queue (R15, R33), before the failure
found in JOINING withdraws the JOIN. A JOIN that was pending takes the next age then; where the bus already names that age, the JOIN
counts as contending and is held, not withdrawn. `CandidateQueued` excludes such a state, and O17 has no hypothesis that does. -/

/-- An EXPEL from its arrival to the end of the step. -/
theorem exec_expel {h : Header} {node reason : Byte} {pins : Pins} {s : State} (hr : Reaches s h (.expel node reason)) :
    exec (.expel h node reason pins) s = .next (settle (onExpel node reason (receivedIntact (takePins pins s)))) := by
  have hx : exec (.expel h node reason pins) s
      = .next (receive h (.expel node reason) (onExpel node reason) (takePins pins s)) := rfl
  have hr' : Reaches (takePins pins s) h (.expel node reason) := hr
  have hstation : roleOf (stationCount (takePins pins s)) h.src = .station :=
    station_of_sent (f := .expel node reason) hr'.2.1 (fun _ => rfl)
  rw [hx, receive_reaches _ hr', arrived_station hstation]

/-- Station 0 in JOINING with source 1: its JOIN pending, nothing queued, and the bus naming the age that the next entry will have. -/
def joinNotQueued : State :=
  { State.reset with
    link := { State.reset.link with admissions := [.join false], bus := .contending (.entry 0) }
    memb := { State.reset.memb with state := .catchup, live := 2#8 }
    catchUp := { State.reset.catchUp with phase := .joining, source := some 1 } }

/-- Station 1's EXPEL(SILENT) of itself, a broadcast frame. -/
def expelHeader : Header := ⟨1, ⟨true, 0⟩⟩

theorem joinNotQueued_reaches : Reaches joinNotQueued expelHeader (.expel 1#8 1#8) := by
  unfold Reaches
  decide +kernel

/-- No failed attempt is counted: the JOIN, queued by the removal, is held for withdrawal. -/
theorem joinNotQueued_failures :
    (settle (onExpel 1#8 1#8 (receivedIntact (takePins joinNotQueued.inputs.pins joinNotQueued)))).catchUp.failures = 0 := by
  decide +kernel

/-- Refutes O17: in `joinNotQueued` no queued JOIN is on the bus, so the source's removal has to fail the attempt, and it does not. -/
theorem not_expelRemovesMember : ¬ Obligations.ExpelRemovesMember := by
  rintro ⟨-, -, hsource, -⟩
  obtain ⟨t, hx, -, hjoining, -⟩ := hsource expelHeader 1#8 1#8 joinNotQueued.inputs.pins 1 .silent joinNotQueued
    joinNotQueued_reaches rfl rfl rfl rfl rfl (by decide)
  obtain ⟨hdecided, -⟩ := hjoining rfl
  obtain ⟨⟨hcount, -⟩, -⟩ := hdecided fun e he => absurd he List.not_mem_nil
  have ht := Host.Outcome.next.inj ((exec_expel joinNotQueued_reaches).symm.trans hx)
  rw [← ht, joinNotQueued_failures] at hcount
  exact absurd hcount (by decide)

end Sys2Proof.Machine

end

section
/-! SUPPORT. The directory's usage, what a CLEARED makes of it, and the cabinet key's installation (chapters 3, 5 and 7). -/
set_option Elab.async false

namespace Sys2Proof.Machine

/-! ## Reserve, settle and release on one usage entry (R52 to R55) -/

theorem usageOf_reserve (d : Directory) (i j : SlotId) (n : Nat) : (d.reserve i n).usageOf j = if j = i then
    { d.usageOf i with reserved := BitVec.ofNat 32 ((d.usageOf i).reserved.toNat + n) } else d.usageOf j :=
  usageOf_setUsage d i j _

theorem usageOf_settle (d : Directory) (i j : SlotId) (n k : Nat) : (d.settle i n k).usageOf j = if j = i then
    { used := settledUsed (d.usageOf i) n k
      reserved := BitVec.ofNat 32 ((d.usageOf i).reserved.toNat - n)
      exhausted := (d.usageOf i).exhausted || (settledUsed (d.usageOf i) n k).toNat == d.limitOf i } else d.usageOf j :=
  usageOf_setUsage d i j _

theorem usageOf_release (d : Directory) (i j : SlotId) (n : Nat) : (d.release i n).usageOf j = if j = i then
    { d.usageOf i with reserved := BitVec.ofNat 32 ((d.usageOf i).reserved.toNat - n) } else d.usageOf j :=
  usageOf_setUsage d i j _

/-- An effective limit is a number that a count can reach (R42). -/
theorem limitOf_le (d : Directory) (i : SlotId) : d.limitOf i ≤ Config.maxCount := by
  unfold Directory.limitOf effective
  split
  · exact Nat.le_refl _
  · exact Nat.le_of_lt_succ (d.slot i).limit.isLt

theorem reserveTaken_iff (d : Directory) (i : SlotId) (n : Nat) : d.reserveTaken i n = true ↔
    (d.usageOf i).exhausted = false ∧ (d.usageOf i).used.toNat + (d.usageOf i).reserved.toNat + n ≤ d.limitOf i := by
  simp [Directory.reserveTaken]

/-- A number up to the greatest count is itself as a word. -/
theorem toNat_ofCount {n : Nat} (h : n ≤ Config.maxCount) : (BitVec.ofNat 32 n).toNat = n := by
  rw [BitVec.toNat_ofNat]
  exact Nat.mod_eq_of_lt (Nat.lt_succ_of_le h)

/-- What is left of a count is itself as a word. -/
theorem toNat_ofRest (w : Word) (n : Nat) : (BitVec.ofNat 32 (w.toNat - n)).toNat = w.toNat - n :=
  toNat_ofCount ((Nat.sub_le _ _).trans (Nat.le_of_lt_succ w.isLt))

/-- What a settle charges stays within the limit where used and reserved together do (R54). -/
theorem settledUsed_charges {d : Directory} {i : SlotId} (n k : Nat)
    (h : (d.usageOf i).used.toNat + (d.usageOf i).reserved.toNat ≤ d.limitOf i) :
    (settledUsed (d.usageOf i) n k).toNat = (d.usageOf i).used.toNat + min k (min n (d.usageOf i).reserved.toNat) :=
  settledUsed_toNat _ _ _ (by have := limitOf_le d i; omega)

/-- Settles O54: each request on its own entry, then on every other. -/
theorem usageRequestsCount : Obligations.UsageRequestsCount := by
  refine ⟨reserveTaken_iff, ?_, ?_, ?_, ?_⟩
  · intro d i n ht
    obtain ⟨-, hroom⟩ := (reserveTaken_iff d i n).mp ht
    have hfits : (d.usageOf i).reserved.toNat + n ≤ Config.maxCount := by have := limitOf_le d i; omega
    simp only [usageOf_reserve, if_true]
    exact ⟨toNat_ofCount hfits, trivial, trivial⟩
  · intro d i n k hroom
    simp only [usageOf_settle, if_true]
    refine ⟨toNat_ofRest _ n, settledUsed_charges n k hroom, ?_, ?_, ?_⟩
    · intro hreached; simp [hreached]
    · intro hbelow hclear; simp [hclear, Nat.ne_of_lt hbelow]
    · intro hset; simp [hset]
  · intro d i n
    simp only [usageOf_release, if_true]
    exact ⟨toNat_ofRest _ n, trivial, trivial⟩
  · intro d i j n k hne
    rw [usageOf_reserve, usageOf_settle, usageOf_release]
    simp only [if_neg hne, true_and]
    exact ⟨rfl, rfl, rfl⟩

end Sys2Proof.Machine

namespace Sys2Proof.Machine

/-! ## What a CLEARED makes of its line and of the usage (R54, R138)

Both parts of a CLEARED, the list and then the positions that it does not name, are one run of `clearPosition` over positions with
counts. A position is settled at its first place in the run: after that its owner claims it no more. -/

/-- A position after the CLEARED of a node. -/
def clearedPosition (src : Node) (x : Position) : Position :=
  if claimedBy x src then donePosition x x.settledBy .cleared else x

theorem claimedBy_clearedPosition (src : Node) (x : Position) : claimedBy (clearedPosition src x) src = false := by
  unfold clearedPosition
  split
  · rfl
  · exact Bool.eq_false_of_not_eq_true ‹_›

theorem clearedPosition_unclaimed {src : Node} {x : Position} (h : claimedBy x src = false) : clearedPosition src x = x := by
  unfold clearedPosition
  rw [h]
  rfl

/-- A position of a line is claimed by a node. -/
def claimedAt (src : Node) (l : LineId) (s : State) (p : PosId) : Bool := claimedBy (positionOf s l p) src

/-- The settle request on a position's master slot (R54). -/
def settleCards (d : Directory) (x : Position) (k : Nat) : Directory :=
  match slotOf? x.master with
  | none => d
  | some m => d.settle m x.count.toNat k

theorem settleUsage_dir (s : State) (x : Position) (k : Nat) : (settleUsage s x k).dir = settleCards s.dir x k := by
  unfold settleUsage settleCards
  cases slotOf? x.master <;> rfl

theorem clearPosition_entries (src : Node) (l : LineId) (s : State) (p : PosId) (k : Nat) :
    (clearPosition src l s p k).lines.entries
      = tset s.lines.entries l { entryAt s l with positions := tmod (entryAt s l).positions p (clearedPosition src) } := by
  unfold clearPosition tmod clearedPosition
  dsimp only
  split
  · show tset (settleUsage s _ k).lines.entries l _ = _
    rw [(settleUsage_sameBut s _ k) .entries (by decide)]
  · rw [tset_tget]
    exact (tset_tget s.lines.entries l).symm

theorem entryAt_clearPosition (src : Node) (l : LineId) (s : State) (p : PosId) (k : Nat) (l' : LineId) :
    entryAt (clearPosition src l s p k) l' = if l' = l then
      { entryAt s l with positions := tmod (entryAt s l).positions p (clearedPosition src) } else entryAt s l' := by
  unfold entryAt
  rw [clearPosition_entries, tget_tset]
  rfl

theorem positionOf_clearPosition (src : Node) (l : LineId) (s : State) (p : PosId) (k : Nat) (q : PosId) :
    positionOf (clearPosition src l s p k) l q = if q = p then clearedPosition src (positionOf s l p) else positionOf s l q := by
  unfold positionOf
  rw [entryAt_clearPosition, if_pos rfl]
  exact tget_tmod _ _ _ _

theorem clearPosition_dir (src : Node) (l : LineId) (s : State) (p : PosId) (k : Nat) :
    (clearPosition src l s p k).dir = if claimedAt src l s p then settleCards s.dir (positionOf s l p) k else s.dir := by
  unfold clearPosition
  dsimp only
  by_cases hc : claimedAt src l s p = true
  · rw [if_pos hc]
    exact (congrArg State.dir (if_pos hc)).trans (settleUsage_dir s _ k)
  · rw [if_neg hc]
    exact congrArg State.dir (if_neg hc)

/-- A run of positions with the counts that a CLEARED gives for them. -/
def clearRun (src : Node) (l : LineId) (ps : List (PosId × Nat)) (s : State) : State :=
  ps.foldl (fun s c => clearPosition src l s c.1 c.2) s

theorem clearRun_sameBut (src : Node) (l : LineId) (ps : List (PosId × Nat)) (s : State) :
    SameBut [.usage, .entries] s (clearRun src l ps s) := by
  unfold clearRun
  exact SameBut.foldl (fun s c => clearPosition_sameBut src l s c.1 c.2) ps s

theorem entryAt_clearRun (src : Node) (l : LineId) (ps : List (PosId × Nat)) (s : State) :
    entryAt (clearRun src l ps s) l = { entryAt s l with
      positions := (ps.map (·.1)).foldl (fun t p => tmod t p (clearedPosition src)) (entryAt s l).positions } := by
  induction ps generalizing s with
  | nil => rfl
  | cons c ps ih =>
    show entryAt (clearRun src l ps (clearPosition src l s c.1 c.2)) l = _
    rw [ih, entryAt_clearPosition, if_pos rfl]
    rfl

theorem entryAt_clearRun_other (src : Node) {l l' : LineId} (hl : l' ≠ l) (ps : List (PosId × Nat)) (s : State) :
    entryAt (clearRun src l ps s) l' = entryAt s l' := by
  induction ps generalizing s with
  | nil => rfl
  | cons c ps ih =>
    show entryAt (clearRun src l ps (clearPosition src l s c.1 c.2)) l' = _
    rw [ih, entryAt_clearPosition, if_neg hl]

/-- The count at a position's first place in a run, 0 with none. -/
def firstCount (ps : List (PosId × Nat)) (p : PosId) : Nat := ((ps.find? (fun c => c.1 == p)).map (·.2)).getD 0

theorem firstCount_cons_other {c : PosId × Nat} {p : PosId} (h : p ≠ c.1) (ps : List (PosId × Nat)) :
    firstCount (c :: ps) p = firstCount ps p := by
  unfold firstCount
  rw [List.find?_cons_of_neg (by simpa using h.symm)]

theorem filter_eraseDups {α : Type} [BEq α] [LawfulBEq α] (q : α → Bool) (l : List α) :
    (l.filter q).eraseDups = l.eraseDups.filter q := by
  match l with
  | [] => rfl
  | a :: as =>
    have ih := filter_eraseDups q (as.filter fun b => !b == a)
    by_cases h : q a = true
    · rw [List.filter_cons_of_pos h, List.eraseDups_cons, List.eraseDups_cons, List.filter_cons_of_pos h, ← ih]
      simp only [List.filter_filter, Bool.and_comm]
    · have hsame : (as.filter fun b => !b == a).filter q = as.filter q := by
        rw [List.filter_filter]
        refine List.filter_congr fun b _ => ?_
        by_cases hb : b = a
        · subst hb; simp [h]
        · simp [hb]
      rw [List.filter_cons_of_neg h, List.eraseDups_cons, List.filter_cons_of_neg h, ← ih, hsame]
termination_by l.length
decreasing_by
  simp only [List.length_cons]
  exact Nat.lt_succ_of_le (List.length_filter_le _ _)

/-- The usage after a run: one settle for each position that the node had claimed, in the order and with the counts of their first
places. -/
theorem clearRun_dir (src : Node) (l : LineId) (ps : List (PosId × Nat)) (s : State) :
    (clearRun src l ps s).dir
      = (((ps.map (·.1)).eraseDups).filter (claimedAt src l s)).foldl
          (fun d p => settleCards d (positionOf s l p) (firstCount ps p)) s.dir := by
  induction ps generalizing s with
  | nil => rfl
  | cons c ps ih =>
    obtain ⟨p, k⟩ := c
    have hother : ∀ q, q ≠ p → positionOf (clearPosition src l s p k) l q = positionOf s l q := fun q hq => by
      rw [positionOf_clearPosition, if_neg hq]
    have hclaims : ((ps.map (·.1)).eraseDups).filter (claimedAt src l (clearPosition src l s p k))
        = (((ps.map (·.1)).filter fun q => !q == p).eraseDups).filter (claimedAt src l s) := by
      rw [filter_eraseDups, List.filter_filter]
      refine List.filter_congr fun q _ => ?_
      unfold claimedAt
      by_cases hq : q = p
      · rw [hq, positionOf_clearPosition, if_pos rfl, claimedBy_clearedPosition]
        simp
      · rw [hother q hq]
        simp [hq]
    show (clearRun src l ps (clearPosition src l s p k)).dir = _
    rw [ih, hclaims, clearPosition_dir, List.map_cons, List.eraseDups_cons]
    have hlater : ∀ (d : Directory), ∀ q ∈ (((ps.map (·.1)).filter fun q => !q == p).eraseDups).filter
        (claimedAt src l s),
        settleCards d (positionOf (clearPosition src l s p k) l q) (firstCount ps q)
          = settleCards d (positionOf s l q) (firstCount ((p, k) :: ps) q) := fun d q hq => by
      rw [filter_eraseDups] at hq
      have hne : q ≠ p := by simpa using (List.mem_filter.mp (List.mem_filter.mp hq).1).2
      rw [hother q hne, firstCount_cons_other hne]
    rw [List.foldl_ext _ _ _ hlater]
    by_cases hc : claimedAt src l s p = true
    · rw [if_pos hc, List.filter_cons_of_pos hc, List.foldl_cons]
      have hk : firstCount ((p, k) :: ps) p = k := by simp [firstCount]
      rw [hk]
    · rw [if_neg hc, List.filter_cons_of_neg hc]

/-- The listed positions of a CLEARED with their counts. -/
def listedRun (entries : List ClearedEntry) : List (PosId × Nat) :=
  entries.filterMap fun c => (indexOf? 16 c.position).map fun p => (p, c.consumed.toNat)

/-- Every position with the count 0. -/
def restRun : List (PosId × Nat) := (List.finRange 16).map fun p => (p, 0)

theorem clearRun_append (src : Node) (l : LineId) (ps qs : List (PosId × Nat)) (s : State) :
    clearRun src l (ps ++ qs) s = clearRun src l qs (clearRun src l ps s) := List.foldl_append

theorem foldl_clearListed (src : Node) (l : LineId) (entries : List ClearedEntry) (s : State) :
    entries.foldl (clearListed src l) s = clearRun src l (listedRun entries) s := by
  induction entries generalizing s with
  | nil => rfl
  | cons c entries ih =>
    rw [List.foldl_cons, ih]
    unfold listedRun clearListed
    cases hp : (indexOf? 16 c.position : Option PosId) with
    | none => rw [List.filterMap_cons_none (by rw [hp]; rfl)]
    | some p =>
      rw [List.filterMap_cons_some (b := (p, c.consumed.toNat)) (by rw [hp]; rfl)]
      rfl

theorem foldl_clearRest (src : Node) (l : LineId) (s : State) :
    (List.finRange 16).foldl (fun s p => clearPosition src l s p 0) s = clearRun src l restRun s := by
  unfold clearRun restRun
  rw [List.foldl_map]

theorem indexOf_eq_some_iff {n : Nat} (hn : n ≤ 256) (b : Byte) (i : Fin n) : indexOf? n b = some i ↔ b = byteOf i := by
  constructor
  · unfold indexOf? byteOf
    split
    · intro h
      rw [← Option.some.inj h]
      simp
    · intro h; cases h
  · rintro rfl
    exact indexOf_byteOf hn i

/-- The run of a CLEARED gives each position the count that R138 takes for it. -/
theorem firstCount_cleared (entries : List ClearedEntry) (p : PosId) :
    firstCount (listedRun entries ++ restRun) p = listedConsumed entries p := by
  have hnames : ∀ c : ClearedEntry, (((indexOf? 16 c.position : Option PosId).map fun q => (q, c.consumed.toNat)).any
      fun c => c.1 == p) = (c.position == byteOf p) := fun c => by
    rw [Bool.eq_iff_iff, Option.any_map, Option.any_eq_true]
    simp [indexOf_eq_some_iff]
  have hrest : ∀ c, restRun.find? (fun c => c.1 == p) = some c → c.2 = 0 := fun c hc => by
    obtain ⟨q, -, rfl⟩ := List.mem_map.mp (List.mem_of_find?_eq_some hc)
    rfl
  unfold firstCount listedConsumed listedRun
  rw [List.find?_append, List.find?_filterMap, funext hnames]
  cases hc : entries.find? (fun c => c.position == byteOf p) with
  | none =>
    cases hr : restRun.find? (fun c => c.1 == p) with
    | none => rfl
    | some c => exact hrest c hr
  | some c =>
    have hp : (indexOf? 16 c.position : Option PosId) = some p :=
      (indexOf_eq_some_iff (by decide) _ _).mpr (by simpa using List.find?_some hc)
    simp [hp]

theorem positions_cleared (entries : List ClearedEntry) : (listedRun entries ++ restRun).map (·.1)
    = entries.filterMap (fun c => (indexOf? 16 c.position : Option PosId)) ++ List.finRange 16 := by
  have hid : ((fun c : PosId × Nat => c.1) ∘ fun p : PosId => (p, 0)) = id := rfl
  rw [List.map_append, restRun, List.map_map, hid, List.map_id, listedRun, List.map_filterMap]
  congr 2
  funext c
  rw [Option.map_map]
  exact Option.map_id' ..

/-- A function that is at rest after one use gives the same table however often it is used at each place. -/
theorem foldl_tmod_idempotent {α : Type} {n : Nat} {f : α → α} (hf : ∀ x, f (f x) = f x) (is : List (Fin n)) (t : Vector α n)
    (j : Fin n) : tget (is.foldl (fun t i => tmod t i f) t) j = if j ∈ is then f (tget t j) else tget t j := by
  induction is generalizing t with
  | nil => rfl
  | cons i is ih =>
    rw [List.foldl_cons, ih, tget_tmod]
    by_cases h : j = i <;> simp [h, hf]

end Sys2Proof.Machine

namespace Sys2Proof.Machine

/-! ## CLEARED (R138) -/

theorem clearedPosition_idempotent (src : Node) (x : Position) :
    clearedPosition src (clearedPosition src x) = clearedPosition src x :=
  clearedPosition_unclaimed (claimedBy_clearedPosition src x)

/-- The run of a CLEARED: the list, then every position. -/
def clearAll (src : Node) (l : LineId) (entries : List ClearedEntry) (s : State) : State :=
  clearRun src l (listedRun entries ++ restRun) s

theorem clearAll_entry (src : Node) (l : LineId) (entries : List ClearedEntry) (s : State) :
    entryAt (clearAll src l entries s) l
      = { entryAt s l with positions := tmap (clearedPosition src) (entryAt s l).positions } := by
  have hall : ((listedRun entries ++ restRun).map (·.1)).foldl (fun t p => tmod t p (clearedPosition src)) (entryAt s l).positions
      = tmap (clearedPosition src) (entryAt s l).positions := table_ext fun p => by
    have hp : p ∈ (listedRun entries ++ restRun).map (·.1) := by
      rw [positions_cleared]
      exact List.mem_append_right _ (List.mem_finRange p)
    rw [foldl_tmod_idempotent (clearedPosition_idempotent src), if_pos hp, tget_tmap]
  unfold clearAll
  rw [entryAt_clearRun, hall]

theorem clearedUsage_eq (src : Node) (e : LineEntry) (entries : List ClearedEntry) (d : Directory) :
    clearedUsage src e entries d
      = (((entries.filterMap (fun c => (indexOf? 16 c.position : Option PosId)) ++ List.finRange 16).eraseDups).filter
          (fun p => claimedBy (tget e.positions p) src)).foldl
          (fun d p => settleCards d (tget e.positions p) (listedConsumed entries p)) d := rfl

theorem clearAll_usage (src : Node) (l : LineId) (entries : List ClearedEntry) (s : State) :
    (clearAll src l entries s).dir = clearedUsage src (entryAt s l) entries s.dir := by
  unfold clearAll
  rw [clearRun_dir, positions_cleared, clearedUsage_eq]
  exact List.foldl_ext _ _ _ fun d p _ => congrArg (settleCards d _) (firstCount_cleared entries p)

/-- A CLEARED from a node that a CLOSING entry awaits, `u` the state with the node's positions settled. -/
theorem onCleared_awaited {h : Header} {b : ClearedBody} {l : LineId} {s u : State}
    (hl : findLine s.lines b.gateway b.line = some l) (hs : (entryAt s l).state = .closing)
    (ha : setHas (entryAt s l).pendingClear h.src.val = true) (hu : u = clearAll h.src l b.entries s) :
    onCleared h b s = giveNotice (if setDel (entryAt s l).pendingClear h.src.val = 0#8 then freeLine u l
      else setEntry u l (dAdvance (clearedEntry h.src (entryAt s l)))) := by
  have hrun : clearRun h.src l (listedRun b.entries ++ restRun) s = u := hu.symm
  have he : entryAt u l = { entryAt s l with positions := tmap (clearedPosition h.src) (entryAt s l).positions } := by
    rw [hu, clearAll_entry]
  unfold onCleared
  rw [hl]
  dsimp only
  rw [if_pos ⟨hs, ha⟩, foldl_clearListed, foldl_clearRest, ← clearRun_append, hrun, dAdvance_pendingClear, he]
  rfl

theorem onCleared_ignored {h : Header} {b : ClearedBody} {s : State}
    (hn : ∀ l, findLine s.lines b.gateway b.line = some l →
      (entryAt s l).state ≠ .closing ∨ setHas (entryAt s l).pendingClear h.src.val = false) : onCleared h b s = s := by
  unfold onCleared
  split
  · rfl
  · rename_i l hl
    rw [if_neg]
    rintro ⟨hs, ha⟩
    rcases hn l hl with hns | hna
    · exact hns hs
    · rw [hna] at ha; cases ha

/-- D's advance frees positions that are DONE, so it gives no node a claim (R123). -/
theorem dAdvanceLoop_unclaimed {k : Node} (n : Nat) {e : LineEntry} (he : ∀ p, claimedBy (tget e.positions p) k = false)
    (p : PosId) :
    claimedBy (tget (dAdvanceLoop n e).positions p) k = false := by
  induction n generalizing e with
  | zero => exact he p
  | succ n ih =>
    unfold dAdvanceLoop
    dsimp only
    split
    · refine ih fun q => ?_
      rw [tget_tset]
      split
      · rfl
      · exact he q
    · exact he p

theorem dAdvance_clearedEntry_unclaimed (src : Node) (e : LineEntry) (p : PosId) :
    claimedBy (tget (dAdvance (clearedEntry src e)).positions p) src = false :=
  dAdvanceLoop_unclaimed 16 (fun q => by
    show claimedBy (tget (tmap (clearedPosition src) e.positions) q) src = false
    rw [tget_tmap, claimedBy_clearedPosition]) p

theorem zero_unclaimed (k : Node) (p : PosId) : claimedBy (tget LineEntry.zero.positions p) k = false := by
  unfold LineEntry.zero
  rw [tget_replicate]
  rfl

/-- What a CLEARED that is acted on leaves (R138). -/
theorem onCleared_released {h : Header} {b : ClearedBody} {l : LineId} {s t : State}
    (hl : findLine s.lines b.gateway b.line = some l) (hs : (entryAt s l).state = .closing)
    (ha : setHas (entryAt s l).pendingClear h.src.val = true) (ht : t = onCleared h b s) :
    entryAt t l = (if setDel (entryAt s l).pendingClear h.src.val = 0#8 then LineEntry.zero
        else dAdvance (clearedEntry h.src (entryAt s l)))
      ∧ t.dir = clearedUsage h.src (entryAt s l) b.entries s.dir
      ∧ ∀ l', l' ≠ l → entryAt t l' = entryAt s l' ∧ ∀ p, localAt t l' p = localAt s l' p := by
  obtain ⟨u, hu⟩ : ∃ u, u = clearAll h.src l b.entries s := ⟨_, rfl⟩
  have hdir : u.dir = clearedUsage h.src (entryAt s l) b.entries s.dir := by rw [hu, clearAll_usage]
  have hent : ∀ l', l' ≠ l → entryAt u l' = entryAt s l' := fun l' hne => by
    rw [hu]; exact entryAt_clearRun_other h.src hne _ s
  have hloc : ∀ l' p, localAt u l' p = localAt s l' p := fun l' p => by
    rw [hu]; exact (clearRun_sameBut h.src l _ s).localAt (by decide) l' p
  rw [ht, onCleared_awaited hl hs ha hu]
  split
  · refine ⟨tget_tset_self _ _ _, hdir, fun l' hne => ⟨(tget_tset_of_ne _ _ hne).trans (hent l' hne), fun p => ?_⟩⟩
    rw [← hloc l' p]
    exact congrArg (fun v => tget v p) (tget_tset_of_ne u.lines.locals _ hne)
  · exact ⟨tget_tset_self _ _ _, hdir, fun l' hne => ⟨(tget_tset_of_ne _ _ hne).trans (hent l' hne), hloc l'⟩⟩

/-- Settles O29: a CLEARED as one run over the listed positions and then the others; one that is not awaited does nothing. -/
theorem clearedReleasesOwner : Obligations.ClearedReleasesOwner := by
  refine ⟨?_, ?_⟩
  · intro h b l s hr hl hs ha
    obtain ⟨t, ht⟩ : ∃ t, t = onCleared h b (receivedIntact s) := ⟨_, rfl⟩
    obtain ⟨hentry, hdir, hothers⟩ := onCleared_released (s := receivedIntact s) hl hs ha ht
    have hsettle := settle_sameBut t
    refine yields_received (c := .cleared h b) rfl hr (fun _ => rfl) ht.symm ⟨?_, ?_, ?_, ?_, ?_⟩
    · rw [hsettle.entryAt (by decide)]
      exact hentry
    · rw [hsettle.dir (by decide)]
      exact hdir
    · intro p
      unfold positionOf
      rw [hsettle.entryAt (by decide), hentry]
      split
      · exact zero_unclaimed h.src p
      · exact dAdvance_clearedEntry_unclaimed h.src _ p
    · intro l' hne
      obtain ⟨he, hp⟩ := hothers l' hne
      refine ⟨?_, fun p => ?_⟩
      · rw [hsettle.entryAt (by decide)]
        exact he
      · rw [hsettle.localAt (by decide)]
        exact hp p
    · rw [ht] at hsettle ⊢
      exact (receivedIntact_sameBut s).comp ((onCleared_sameBut h b _).comp hsettle
        (e := .entries :: .locals :: .usage :: stationFrame) (by decide) (by decide)) (by decide) (by decide)
  · intro h b s hr hn
    exact yields_received (c := .cleared h b) rfl hr (fun _ => rfl) (onCleared_ignored (s := receivedIntact s) hn)
      (settle_receivedIntact_sameBut s)

end Sys2Proof.Machine

namespace Sys2Proof.Machine

/-! ## What the end of a step does to an area (R103, R104)

A COMPLETE area may take room, and at a serving station the end of its IMPORT item may free it. An area that is not COMPLETE stays
where the station is not serving, and a FREE one stays at every station. -/

theorem SameBut.areaAt {c : List Part} {s t : State} (h : SameBut c s t) (hc : Part.areas ∉ c) (a : AreaId) :
    Machine.areaAt t a = Machine.areaAt s a :=
  congrArg (fun v => tget v a) (h .areas hc)

theorem SameBut.serving {c : List Part} {s t : State} (h : SameBut c s t)
    (hc : ∀ p ∈ [Part.station, .live, .leaving, .straps], p ∉ c) : Machine.serving t = Machine.serving s := by
  obtain ⟨hstate, -⟩ := h .station (hc _ (by decide))
  obtain ⟨hleaving, -⟩ := h .leaving (hc _ (by decide))
  have hlive : t.memb.live = s.memb.live := h .live (hc _ (by decide))
  have hstraps : t.straps = s.straps := h .straps (hc _ (by decide))
  unfold Machine.serving quorate isLive liveSetQuorate quorum memberCount
  rw [hstate, hleaving, hlive, hstraps]

theorem areaAt_setArea (s : State) (a a' : AreaId) (x : Option Area) :
    areaAt (setArea s a x) a' = if a' = a then x else areaAt s a' := tget_tset _ _ _ _

theorem firstComplete_completeSince {c : Custody} {i : AreaId} {x : Area} {k : Key} (h : firstComplete c = some (i, x, k)) :
    completeSince (tget c.areas i) ≠ none := by
  unfold firstComplete at h
  dsimp only at h
  split at h
  · split at h <;> cases h <;> simp_all
  · cases h; simp_all
  · cases h; simp_all
  · cases h

theorem areaAt_takeRoom {s : State} {a : AreaId} (h : completeSince (areaAt s a) = none) :
    areaAt (takeRoom s) a = areaAt s a := by
  unfold takeRoom
  split
  · split
    · rfl
    · rename_i i x k hf
      have hne : a ≠ i := fun e => firstComplete_completeSince hf (e ▸ h)
      exact tget_tset_of_ne _ _ hne
  · rfl

theorem areaAt_freeQueuedArea_free {s : State} {a : AreaId} (item : CustodyItem) (h : areaAt s a = none) :
    areaAt (freeQueuedArea item s) a = none := by
  unfold freeQueuedArea
  split
  · unfold areaAt at h ⊢
    dsimp only
    rw [tget_tmap, h]
  · exact h

theorem areaAt_endItem_free {s : State} {a : AreaId} (o : OrderOutcome) (d : Byte) (v : Half) (q : Word)
    (h : areaAt s a = none) : areaAt (endItem o d v q s) a = none := by
  unfold endItem
  split
  · exact h
  · refine areaAt_freeQueuedArea_free _ ?_
    rw [← h]
    exact (request_sameBut _ s).areaAt (by decide) a

theorem areaAt_admissionCheck_free {s : State} {a : AreaId} (h : areaAt s a = none) : areaAt (admissionCheck s) a = none := by
  unfold admissionCheck
  split
  · split
    · split
      · exact areaAt_endItem_free _ _ _ _ h
      · unfold proposeItem
        rw [(request_sameBut _ _).areaAt (by decide) a]
        exact h
    · exact h
  · exact h

theorem admissionCheck_notServing {s : State} (h : serving s = false) : admissionCheck s = s := by
  unfold admissionCheck
  split
  · rw [h]
    rfl
  · rfl

/-- An area holds `y` and the end of the step has nothing to do with it. -/
structure AreaRests (a : AreaId) (y : Option Area) (s : State) : Prop where
  holds : areaAt s a = y
  incomplete : completeSince y = none
  unserved : y = none ∨ serving s = false

theorem AreaRests.of_sameBut {a : AreaId} {y : Option Area} {c : List Part} {s t : State} (hy : AreaRests a y s)
    (h : SameBut c s t) (hc : ∀ p ∈ [Part.areas, .station, .live, .leaving, .straps], p ∉ c) : AreaRests a y t where
  holds := by rw [h.areaAt (hc _ (by decide)), hy.holds]
  incomplete := hy.incomplete
  unserved := by
    rw [h.serving fun p hp => hc p (List.mem_cons_of_mem _ hp)]
    exact hy.unserved

theorem AreaRests.takeRoom {a : AreaId} {y : Option Area} {s : State} (hy : AreaRests a y s) :
    AreaRests a y (takeRoom s) where
  holds := by rw [areaAt_takeRoom (by rw [hy.holds, hy.incomplete]), hy.holds]
  incomplete := hy.incomplete
  unserved := by
    rw [(takeRoom_sameBut s).serving (by decide)]
    exact hy.unserved

theorem AreaRests.admissionCheck {a : AreaId} {y : Option Area} {s : State} (hy : AreaRests a y s) :
    AreaRests a y (admissionCheck s) := by
  rcases hy.unserved with hfree | hns
  · exact ⟨by rw [hfree]; exact areaAt_admissionCheck_free (hy.holds.trans hfree), hy.incomplete, .inl hfree⟩
  · rw [admissionCheck_notServing hns]
    exact hy

theorem AreaRests.custodyLoop {a : AreaId} {y : Option Area} (k : Nat) {s : State} (hy : AreaRests a y s) :
    AreaRests a y (custodyLoop k s) := by
  induction k generalizing s with
  | zero => exact hy
  | succ k ih => exact ih hy.takeRoom.takeRoom.admissionCheck

theorem AreaRests.settle {a : AreaId} {y : Option Area} {s : State} (hy : AreaRests a y s) : areaAt (settle s) a = y :=
  (((hy.custodyLoop 8).of_sameBut (considerPosted_sameBut _) (by decide)).of_sameBut (serveQueries_sameBut _) (by decide)).holds

theorem areaAt_settle_free {s : State} {a : AreaId} (h : areaAt s a = none) : areaAt (settle s) a = none :=
  AreaRests.settle ⟨h, rfl, .inl rfl⟩

/-! ## The cabinet key's components (R57, R106) -/

theorem serving_of_notLive {s : State} (h : s.memb.state ≠ .live) : serving s = false := by
  simp [serving, quorate, isLive, h]

/-- A station in BLANK keeps no gateway watch (R124). -/
theorem arrived_blank {h : Header} {s : State} (hs : s.memb.state = .blank) : arrived h s = receivedIntact s := by
  have ha : applies (receivedIntact s) = false := by simp [applies, isLive, inCatchup, hs]
  unfold arrived noteGateway
  rw [ha]
  rfl

theorem exec_componentCabinet {h : Header} {b : ComponentBody} {s : State} (hr : Reaches s h (.component b)) :
    exec (.componentCabinet h b) s = .next (settle (onComponentCabinet h b (arrived h s))) :=
  congrArg Host.Outcome.next (receive_reaches (onComponentCabinet h b) hr)

theorem exec_componentCabinet_blank {h : Header} {b : ComponentBody} {s : State} (hr : Reaches s h (.component b))
    (hs : s.memb.state = .blank) :
    exec (.componentCabinet h b) s = .next (settle (onComponentCabinet h b (receivedIntact s))) := by
  rw [exec_componentCabinet hr, arrived_blank hs]

theorem onComponentCabinet_placed {h : Header} {b : ComponentBody} {a : AreaId} {x : Area} {s : State}
    (hs : s.memb.state = .blank) (hn : numbersFail b = false) (hc : componentCheckFails b = false)
    (hp : placeComponent true h (cabinetComponent b) s = .ok (a, x)) :
    onComponentCabinet h b s = takeCabinetComponent h (cabinetComponent b) a x s := by
  have hn' : numbersFail (cabinetComponent b) = false := hn
  have hc' : componentCheckFails (cabinetComponent b) = false := hc
  unfold onComponentCabinet
  simp [hs, hn', hc', hp]

theorem onComponentCabinet_refused {h : Header} {b : ComponentBody} {s : State} (hs : s.memb.state = .blank)
    (hf : numbersFail b = true ∨ componentCheckFails b = true ∨ ∃ d, placeComponent true h (cabinetComponent b) s = .error d) :
    ∃ d, onComponentCabinet h b s = refuseComponent h (cabinetComponent b) d s := by
  unfold onComponentCabinet
  rw [if_pos hs]
  dsimp only
  by_cases hn : numbersFail (cabinetComponent b) = true
  · exact ⟨_, if_pos hn⟩
  · rw [if_neg hn]
    by_cases hc : componentCheckFails (cabinetComponent b) = true
    · exact ⟨_, if_pos hc⟩
    · obtain ⟨d, hd⟩ := (hf.resolve_left hn).resolve_left hc
      rw [if_neg hc, hd]
      exact ⟨d, rfl⟩

theorem onComponentCabinet_notBlank {h : Header} {b : ComponentBody} {s : State} (hs : s.memb.state ≠ .blank) :
    onComponentCabinet h b s = s := if_neg hs

section Taken

variable {h : Header} {b : ComponentBody} {a : AreaId} {x x' : Area} {s : State}

theorem takeCabinetComponent_taken (hx : x' = withComponent b s.wirePlace x) (hm : takenCount x' ≠ x.m.toNat) :
    takeCabinetComponent h b a x s
      = request (assemblyReport h b .taken none (takenCount x') x.m 0#24) (setArea s a (some x')) := by
  subst hx
  exact if_neg hm

theorem takeCabinetComponent_failed (hx : x' = withComponent b s.wirePlace x) (hm : takenCount x' = x.m.toNat)
    (hc : checkOf (accumulatorOf x') ≠ x.expected) :
    takeCabinetComponent h b a x s
      = request (assemblyReport h b .failed none (takenCount x') x.m 0#24) (setArea s a none) := by
  subst hx
  exact (if_pos hm).trans (if_neg hc)

theorem takeCabinetComponent_installed (hx : x' = withComponent b s.wirePlace x) (hm : takenCount x' = x.m.toNat)
    (hc : checkOf (accumulatorOf x') = x.expected) :
    takeCabinetComponent h b a x s = installCabinetKey h b x' s := by
  subst hx
  exact (if_pos hm).trans (if_pos hc)

/-- A component taken leaves its area COLLECTING. -/
theorem completeSince_withComponent (b : ComponentBody) (place : Nat) (x : Area) :
    completeSince (some (withComponent b place x)) = none := rfl

/-- The area as the component leaves it stands to the end of the step, and the station and its directory are as before. -/
theorem setArea_settled {f : TxFrame} {y : Option Area} (hy : completeSince y = none) (hs : s.memb.state ≠ .live) :
    areaAt (settle (request f (setArea s a y))) a = y ∧ (settle (request f (setArea s a y))).memb = s.memb
      ∧ (settle (request f (setArea s a y))).dir = s.dir := by
  have hrest : AreaRests a y (setArea s a y) :=
    ⟨by rw [areaAt_setArea, if_pos rfl], hy, .inr (serving_of_notLive hs)⟩
  have hframe : SameBut reacting s (settle (request f (setArea s a y))) :=
    ((setArea_sameBut s a y).comp (request_sameBut f _) (e := reacting) (by decide) (by decide)).trans (settle_sameBut _)
  exact ⟨(hrest.of_sameBut (request_sameBut f _) (by decide)).settle, hframe.memb (by decide), hframe.dir (by decide)⟩

end Taken

/-- A report of the custody unit, once asked for, lasts to the end of the step (R105). -/
theorem custodyReport_lasting (g : Node) (body : List Byte) : Lasting (fun f => f == TxFrame.custodyReport g body) :=
  ⟨fun _ _ _ _ => rfl, fun _ => rfl, fun _ _ => rfl⟩

/-- The state with the cabinet key in its register and the report asked for, before the station enters LISTENING. -/
def keyInstalled (h : Header) (b : ComponentBody) (x : Area) (s : State) : State :=
  request (assemblyReport h b .installed none (takenCount x) x.m (checkOf (accumulatorOf x)))
    { s with dir := { s.dir with key := some ⟨accumulatorOf x, checkOf (accumulatorOf x)⟩ } }

theorem installCabinetKey_eq (h : Header) (b : ComponentBody) (x : Area) (s : State) : installCabinetKey h b x s
    = enterListening { keyInstalled h b x s with
        cust := { (keyInstalled h b x s).cust with areas := Vector.replicate 2 none } } := rfl

theorem keyInstalled_dir (h : Header) (b : ComponentBody) (x : Area) (s : State) :
    (keyInstalled h b x s).dir = { s.dir with key := some ⟨accumulatorOf x, checkOf (accumulatorOf x)⟩ } :=
  (request_sameBut _ _).dir (by decide)

/-- What the installed cabinet key leaves at the end of the step (R38, R57, R106). -/
theorem installCabinetKey_settled {h : Header} {b : ComponentBody} {x : Area} {s t : State}
    (ht : t = settle (installCabinetKey h b x s)) :
    t.memb.state = .listening ∧ t.memb.windowOpen = true ∧ t.memb.live = 0#8
      ∧ t.dir.key = some ⟨accumulatorOf x, checkOf (accumulatorOf x)⟩ ∧ t.dir.slots = s.dir.slots ∧ t.dir.seq = s.dir.seq
      ∧ t.cust.areas = Vector.replicate 2 none
      ∧ hasFrame t (fun f => f == assemblyReport h b .installed none (takenCount x) x.m (checkOf (accumulatorOf x))) = true := by
  have hframe := settle_sameBut (installCabinetKey h b x s)
  have hmemb := hframe.memb (by decide)
  have hdir : t.dir = (keyInstalled h b x s).dir.dropReserved := ht ▸ hframe.dir (by decide)
  rw [keyInstalled_dir] at hdir
  have hfree : ∀ a, areaAt t a = none := fun a => by
    rw [ht]
    refine areaAt_settle_free ?_
    rw [installCabinetKey_eq]
    exact tget_replicate _ _
  have hreport := hasFrame_requested (custodyReport_lasting h.src _).1
    { s with dir := { s.dir with key := some ⟨accumulatorOf x, checkOf (accumulatorOf x)⟩ } }
    (beq_self_eq_true (assemblyReport h b .installed none (takenCount x) x.m (checkOf (accumulatorOf x))))
  refine ⟨?_, ?_, ?_, ?_, ?_, ?_, ?_, ?_⟩
  · rw [ht, hmemb]; rfl
  · rw [ht, hmemb]; rfl
  · rw [ht, hmemb]; rfl
  · rw [hdir]; rfl
  · rw [hdir]; rfl
  · rw [hdir]; rfl
  · exact table_ext fun a => (hfree a).trans (tget_replicate _ a).symm
  · rw [ht]
    exact hasFrame_settle (s := installCabinetKey h b x s) (custodyReport_lasting h.src _) hreport

/-! ## The assembly timeout (R104, R105) -/

theorem areaTimeout_expires {a : AreaId} {x : Area} {s : State} (hx : areaAt s a = some x) (hq : x.phase ≠ .queued) :
    areaTimeout a s = request (areaReport x .expired) (setArea s a none) := by
  unfold areaTimeout
  rw [hx]
  dsimp only
  split
  · exact absurd ‹_› hq
  · rfl

/-- Settles O47: the last cabinet component by what the step's end leaves of the installation, an area by what it leaves of areas. -/
theorem cabinetComponentInstallsKey : Obligations.CabinetComponentInstallsKey := by
  refine ⟨?_, ?_, ?_, ?_, ?_⟩
  · intro h b a x s hr hs hn hc hp x'
    have hs' : (receivedIntact s).memb.state ≠ .live := fun e => by cases hs.symm.trans e
    have hx : x' = withComponent (cabinetComponent b) (receivedIntact s).wirePlace x := rfl
    have hxm : x'.m = x.m := rfl
    clear_value x'
    refine yields_settle (exec_componentCabinet_blank hr hs)
      (onComponentCabinet_placed (s := receivedIntact s) hs hn hc hp) ⟨?_, ?_, ?_⟩
    · intro hm
      rw [takeCabinetComponent_taken hx hm]
      exact setArea_settled (hx ▸ completeSince_withComponent _ _ _) hs'
    · intro hm hcheck
      rw [takeCabinetComponent_failed hx hm hcheck]
      obtain ⟨harea, hmemb, -⟩ := setArea_settled (a := a) (y := none) rfl hs'
      exact ⟨harea, hmemb⟩
    · intro hm hcheck
      rw [takeCabinetComponent_installed hx hm hcheck]
      have hinstalled := installCabinetKey_settled (h := h) (b := cabinetComponent b) (x := x') (s := receivedIntact s) rfl
      rw [hm, hxm] at hinstalled
      exact hinstalled
  · intro h b s hr hs hf
    obtain ⟨d, hd⟩ := onComponentCabinet_refused (s := receivedIntact s) hs hf
    refine yields_settle (exec_componentCabinet_blank hr hs) hd ?_
    exact (receivedIntact_sameBut s).comp ((refuseComponent_sameBut h _ d _).comp (settle_sameBut _)
      (e := stationFrame) (by decide) (by decide)) (by decide) (by decide)
  · intro h b s hr hs
    have harr := arrived_sameBut h s
    have hs' : (arrived h s).memb.state ≠ .blank := by
      obtain ⟨hstate, -⟩ := harr .station (by decide)
      rw [hstate]
      exact hs
    exact yields_settle (exec_componentCabinet hr) (onComponentCabinet_notBlank hs')
      (harr.comp (settle_sameBut _) (by decide) (by decide))
  · intro a x s hx hq
    refine yields_settle (c := .assemblyTimeout a) rfl (areaTimeout_expires hx hq) ⟨?_, ?_, ?_⟩
    · refine areaAt_settle_free ?_
      rw [(request_sameBut _ _).areaAt (by decide), areaAt_setArea, if_pos rfl]
    · exact hasFrame_settled_request (custodyReport_lasting _ _) _ (beq_self_eq_true _)
    · rw [← areaTimeout_expires hx hq]
      exact (areaTimeout_sameBut a s).comp (settle_sameBut _) (by decide) (by decide)
  · intro a s _
    exact yields_settle (c := .assemblyTimeout a) rfl rfl
      ((areaTimeout_sameBut a s).comp (settle_sameBut _) (by decide) (by decide))

end Sys2Proof.Machine

end

section
/-! SUPPORT. Custody orders (chapter 5): the tests of an order at its arrival, what a refused and an accepted one leave at the end
of the step, and the direct orders RESTART and YIELD. -/

namespace Sys2Proof.Machine

/-! ## An order from its arrival to its tests (R89 to R94) -/

/-- What an order of a kind does when every test lets it pass (R94, R96 to R98). -/
def acceptOrder (kind : Byte) (h : Header) (b : OrderBody) (s : State) : State :=
  match kind.toNat with
  | 2 => acceptRoundOrder .activate h b s
  | 3 => acceptRoundOrder .suspend h b s
  | 4 => acceptRoundOrder .resume h b s
  | 5 => acceptRoundOrder .retire h b s
  | 6 => acceptRoundOrder .destroy h b s
  | 7 => acceptRoundOrder .edit h b s
  | 8 => acceptRoundOrder .windowOpen h b s
  | 9 => acceptRoundOrder .windowClose h b s
  | 10 => acceptRestart h b s
  | 11 => acceptYield h b s
  | 12 => acceptErase s
  | _ => s

/-- RESTART and YIELD bring the pin levels (log 3). -/
def orderSampled (kind : Byte) (pins : Pins) (s : State) : State :=
  match kind.toNat with
  | 10 | 11 => takePins pins s
  | _ => s

theorem eq_of_code {kind : Byte} {n : Nat} (hk : kind.toNat = n) : kind = BitVec.ofNat 8 n := by
  rw [← hk, BitVec.ofNat_toNat, BitVec.setWidth_eq]

/-- The command of an order: the receive filter, the tests, then what its kind does (R89 to R94). -/
theorem exec_orderCommand (kind : Byte) (h : Header) (b : OrderBody) (pins : Pins) (s : State) :
    exec (orderCommand kind h b pins) s = .next
      (receive h (.order kind b) (orderArrives kind (acceptOrder kind h b) h b) (orderSampled kind pins s)) := by
  unfold orderCommand acceptOrder orderSampled
  split
  case h_12 =>
    simp only [*]
    rfl
  all_goals
    rename_i hk
    obtain rfl := eq_of_code hk
    rfl

theorem orderSampled_sameBut (kind : Byte) (pins : Pins) (s : State) : SameBut [.inputs] s (orderSampled kind pins s) := by
  unfold orderSampled
  split
  · exact takePins_sameBut pins s
  · exact takePins_sameBut pins s
  · exact SameBut.refl _ s

/-- The state in which the tests find an order. -/
def orderFound (kind : Byte) (h : Header) (pins : Pins) (s : State) : State := arrived h (orderSampled kind pins s)

theorem orderFound_sameBut (kind : Byte) (h : Header) (pins : Pins) (s : State) :
    SameBut (.inputs :: arriving) s (orderFound kind h pins s) :=
  (orderSampled_sameBut kind pins s).comp (arrived_sameBut h _) (by decide) (by decide)

/-- The test of reaching reads no pin level. -/
theorem Reaches.orderSampled {kind : Byte} {h : Header} {f : Frame} {s : State} (hr : Reaches s h f) (pins : Pins) :
    Reaches (orderSampled kind pins s) h f := by
  unfold Machine.orderSampled
  split
  · exact hr
  · exact hr
  · exact hr

/-- A station that an order reaches acts on it (R22). -/
theorem Reaches.actsOnOrder {kind : Byte} {h : Header} {b : OrderBody} {s : State} (hr : Reaches s h (.order kind b)) :
    actsOnOrder s.memb.state = true := by
  obtain ⟨-, -, -, -, hacts⟩ := hr
  cases hm : s.memb.state <;> rw [hm] at hacts <;> first | rfl | cases hacts

/-! ## The tests -/

/-- The first test that an order fails, as the outcome and detail of its refusal (R90, R91, R93, R95). -/
def orderRefusal (s : State) (kind : Byte) (b : OrderBody) : Option (OrderOutcome × Byte) :=
  if orderFormFails kind b then some (.refused, detailForm)
  else if !orderServed s kind then some (.notServing, 0#8)
  else if orderApprovalsFail s kind b then some (.refused, detailBadApproval)
  else none

section Tests

variable {kind : Byte} {h : Header} {b : OrderBody} {pins : Pins} {s : State}

theorem orderRefusal_form (hf : orderFormFails kind b = true) : orderRefusal s kind b = some (.refused, detailForm) := if_pos hf

theorem orderRefusal_notServing (hf : orderFormFails kind b = false) (hs : orderServed s kind = false) :
    orderRefusal s kind b = some (.notServing, 0#8) := by
  simp [orderRefusal, hf, hs]

theorem orderRefusal_badApproval (hf : orderFormFails kind b = false) (hs : orderServed s kind = true)
    (ha : orderApprovalsFail s kind b = true) : orderRefusal s kind b = some (.refused, detailBadApproval) := by
  simp [orderRefusal, hf, hs, ha]

theorem orderRefusal_none (hf : orderFormFails kind b = false) (hs : orderServed s kind = true)
    (ha : orderApprovalsFail s kind b = false) : orderRefusal s kind b = none := by
  simp [orderRefusal, hf, hs, ha]

/-- A kind code outside 2 to 12 fails the form test (R90). -/
theorem orderFormFails_unknown (hk : ¬(2 ≤ kind.toNat ∧ kind.toNat ≤ 12)) : orderFormFails kind b = true := by
  have hrange : (decide (2 ≤ kind.toNat) && decide (kind.toNat ≤ 12)) = false := by
    rw [← Bool.decide_and]
    exact decide_eq_false hk
  unfold orderFormFails
  rw [hrange]
  rfl

/-- The tests read the station state, the live set, the straps and the directory only. -/
theorem SameBut.orderRefusal {c : List Part} {t : State} (hst : SameBut c s t)
    (hc : ∀ p ∈ [Part.station, .live, .leaving, .straps, .slots, .usage, .seq, .cabinetKey], p ∉ c) :
    Machine.orderRefusal t kind b = Machine.orderRefusal s kind b := by
  obtain ⟨hstate, -⟩ := hst .station (hc _ (by decide))
  have hstraps : t.straps = s.straps := hst .straps (hc _ (by decide))
  have hdir : t.dir = s.dir := hst.dir fun p hp => hc p (by revert p; decide)
  have hserving : Machine.serving t = Machine.serving s := hst.serving fun p hp => hc p (by revert p; decide)
  have hserved : orderServed t kind = orderServed s kind := by
    unfold orderServed isLive
    rw [hstate, hserving]
  have hnode : ownNode t = ownNode s := ownNode_of_straps hstraps
  have happroved : orderApprovalsFail t kind b = orderApprovalsFail s kind b := by
    unfold orderApprovalsFail orderApprovalMessage
    rw [hdir, hnode]
  unfold Machine.orderRefusal
  rw [hserved, happroved]

theorem orderRefusal_found : orderRefusal (orderFound kind h pins s) kind b = orderRefusal s kind b :=
  (orderFound_sameBut kind h pins s).orderRefusal (by decide)

/-- An order that fails a test is refused with that test's outcome, one that passes them all is handed to its kind (R95). -/
theorem orderArrives_eq (accept : State → State) (hacts : actsOnOrder s.memb.state = true) : orderArrives kind accept h b s
    = (orderRefusal s kind b).elim (accept s) fun r => refuseOrder h kind b r.1 r.2 s := by
  unfold orderArrives orderRefusal
  rw [hacts, if_neg (by decide)]
  split
  · rfl
  · split
    · rfl
    · split <;> rfl

theorem orderArrives_refused {accept : State → State} {o : OrderOutcome} {d : Byte} (hacts : actsOnOrder s.memb.state = true)
    (hf : orderRefusal s kind b = some (o, d)) : orderArrives kind accept h b s = refuseOrder h kind b o d s := by
  rw [orderArrives_eq accept hacts, hf]
  rfl

theorem orderArrives_accepted {accept : State → State} (hacts : actsOnOrder s.memb.state = true)
    (ha : orderRefusal s kind b = none) : orderArrives kind accept h b s = accept s := by
  rw [orderArrives_eq accept hacts, ha]
  rfl

theorem actsOnOrder_found (hr : Reaches s h (.order kind b)) : actsOnOrder (orderFound kind h pins s).memb.state = true := by
  rw [((orderFound_sameBut kind h pins s) .station (by decide)).1]
  exact hr.actsOnOrder

theorem exec_order_refused {o : OrderOutcome} {d : Byte} (hr : Reaches s h (.order kind b))
    (hf : orderRefusal s kind b = some (o, d)) :
    exec (orderCommand kind h b pins) s = .next (settle (refuseOrder h kind b o d (orderFound kind h pins s))) := by
  rw [exec_orderCommand, receive_reaches _ (hr.orderSampled pins)]
  exact congrArg (fun u => Host.Outcome.next (settle u))
    (orderArrives_refused (s := orderFound kind h pins s) (actsOnOrder_found hr) (orderRefusal_found.trans hf))

theorem exec_order_accepted (hr : Reaches s h (.order kind b)) (ha : orderRefusal s kind b = none) :
    exec (orderCommand kind h b pins) s = .next (settle (acceptOrder kind h b (orderFound kind h pins s))) := by
  rw [exec_orderCommand, receive_reaches _ (hr.orderSampled pins)]
  exact congrArg (fun u => Host.Outcome.next (settle u))
    (orderArrives_accepted (s := orderFound kind h pins s) (actsOnOrder_found hr) (orderRefusal_found.trans ha))

end Tests

/-! ## Refused orders (R95) -/

/-- What the refusal of an order leaves at the end of the step. -/
theorem refuseOrder_settled {c e : List Part} {h : Header} {kind : Byte} {b : OrderBody} {s u : State} (o : OrderOutcome)
    (d : Byte) (hu : SameBut c s u) (hc : ∀ p, p ∈ c → p ∈ e) (he : ∀ p, p ∈ reacting → p ∈ e) :
    RefusedOrder h kind b o d (settle (refuseOrder h kind b o d u)) ∧ SameBut e s (settle (refuseOrder h kind b o d u)) :=
  ⟨hasFrame_settled_request (custodyReport_lasting h.src _) u (beq_self_eq_true _),
    hu.comp (((refuseOrder_sameBut h kind b o d u).mono (by decide)).trans (settle_sameBut _)) hc he⟩

theorem yields_refused {kind : Byte} {h : Header} {b : OrderBody} {pins : Pins} {s : State} {o : OrderOutcome} {d : Byte}
    (hx : exec (orderCommand kind h b pins) s = .next (settle (refuseOrder h kind b o d (orderFound kind h pins s)))) :
    Yields (orderCommand kind h b pins) s fun t => RefusedOrder h kind b o d t ∧ SameBut (.inputs :: gatewayFrame) s t :=
  yields_settle hx rfl (refuseOrder_settled o d (orderFound_sameBut kind h pins s) (by decide) (by decide))

/-- The room test of a round kind and the record test of RESTART and YIELD (R94, R96, R97, R99). -/
theorem acceptOrder_busy {kind : Byte} {h : Header} {b : OrderBody} {s : State} (hf : orderFormFails kind b = false)
    (hbusy : (kind.toNat ≤ 9 ∧ 4 ≤ s.rounds.queue.length)
      ∨ ((kind.toNat = 10 ∨ kind.toNat = 11) ∧ s.cust.record ≠ none)) :
    acceptOrder kind h b s = refuseOrder h kind b .busy 0#8 s := by
  have hrange : 2 ≤ kind.toNat ∧ kind.toNat ≤ 12 :=
    Classical.byContradiction fun hk => by rw [orderFormFails_unknown hk] at hf; cases hf
  have hroom : kind.toNat ≤ 9 → Config.custodyItems ≤ s.rounds.queue.length := fun hk => by
    rcases hbusy with ⟨-, hlen⟩ | ⟨hdirect, -⟩
    · exact hlen
    · omega
  have hrecord : 10 ≤ kind.toNat → s.cust.record.isSome = true := fun hk => by
    rcases hbusy with ⟨hle, -⟩ | ⟨-, hsome⟩
    · omega
    · exact Option.isSome_iff_ne_none.mpr hsome
  unfold acceptOrder
  split
  case h_12 =>
    simp only [imp_false] at *
    omega
  case h_11 hk => omega
  case h_9 hk | h_10 hk =>
    obtain rfl := eq_of_code hk
    exact if_pos (hrecord (by decide))
  all_goals
    rename_i hk
    obtain rfl := eq_of_code hk
    exact if_pos (hroom (by decide))

/-- Settles O44: the first failing test, or the room and record tests, decide the report; the rest is the end of the step. -/
theorem orderRefusalIsReported : Obligations.OrderRefusalIsReported := by
  refine ⟨?_, ?_, ?_, ?_, ?_⟩
  · intro kind h b pins s hr hf
    exact yields_refused (exec_order_refused hr (orderRefusal_form hf))
  · intro kind h b pins s hr hf hs
    exact yields_refused (exec_order_refused hr (orderRefusal_notServing hf hs))
  · intro kind h b pins s hr hf hs ha
    exact yields_refused (exec_order_refused hr (orderRefusal_badApproval hf hs ha))
  · intro kind h b pins s hr hf hs ha hbusy
    have hfound := orderFound_sameBut kind h pins s
    have hqueue : (orderFound kind h pins s).rounds.queue = s.rounds.queue := hfound .custodyQueue (by decide)
    have hrecord : (orderFound kind h pins s).cust.record = s.cust.record := hfound .record (by decide)
    have hx := exec_order_accepted (pins := pins) hr (orderRefusal_none hf hs ha)
    rw [acceptOrder_busy hf (by rw [hqueue, hrecord]; exact hbusy)] at hx
    exact yields_refused hx
  · intro kind h b s hk hr
    have harr := arrived_sameBut h s
    have hrefused : onOrderUnknown h kind b (arrived h s) = refuseOrder h kind b .refused detailForm (arrived h s) :=
      orderArrives_refused (by rw [(harr .station (by decide)).1]; exact hr.actsOnOrder)
        (orderRefusal_form (orderFormFails_unknown hk))
    have hx : exec (.orderUnknownKind h kind b) s = .next (settle (onOrderUnknown h kind b (arrived h s))) :=
      congrArg Host.Outcome.next (receive_reaches (onOrderUnknown h kind b) hr)
    exact yields_settle hx hrefused (refuseOrder_settled .refused detailForm harr (by decide) (by decide))

/-! ## The head item at the end of the step (R64, R86) -/

theorem takeRoom_quiet {s : State} (ha : firstComplete s.cust = none) : takeRoom s = s := by
  unfold takeRoom
  split
  · rw [ha]
  · rfl

theorem admissionCheck_notHeld {s : State} (ho : s.rounds.own.phase ≠ .held) : admissionCheck s = s := by
  unfold admissionCheck
  split
  · rename_i hheld _
    exact absurd hheld ho
  · rfl

theorem custodyLoop_quiet (k : Nat) {s : State} (ha : firstComplete s.cust = none) (ho : s.rounds.own.phase ≠ .held) :
    custodyLoop k s = s := by
  induction k with
  | zero => rfl
  | succ k ih => rw [custodyLoop, takeRoom_quiet ha, takeRoom_quiet ha, admissionCheck_notHeld ho, ih]

theorem hasFrame_custodyLoop {p : TxFrame → Bool} (k : Nat) {s : State} (h : hasFrame s p = true) :
    hasFrame (custodyLoop k s) p = true := by
  induction k generalizing s with
  | zero => exact h
  | succ k ih => exact ih (hasFrame_admissionCheck (hasFrame_takeRoom (hasFrame_takeRoom h)))

/-- After the custody queue's work the end of a step leaves the round controller alone. -/
theorem settle_rounds (s : State) : (settle s).rounds = (custodyWork s).rounds :=
  ((serveQueries_sameBut _).rounds (by decide)).trans ((considerPosted_sameBut _).rounds (by decide))

theorem hasFrame_settle_work {p : TxFrame → Bool} (hp : Lasting p) {s : State} (h : hasFrame (custodyWork s) p = true) :
    hasFrame (settle s) p = true :=
  hasFrame_serveQueries (hasFrame_considerPosted hp h)

theorem propose_lasting (b : ProposeBody) : Lasting (fun f => f == TxFrame.propose b) :=
  ⟨fun _ _ _ _ => rfl, fun _ => rfl, fun _ _ => rfl⟩

theorem outcomeReport_lasting (x : CustodyItem) (r : Option (Byte × Byte)) (o : OrderOutcome) (d : Byte) (v : Half) (q : Word) :
    Lasting (fun f => f == outcomeReport x r o d v q) :=
  ⟨fun _ _ _ _ => rfl, fun _ => rfl, fun _ _ => rfl⟩

/-- The clash of a proposal reads the open round list and the directory only. -/
theorem SameBut.proposalClash {c : List Part} {s t : State} (h : SameBut c s t)
    (hc : ∀ p ∈ [Part.roundList, .slots, .usage, .seq, .cabinetKey], p ∉ c) (slot kind : Byte) (l : Label) :
    Machine.proposalClash t slot kind l = Machine.proposalClash s slot kind l := by
  have hlist : t.rounds.list = s.rounds.list := h .roundList (hc _ (by decide))
  have hdir : t.dir = s.dir := h.dir fun p hp => hc p (by revert p; decide)
  unfold Machine.proposalClash labelTaken frozenSlot openEntries
  rw [hlist, hdir]

theorem SameBut.ownRoundId {c : List Part} {s t : State} (h : SameBut c s t) (hs : Part.straps ∉ c)
    (hq : t.rounds.own.proposeQueued = s.rounds.own.proposeQueued) (hn : t.rounds.own.number = s.rounds.own.number) :
    Machine.ownRoundId t = Machine.ownRoundId s := by
  unfold Machine.ownRoundId
  rw [hq, hn, self_of_straps (h .straps hs)]

/-- A station that serves finds its own round HELD with an item at the head, and no area waits for room. -/
structure HeadChecked (x : CustodyItem) (rest : List CustodyItem) (s : State) : Prop where
  held : s.rounds.own.phase = .held
  queue : s.rounds.queue = x :: rest
  serves : serving s = true
  noneComplete : firstComplete s.cust = none

section Head

variable {x : CustodyItem} {rest : List CustodyItem} {s : State}

theorem HeadChecked.custodyWork (hs : HeadChecked x rest s) : custodyWork s = custodyLoop 7 (admissionCheck s) := by
  unfold Machine.custodyWork
  rw [custodyLoop, takeRoom_quiet hs.noneComplete, takeRoom_quiet hs.noneComplete]

theorem HeadChecked.admissionCheck_proposes (hs : HeadChecked x rest s)
    (hc : proposalClash s x.slot x.kind.code x.label = none) : admissionCheck s = proposeItem x s := by
  unfold admissionCheck
  rw [hs.held, hs.queue]
  dsimp only
  rw [if_pos hs.serves, hc]

theorem HeadChecked.admissionCheck_ends {o : OrderOutcome} (hs : HeadChecked x rest s)
    (hc : proposalClash s x.slot x.kind.code x.label = some o) : admissionCheck s = endPlain o 0#8 s := by
  unfold admissionCheck
  rw [hs.held, hs.queue]
  dsimp only
  rw [if_pos hs.serves, hc]

theorem proposeItem_rounds (x : CustodyItem) (s : State) : (proposeItem x s).rounds = { s.rounds with
    counter := s.rounds.counter + 1#8
    own := { s.rounds.own with phase := .proposed, number := s.rounds.counter, proposeQueued := true, onWithdrawn := none } } :=
  (request_sameBut _ _).rounds (by decide)

/-- A head item that clashes with nothing is proposed under the next round number (R64). -/
theorem HeadChecked.proposed (hs : HeadChecked x rest s) (hc : proposalClash s x.slot x.kind.code x.label = none) :
    (settle s).rounds = (proposeItem x s).rounds
      ∧ hasFrame (settle s) (fun f => f == .propose (proposeOf s.rounds.counter x)) = true := by
  have hphase : (proposeItem x s).rounds.own.phase ≠ .held := by
    rw [proposeItem_rounds]
    exact nofun
  have harea : firstComplete (proposeItem x s).cust = none := by
    rw [show (proposeItem x s).cust = s.cust from (request_sameBut _ _).cust (by decide)]
    exact hs.noneComplete
  have hwork : Machine.custodyWork s = proposeItem x s := by
    rw [hs.custodyWork, hs.admissionCheck_proposes hc, custodyLoop_quiet 7 harea hphase]
  refine ⟨by rw [settle_rounds, hwork], hasFrame_settle_work (propose_lasting _) ?_⟩
  rw [hwork]
  exact hasFrame_requested (propose_lasting _).1 _ (beq_self_eq_true _)

theorem hasFrame_endItem_report (o : OrderOutcome) (d : Byte) (v : Half) (q : Word) (hq : s.rounds.queue = x :: rest) :
    hasFrame (endItem o d v q s) (fun f => f == outcomeReport x (ownRoundId s) o d v q) = true := by
  unfold endItem
  rw [hq]
  dsimp only
  rw [hasFrame_of_link (freeQueuedArea_link _ _)]
  exact hasFrame_requested (outcomeReport_lasting ..).1 s (beq_self_eq_true (outcomeReport x (ownRoundId s) o d v q))

/-- A head item that clashes is reported (R64, R86). -/
theorem HeadChecked.reported {o : OrderOutcome} (hs : HeadChecked x rest s)
    (hc : proposalClash s x.slot x.kind.code x.label = some o) :
    hasFrame (settle s) (fun f => f == outcomeReport x (ownRoundId s) o 0#8 0#16 0#32) = true := by
  refine hasFrame_settle_work (outcomeReport_lasting ..) ?_
  rw [hs.custodyWork, hs.admissionCheck_ends hc]
  exact hasFrame_custodyLoop 7 (hasFrame_endItem_report o 0#8 0#16 0#32 hs.queue)

/-- The end of an item that is no assembly's frees no area (R104). -/
theorem endItem_cust (o : OrderOutcome) (d : Byte) (v : Half) (q : Word) (hq : s.rounds.queue = x :: rest)
    (hx : x.byAssembly = false) : (endItem o d v q s).cust = s.cust := by
  have hfree : ∀ u : State, freeQueuedArea x u = u := fun u => by
    unfold freeQueuedArea
    rw [hx]
    rfl
  unfold endItem
  rw [hq]
  dsimp only
  rw [hfree]
  exact (request_sameBut _ s).cust (by decide)

/-- An only item that clashes leaves an empty queue and no own round (R63, R86). -/
theorem HeadChecked.leaves {o : OrderOutcome} (hs : HeadChecked x [] s) (hx : x.byAssembly = false)
    (hc : proposalClash s x.slot x.kind.code x.label = some o) :
    (settle s).rounds.queue = [] ∧ (settle s).rounds.own.phase = .none ∧ (settle s).rounds.counter = s.rounds.counter := by
  obtain ⟨hqueue, hown⟩ := endItem_cons o 0#8 0#16 0#32 hs.queue
  have hwork : Machine.custodyWork s = endPlain o 0#8 s := by
    rw [hs.custodyWork, hs.admissionCheck_ends hc]
    refine custodyLoop_quiet 7 ?_ ?_
    · unfold endPlain
      rw [endItem_cust o 0#8 0#16 0#32 hs.queue hx]
      exact hs.noneComplete
    · unfold endPlain
      rw [hown]
      exact nofun
  rw [settle_rounds, hwork]
  exact ⟨hqueue, congrArg OwnRound.phase hown, endPlain_sameBut o 0#8 s .roundCounter (by decide)⟩

end Head

/-! ## Accepted orders of round kinds (R94) -/

section RoundOrder

variable {kind : ChangeKind} {h : Header} {b : OrderBody} {c : Instr} {s : State}

/-- The item of an accepted order in the custody queue, before the end of the step. -/
def orderQueued (kind : ChangeKind) (h : Header) (b : OrderBody) (s : State) : State :=
  addItem (orderItem s.dir h kind b) (arrived h s)

theorem orderQueued_sameBut : SameBut (.custodyQueue :: .ownRound :: arriving) s (orderQueued kind h b s) :=
  (arrived_sameBut h s).comp (addItem_sameBut _ _) (by decide) (by decide)

theorem orderQueued_queue : (orderQueued kind h b s).rounds.queue = s.rounds.queue ++ [orderItem s.dir h kind b] :=
  congrArg (· ++ [orderItem s.dir h kind b]) (arrived_sameBut h s .custodyQueue (by decide))

/-- A station without an own round is now HELD (R63). -/
theorem orderQueued_own : (orderQueued kind h b s).rounds.own
    = if s.rounds.own.phase = .none then { s.rounds.own with phase := .held } else s.rounds.own := by
  have hown : (arrived h s).rounds.own = s.rounds.own := arrived_sameBut h s .ownRound (by decide)
  rw [← hown]
  rfl

theorem orderQueued_ownRoundId : ownRoundId (orderQueued kind h b s) = ownRoundId s := by
  refine orderQueued_sameBut.ownRoundId (by decide) ?_ ?_
  · rw [orderQueued_own]
    split <;> rfl
  · rw [orderQueued_own]
    split <;> rfl

theorem orderQueued_clash (slot code : Byte) (l : Label) :
    proposalClash (orderQueued kind h b s) slot code l = proposalClash s slot code l :=
  orderQueued_sameBut.proposalClash (by decide) slot code l

theorem orderQueued_counter : (orderQueued kind h b s).rounds.counter = s.rounds.counter :=
  orderQueued_sameBut .roundCounter (by decide)

/-- At a serving station whose own round is NONE or HELD the head item is checked at the end of the step. -/
theorem orderQueued_headChecked {x : CustodyItem} {rest : List CustodyItem} (hs : serving s = true)
    (ha : firstComplete s.cust = none) (hp : s.rounds.own.phase = .none ∨ s.rounds.own.phase = .held)
    (hq : s.rounds.queue ++ [orderItem s.dir h kind b] = x :: rest) : HeadChecked x rest (orderQueued kind h b s) where
  held := by
    rw [orderQueued_own]
    split
    · rfl
    · exact hp.resolve_left ‹_›
  queue := orderQueued_queue.trans hq
  serves := (orderQueued_sameBut.serving (by decide)).trans hs
  noneComplete := by
    rw [orderQueued_sameBut.cust (by decide)]
    exact ha

/-- The head item after an order has joined the queue, proposed under the next round number (R64). -/
theorem orderQueued_proposed {x : CustodyItem} {rest : List CustodyItem} (hx : HeadChecked x rest (orderQueued kind h b s))
    (hc : proposalClash s x.slot x.kind.code x.label = none) {t : State} (ht : t = settle (orderQueued kind h b s)) :
    t.rounds.queue = s.rounds.queue ++ [orderItem s.dir h kind b] ∧ t.rounds.own.phase = .proposed
      ∧ t.rounds.own.number = s.rounds.counter ∧ t.rounds.counter = s.rounds.counter + 1#8
      ∧ hasFrame t (fun f => f == .propose (proposeOf s.rounds.counter x)) = true := by
  obtain ⟨hrounds, hframe⟩ := hx.proposed ((orderQueued_clash ..).trans hc)
  rw [proposeItem_rounds] at hrounds
  rw [orderQueued_counter] at hrounds hframe
  rw [ht, hrounds]
  exact ⟨orderQueued_queue, rfl, rfl, rfl, hframe⟩

theorem orderQueued_reported {x : CustodyItem} {rest : List CustodyItem} {o : OrderOutcome}
    (hx : HeadChecked x rest (orderQueued kind h b s)) (hc : proposalClash s x.slot x.kind.code x.label = some o) :
    hasFrame (settle (orderQueued kind h b s)) (fun f => f == outcomeReport x
      (if s.rounds.own.proposeQueued then ownRoundId s else none) o 0#8 0#16 0#32) = true := by
  have hid : (if s.rounds.own.proposeQueued then ownRoundId s else none) = ownRoundId (orderQueued kind h b s) := by
    rw [orderQueued_ownRoundId]
    unfold ownRoundId
    split <;> rfl
  rw [hid]
  exact hx.reported ((orderQueued_clash ..).trans hc)

/-- With an own round under way the item waits (R63). -/
theorem orderQueued_waits (ha : firstComplete s.cust = none) (hn : s.rounds.own.phase ≠ .none)
    (hh : s.rounds.own.phase ≠ .held) : (settle (orderQueued kind h b s)).rounds = (orderQueued kind h b s).rounds
      ∧ (orderQueued kind h b s).rounds.own = s.rounds.own := by
  have hown : (orderQueued kind h b s).rounds.own = s.rounds.own := orderQueued_own.trans (if_neg hn)
  have harea : firstComplete (orderQueued kind h b s).cust = none := by
    rw [orderQueued_sameBut.cust (by decide)]
    exact ha
  exact ⟨by rw [settle_rounds, custodyWork_quiet harea (.inl (by rw [hown]; exact hh))], hown⟩

/-- An accepted order of a round kind is its item in the custody queue, and the end of the step. -/
theorem exec_roundOrder (hc : roundOrder kind h b = some c) (hr : Reaches s h (.order kind.code b))
    (ht : orderRefusal s kind.code b = none) (hroom : s.rounds.queue.length < 4) :
    exec c s = .next (settle (orderQueued kind h b s)) := by
  have hdir : (arrived h s).dir = s.dir := (arrived_sameBut h s).dir (by decide)
  have hqueue : (arrived h s).rounds.queue = s.rounds.queue := arrived_sameBut h s .custodyQueue (by decide)
  have hadd : acceptRoundOrder kind h b (arrived h s) = orderQueued kind h b s := by
    unfold acceptRoundOrder orderQueued
    rw [hqueue, if_neg (show ¬ Config.custodyItems ≤ _ from Nat.not_le_of_lt hroom), hdir]
  have hx := exec_order_accepted (pins := s.inputs.pins) hr ht
  rw [← hadd]
  cases kind <;> cases hc <;> exact hx

theorem orderServed_change (s : State) (kind : ChangeKind) : orderServed s kind.code = serving s := by
  cases kind <;> rfl

end RoundOrder

/-- Settles O43: the item joins the queue, and the end of the step leaves it there, proposes the head or reports its clash. -/
theorem roundOrderIsQueued : Obligations.RoundOrderIsQueued := by
  intro kind h b c s hc hr hf hs ha hroom hcomplete item
  have hx := exec_roundOrder hc hr (orderRefusal_none hf ((orderServed_change s kind).trans hs) ha) hroom
  have hhead := fun hp x rest => orderQueued_headChecked (kind := kind) (h := h) (b := b) (x := x) (rest := rest) hs hcomplete hp
  refine yields_settle hx rfl ⟨?_, ?_, ?_, ?_, ?_⟩
  · intro hn hh
    obtain ⟨hrounds, hown⟩ := orderQueued_waits (kind := kind) (h := h) (b := b) hcomplete hn hh
    rw [hrounds]
    exact ⟨orderQueued_queue, hown⟩
  · intro hn hq hclash
    have hproposed := orderQueued_proposed (hhead (.inl hn) item [] (by rw [hq]; rfl)) hclash rfl
    rw [hq] at hproposed
    exact hproposed
  · intro o hn hq hclash
    have hchecked := hhead (.inl hn) item [] (by rw [hq]; rfl)
    obtain ⟨hqueue, hphase, hcounter⟩ := hchecked.leaves rfl ((orderQueued_clash ..).trans hclash)
    exact ⟨hqueue, hphase, hcounter.trans orderQueued_counter, orderQueued_reported hchecked hclash⟩
  · intro x rest hh hq
    have hchecked := hhead (.inr hh) x (rest ++ [item]) (by rw [hq]; rfl)
    exact ⟨fun hclash => orderQueued_proposed hchecked hclash rfl, fun o hclash => orderQueued_reported hchecked hclash⟩
  · exact orderQueued_sameBut.comp (settle_sameBut _) (by decide) (by decide)

/-! ## RESTART and YIELD out of LIVE (R96, R97, R99) -/

/-- The warm start that a YIELD causes differs in the mark that it keeps (R26; log 44). -/
theorem warmValues_yieldMark (keep : Bool) (s : State) : warmValues keep s = { warmValues false s with
    memb := { (warmValues false s).memb with yieldMark := keep && s.memb.yieldMark } } := by
  have hmark : (clearCounters (clearVolatile s)).memb.yieldMark = s.memb.yieldMark := by
    obtain ⟨-, -, hmemb, -⟩ := clearVolatile_keeps s
    exact congrArg Membership.yieldMark hmemb
  rw [← hmark]
  unfold warmValues startPresence
  dsimp only
  split <;> rfl

theorem warmState_valid {straps : Straps} (d : Directory) (hv : straps.valid = true) :
    warmState straps d = .listening ∨ warmState straps d = .blank := by
  unfold warmState
  rw [if_pos hv]
  split
  · exact .inl rfl
  · exact .inr rfl

/-- A recorded order's DONE is reported where a state that sends was entered (R99). -/
theorem hasFrame_reportDirectOrder {s : State} {r : DirectRecord} (hr : s.cust.record = some r)
    (hs : s.memb.state = .listening ∨ s.memb.state = .blank) :
    hasFrame (reportDirectOrder s) (fun f => f == .custodyReport r.gateway
      (orderResultBody r.tag false 255#8 r.kind none .done s.memb.state.code 0#16 0#32)) = true := by
  unfold reportDirectOrder
  rw [hr]
  dsimp only
  rcases hs with hs | hs
  · rw [hs]
    exact hasFrame_requested (custodyReport_lasting ..).1 _ (beq_self_eq_true (TxFrame.custodyReport _ _))
  · rw [hs]
    exact hasFrame_requested (custodyReport_lasting ..).1 _ (beq_self_eq_true (TxFrame.custodyReport _ _))

/-- What a warm start leaves of the blocks that its statement names, the window, the record and the link apart. -/
structure Warmed (sampled : Straps) (d : Directory) (mark : Bool) (s : State) : Prop where
  state : s.memb.state = warmState sampled d
  straps : s.straps = sampled
  live : s.memb.live = 0#8
  yieldMark : s.memb.yieldMark = mark
  dir : s.dir = if sampled.valid then d.dropReserved else Directory.erased
  areas : s.cust.areas = Vector.replicate 2 none
  rounds : s.rounds = RoundControl.empty
  lines : s.lines = LineTable.empty
  pool : s.pool = Pool.empty
  queries : s.rep.queries = []

theorem warmValues_warmed (keep : Bool) (s : State) :
    Warmed (strapsOf s.inputs.pins) s.dir (keep && s.memb.yieldMark) (warmValues keep s) := by
  obtain ⟨-, hrounds, hcust, -, hlines, hpool, -, hrep, -⟩ := clearedBlocks s
  have hareas := congrArg Custody.areas hcust
  have hqueries := congrArg ReportUnit.queries hrep
  rw [warmValues_yieldMark, warmValues_eq]
  exact ⟨rfl, rfl, rfl, rfl, rfl, hareas, hrounds, hlines, hpool, hqueries⟩

/-- What a warm start leaves apart from those blocks: an empty queue, and the record and the window as they were. -/
theorem warmValues_apart (keep : Bool) (s : State) : (warmValues keep s).link.queue = []
    ∧ (warmValues keep s).cust.record = s.cust.record ∧ (warmValues keep s).tamper = s.tamper
    ∧ (warmValues keep s).inputs.pins = s.inputs.pins := by
  obtain ⟨hlink, -, hcust, -, -, -, -, -, htamper, -⟩ := clearedBlocks s
  have hrecord := congrArg Custody.record hcust
  rw [warmValues_yieldMark, warmValues_eq]
  exact ⟨congrArg Link.queue hlink, hrecord, htamper, rfl⟩

section Warm

variable {sampled : Straps} {d : Directory} {mark : Bool} {s : State}

/-- The end of the step finds nothing to do after a warm start. -/
theorem Warmed.settle (hs : Warmed sampled d mark s) : settle s = s :=
  settle_quiet (firstComplete_none hs.areas) (.inr (.inl (by rw [hs.rounds]; rfl))) (by rw [hs.lines]; rfl) hs.queries

/-- The report of the direct order empties the record and keeps what the warm start has left. -/
theorem Warmed.reportDirectOrder (hs : Warmed sampled d mark s) (hq : s.link.queue = []) :
    Warmed sampled d mark (reportDirectOrder s) ∧ (reportDirectOrder s).cust.record = none
      ∧ (reportDirectOrder s).tamper = s.tamper := by
  obtain ⟨q, n, hreported, -⟩ := reportDirectOrder_eq hq
  rw [hreported]
  exact ⟨⟨hs.state, hs.straps, hs.live, hs.yieldMark, hs.dir, hs.areas, hs.rounds, hs.lines, hs.pool, hs.queries⟩,
    rfl, rfl⟩

theorem Warmed.closeWindow (hs : Warmed sampled d mark s) (hw : s.tamper.window = none ∨ s.inputs.pins.doorOpen = false) :
    Warmed sampled d mark (closeWindow s) ∧ (closeWindow s).tamper.window = none ∧ (closeWindow s).link = s.link
      ∧ (closeWindow s).cust = s.cust := by
  obtain ⟨tm, hclosed, hnone, -⟩ := closeWindow_doorClosed hw
  rw [hclosed]
  exact ⟨⟨hs.state, hs.straps, hs.live, hs.yieldMark, hs.dir, hs.areas, hs.rounds, hs.lines, hs.pool, hs.queries⟩,
    hnone, rfl, rfl⟩

end Warm

/-- What the warm start of a direct order leaves at the end of the step, `s` the state that the order reached (R23, R99, R179). -/
theorem warmStart_settled (keep : Bool) {kind : Byte} {h : Header} {b : OrderBody} {pins : Pins} {s u : State}
    (hd : u.dir = s.dir) (hp : u.inputs.pins = pins) (hr : u.cust.record = some ⟨h.src, b.tag, kind⟩)
    (hw : u.tamper.window = none ∨ pins.doorOpen = false) :
    WarmStarted (strapsOf pins) kind h b s (settle (warmStart keep u))
      ∧ (settle (warmStart keep u)).memb.yieldMark = (keep && u.memb.yieldMark) := by
  subst hp
  obtain ⟨hqueue, hrecord, htamper, hpins⟩ := warmValues_apart keep u
  obtain ⟨hwarm, hwindow, hlink, hcust⟩ := (warmValues_warmed keep u).closeWindow (by rw [htamper, hpins]; exact hw)
  obtain ⟨hleft, hempty, hkept⟩ := hwarm.reportDirectOrder (by rw [hlink]; exact hqueue)
  have hdone := hasFrame_reportDirectOrder (s := closeWindow (warmValues keep u)) (by rw [hcust, hrecord]; exact hr)
  have hquiet : settle (warmStart keep u) = reportDirectOrder (closeWindow (warmValues keep u)) := hleft.settle
  unfold WarmStarted
  rw [hquiet, ← hd]
  refine ⟨⟨hleft.state, hleft.straps, hleft.live, hempty, hleft.dir, hleft.rounds, hleft.lines, hleft.pool,
    by rw [hkept, hwindow], fun hv => ?_⟩, hleft.yieldMark⟩
  rw [hwarm.state] at hdone
  exact hdone (warmState_valid u.dir hv)

/-! ## RESTART in LIVE (R96) -/

/-- A LIVE station that finds a cause is leaving, its membership unit otherwise as before (R35). -/
theorem selfExpel_memb {r : ExpelReason} {s : State} (hl : s.memb.state = .live) :
    (selfExpel r s).memb = { s.memb with leaving := true } := by
  have hlive : isLive s = true := by unfold isLive; rw [hl]; rfl
  cases hn : s.memb.leaving with
  | true =>
    have hsame : selfExpel r s = s := if_neg (by simp [hn])
    rw [hsame, ← hn]
  | false =>
    rw [selfExpel_eq hlive hn]
    unfold departed
    rw [(stopServing_sameBut _).memb (by decide), (retract_sameBut _ _).memb (by decide),
      (withdrawPropose_sameBut _).memb (by decide), (retractClaims_sameBut _ _).memb (by decide),
      (request_sameBut _ _).memb (by decide)]

/-- The RESTART recorded and outstanding (R96, R99). -/
def restartRaised (h : Header) (b : OrderBody) (s : State) : State :=
  { recordOrder h codeRestart b s with memb := { s.memb with restartOutstanding := true } }

theorem restartRaised_sameBut (h : Header) (b : OrderBody) (s : State) :
    SameBut [.record, .leaving] s (restartRaised h b s) := by
  intro p hp
  cases p <;> first | rfl | exact ⟨rfl, rfl⟩ | exact ⟨rfl, rfl, rfl⟩ | exact absurd (by decide) hp

section Direct

variable {h : Header} {b : OrderBody} {s : State}

theorem acceptRestart_live (hrec : s.cust.record = none) (hl : s.memb.state = .live) :
    acceptRestart h b s = selfExpel .restart (restartRaised h b s) := by
  unfold acceptRestart
  rw [hrec, if_neg (by decide)]
  exact if_pos (by simp [isLive, recordOrder, hl])

theorem acceptRestart_warm (hrec : s.cust.record = none) (hl : s.memb.state ≠ .live) :
    acceptRestart h b s = warmStart false (recordOrder h codeRestart b s) := by
  unfold acceptRestart
  rw [hrec, if_neg (by decide)]
  exact if_neg (by simp [isLive, recordOrder, hl])

/-- The yield mark set, the YIELD recorded (R97, R99). -/
def yieldMarked (h : Header) (b : OrderBody) (s : State) : State :=
  { recordOrder h codeYield b s with memb := { s.memb with yieldMark := true } }

theorem acceptYield_warm (hrec : s.cust.record = none) : acceptYield h b s = warmStart true (yieldMarked h b s) := by
  unfold acceptYield
  rw [hrec, if_neg (by decide)]
  rfl

/-- What RESTART and YIELD find of the state that they were sent to (log 3). -/
theorem arrived_takePins (h : Header) (pins : Pins) (s : State) :
    (arrived h (takePins pins s)).memb = s.memb ∧ (arrived h (takePins pins s)).dir = s.dir
      ∧ (arrived h (takePins pins s)).cust = s.cust ∧ (arrived h (takePins pins s)).inputs.pins = pins
      ∧ (arrived h (takePins pins s)).tamper = s.tamper ∧ (arrived h (takePins pins s)).straps = s.straps := by
  have harr := arrived_sameBut h (takePins pins s)
  exact ⟨harr.memb (by decide), harr.dir (by decide), harr.cust (by decide),
    congrArg Inputs.pins (harr .inputs (by decide)), harr.tamper (by decide), harr .straps (by decide)⟩

/-- A RESTART in LIVE until the end of the step. -/
theorem restartRaised_settled (hl : s.memb.state = .live) :
    (settle (selfExpel .restart (restartRaised h b s))).memb
        = { s.memb with restartOutstanding := true, leaving := true }
      ∧ (settle (selfExpel .restart (restartRaised h b s))).cust.record = some ⟨h.src, b.tag, codeRestart⟩
      ∧ (s.memb.leaving = false →
          hasFrame (settle (selfExpel .restart (restartRaised h b s))) (fun f => f == .expel (self s) .restart) = true) := by
  have hsettle := settle_sameBut (selfExpel .restart (restartRaised h b s))
  refine ⟨?_, ?_, fun hn => (selfExpel_leaves (s := restartRaised h b s) hl hn).2⟩
  · rw [hsettle.memb (by decide), selfExpel_memb (s := restartRaised h b s) hl]
    rfl
  · exact (hsettle .record (by decide)).trans (selfExpel_sameBut .restart (restartRaised h b s) .record (by decide))

end Direct

/-- Settles O45: out of LIVE by what a direct order's warm start leaves, in LIVE by what the own cause leaves. -/
theorem restartAndYield : Obligations.RestartAndYield := by
  refine ⟨?_, ?_, ?_⟩
  · intro h b pins s hr hf ha hrec hl hw
    obtain ⟨hmemb, hdir, hcust, hpins, htamper, -⟩ := arrived_takePins h pins s
    have hx := exec_order_accepted (pins := pins) hr (orderRefusal_none hf hr.actsOnOrder ha)
    refine yields_settle (c := .orderRestart h b pins) hx
      (acceptRestart_warm (s := arrived h (takePins pins s)) (by rw [hcust]; exact hrec) (by rw [hmemb]; exact hl)) ?_
    exact warmStart_settled false (u := recordOrder h codeRestart b (arrived h (takePins pins s))) hdir hpins rfl
      (hw.imp_left (congrArg Tamper.window htamper).trans)
  · intro h b pins s hr hf ha hrec hl
    obtain ⟨hmemb, -, hcust, -, -, hstraps⟩ := arrived_takePins h pins s
    have hx := exec_order_accepted (pins := pins) hr (orderRefusal_none hf hr.actsOnOrder ha)
    refine yields_settle (c := .orderRestart h b pins) hx
      (acceptRestart_live (s := arrived h (takePins pins s)) (by rw [hcust]; exact hrec) (by rw [hmemb]; exact hl)) ?_
    obtain ⟨hleft, hrecord, hexpel⟩ :=
      restartRaised_settled (h := h) (b := b) (s := arrived h (takePins pins s)) (by rw [hmemb]; exact hl)
    rw [hmemb] at hexpel
    rw [self_of_straps hstraps] at hexpel
    refine ⟨by rw [hleft], by rw [hleft], hrecord, hexpel, ?_⟩
    have hfound : SameBut (.inputs :: arriving) s (arrived h (takePins pins s)) := orderFound_sameBut codeRestart h pins s
    exact hfound.comp ((restartRaised_sameBut h b _).comp ((selfExpel_sameBut .restart _).comp (settle_sameBut _)
      (e := .leaving :: .serve :: reacting) (by decide) (by decide)) (e := .record :: .leaving :: .serve :: reacting)
      (by decide) (by decide)) (by decide) (by decide)
  · intro h b pins s hr hf hs ha hrec hw
    obtain ⟨-, hdir, hcust, hpins, htamper, -⟩ := arrived_takePins h pins s
    have hx := exec_order_accepted (pins := pins) hr (orderRefusal_none hf hs ha)
    refine yields_settle (c := .orderYield h b pins) hx
      (acceptYield_warm (s := arrived h (takePins pins s)) (by rw [hcust]; exact hrec)) ?_
    exact warmStart_settled true (u := yieldMarked h b (arrived h (takePins pins s))) hdir hpins rfl
      (hw.imp_left (congrArg Tamper.window htamper).trans)

end Sys2Proof.Machine

end

section
/-! SUPPORT. The catch-up unit (chapter 6): serving a PULL, what an IMAGE overwrites and how its burst goes on, and the expiries of the
timers. -/

namespace Sys2Proof.Machine

/-! ## PULL (R113) -/

section Pull

variable {h : Header} {area start : Byte} {size : Nat} {s : State}

/-- The entry that a PULL asks to be queued. -/
def pullEntry (h : Header) (area start : Byte) : PullEntry := ⟨h.src, area, start, burstItems area start⟩

theorem onPull_taken (hz : areaSize? area = some size) (hi : start.toNat < size) (hl : s.memb.state = .live)
    (hn : s.memb.leaving = false) (hroom : s.catchUp.serve.length < 4) :
    onPull h area start s =
      if s.catchUp.serve = [] then serveHead (withServe s [pullEntry h area start])
      else withServe s (s.catchUp.serve ++ [pullEntry h area start]) := by
  unfold onPull
  rw [hz]
  dsimp only
  rw [if_pos (by simp [isLive, hl, hn, hroom, hi, Config.pullEntries])]
  cases hq : s.catchUp.serve <;> rfl

theorem onPull_ignored
    (hn : areaSize? area = none ∨ (∃ size, areaSize? area = some size ∧ size ≤ start.toNat) ∨ s.memb.state ≠ .live
      ∨ s.memb.leaving = true ∨ 4 ≤ s.catchUp.serve.length) : onPull h area start s = s := by
  unfold onPull
  split
  · rfl
  · rename_i size hz
    refine if_neg fun ht => ?_
    simp only [isLive, Bool.and_eq_true, beq_iff_eq, Bool.not_eq_true', decide_eq_true_iff] at ht
    obtain ⟨⟨⟨hl, hv⟩, hroom⟩, hi⟩ := ht
    rcases hn with hn | ⟨z, hz', hle⟩ | hn | hn | hn
    · rw [hz] at hn; cases hn
    · cases hz.symm.trans hz'
      exact absurd hi (Nat.not_lt.mpr hle)
    · exact hn hl
    · rw [hv] at hn; cases hn
    · exact absurd hroom (Nat.not_lt.mpr hn)

/-- The entry stands last in the pull queue, whether or not it is served at once. -/
theorem onPull_serve (hz : areaSize? area = some size) (hi : start.toNat < size) (hl : s.memb.state = .live)
    (hn : s.memb.leaving = false) (hroom : s.catchUp.serve.length < 4) :
    (onPull h area start s).catchUp.serve = s.catchUp.serve ++ [pullEntry h area start] := by
  rw [onPull_taken hz hi hl hn hroom]
  split
  · rename_i hq
    rw [hq]
    exact serveHead_sameBut (withServe s [pullEntry h area start]) .serve (by decide)
  · rfl

/-- An entry that stands alone is served at once. -/
theorem onPull_asks (hz : areaSize? area = some size) (hi : start.toNat < size) (hl : s.memb.state = .live)
    (hn : s.memb.leaving = false) (hq : s.catchUp.serve = []) {i : Byte} (hb : i ∈ burstItems area start) :
    hasFrame (onPull h area start s) (fun f => f == .image h.src area i) = true := by
  rw [onPull_taken hz hi hl hn (by rw [hq]; decide), if_pos hq]
  exact serveHead_asks (s := withServe s [pullEntry h area start]) (y := pullEntry h area start) rfl hb

end Pull

/-- Settles O48: the entry joins the queue by `onPull_serve`, and its IMAGEs, once asked for, outlast the end of the step. -/
theorem pullIsServed : Obligations.PullIsServed := by
  refine ⟨fun h area start size s hr hz hi hl hn hroom => ?_, fun h area start s hr hn => ?_⟩
  · refine yields_received rfl hr (fun _ => rfl) rfl ⟨?_, fun hq i hb => ?_, ?_⟩
    · exact (settle_sameBut _ .serve (by decide)).trans (onPull_serve (s := receivedIntact s) hz hi hl hn hroom)
    · exact hasFrame_settle (image_lasting ..) (onPull_asks (s := receivedIntact s) hz hi hl hn hq hb)
    · exact (onPull_sameBut h area start _).received (by decide) (by decide)
  · refine yields_received rfl hr (fun _ => rfl) (onPull_ignored (s := receivedIntact s) hn) ?_
    exact (SameBut.refl [] _).received (by decide) (by decide)

end Sys2Proof.Machine

namespace Sys2Proof.Machine

/-! ## An attempt that fails and yet goes on (R119) -/

/-- A failure that leaves the station in CATCHUP leaves its membership and its directory as they are. -/
theorem failAttempt_stays {s : State} (hst : (failAttempt s).memb.state = .catchup) :
    (failAttempt s).memb = s.memb ∧ (failAttempt s).dir = s.dir := by
  obtain ⟨hm, -, -⟩ := failureCounted_keeps s
  have hd : (failureCounted s).dir = s.dir := (retract_sameBut isPull s).dir (by decide)
  rw [failAttempt_eq] at hst ⊢
  split at hst
  · cases hst
  · rename_i h3
    rw [if_neg h3]
    split at hst
    · cases hst
    · rename_i h0
      rw [if_neg h0]
      unfold nextAttempt at hst ⊢
      split at hst
      · cases hst
      · rename_i k _
        exact ⟨(startAttempt_memb k _).trans hm, ((startAttempt_sameBut k _).dir (by decide)).trans hd⟩

theorem failJoining_stays {c : FailCause} {s : State} (hst : (failJoining c s).memb.state = .catchup) :
    (failJoining c s).memb = s.memb ∧ (failJoining c s).dir = s.dir := by
  have hr := retract_sameBut isJoin s
  have hm : (retract isJoin s).memb = s.memb := hr.memb (by decide)
  have hd : (retract isJoin s).dir = s.dir := hr.dir (by decide)
  unfold failJoining at hst ⊢
  dsimp only at hst ⊢
  split at hst
  · rename_i hj
    rw [if_pos hj]
    exact ⟨hm, hd⟩
  · rename_i hj
    obtain ⟨hm', hd'⟩ := failAttempt_stays hst
    rw [if_neg hj]
    exact ⟨hm'.trans hm, hd'.trans hd⟩

theorem findFailure_stays {c : FailCause} {s : State} (hst : (findFailure c s).memb.state = .catchup) :
    (findFailure c s).memb = s.memb ∧ (findFailure c s).dir = s.dir := by
  unfold findFailure at hst ⊢
  split at hst
  · exact ⟨rfl, rfl⟩
  · exact failJoining_stays hst
  all_goals exact failAttempt_stays hst

/-- Of the catch-up unit, what a failed attempt leaves depends on the source and the two counts alone. -/
theorem AttemptFailed.of_counts {s s' t : State} (hm : s'.memb = s.memb) (hs : s'.straps = s.straps)
    (hf : s'.catchUp.failures = s.catchUp.failures) (hk : s'.catchUp.source = s.catchUp.source)
    (ha : s'.catchUp.attempts = s.catchUp.attempts) (h : AttemptFailed s t) : AttemptFailed s' t := by
  unfold AttemptFailed at h ⊢
  rw [hf, hk, ha, hm, chooseSource_of_eq hm hs]
  exact h

/-- A failed attempt at the end of the step. -/
theorem settle_failAttempt {s : State} (hst : s.memb.state = .catchup) : AttemptFailed s (settle (failAttempt s)) :=
  (failAttempt_attemptFailed hst).of_eq rfl rfl rfl ((settle_sameBut _).memb (by decide)) ((settle_sameBut _).catchUp (by decide))

/-! ## The timers (R110, R112, R117) -/

/-- Settles O50: an expiry is a cause of failure in a phase whose failure waits for no JOIN. -/
theorem catchUpTimersFailAttempt : Obligations.CatchUpTimersFailAttempt := by
  refine ⟨fun s hs ht hp => ?_, fun s hs ht hp => ?_, fun s ht => ?_, fun s ht => ?_⟩
  · refine yields_settle (c := .pullTimerExpiry) rfl ?_ (settle_failAttempt hs)
    exact (if_pos ht).trans (findFailure_attempt _ (.inr (.inl hp)))
  · refine yields_settle (c := .verificationTimerExpiry) rfl ?_ (settle_failAttempt hs)
    exact (if_pos ht).trans (findFailure_attempt _ (hp.imp_right .inr))
  · exact yields_settle (c := .pullTimerExpiry) rfl (if_neg (by rw [ht]; decide)) (settle_sameBut s)
  · exact yields_settle (c := .verificationTimerExpiry) rfl (if_neg (by rw [ht]; decide)) (settle_sameBut s)

end Sys2Proof.Machine

namespace Sys2Proof.Machine

/-! ## What an item overwrites (R116) -/

/-- Another line's entry stays, the place of one that holds the same line too (log 49). -/
theorem entryAt_imageLine (s : State) (l : LineId) (e : LineEntry) (l' : LineId) :
    entryAt (imageLine s l e) l' = if l' = l then e else entryAt s l' := by
  unfold imageLine entryAt
  dsimp only
  split <;> exact tget_tset _ _ _ _

theorem imageLine_watch (s : State) (l : LineId) {e : LineEntry} (he : e.state ≠ .free) :
    tget (imageLine s l e).lines.watches (nodeOf e.gateway) = .running := by
  unfold imageLine
  dsimp only
  rw [if_neg he]
  exact tget_tset_self _ _ _

theorem mem_openList {l : List (Option RoundEntry)} {e : RoundEntry} : e ∈ openList l ↔ some e ∈ l := by
  unfold openList
  simp

theorem placeRound_mem {k : Nat} (hk : k < 4) (r : Round) (l : List (Option RoundEntry)) :
    ⟨r, .none⟩ ∈ openList (placeRound k (some r) l) := by
  refine mem_openList.mpr (List.mem_set ?_ _)
  unfold fourPlaces Config.openRounds
  rw [List.length_map, List.length_append, List.length_replicate]
  omega

/-- A round that the placed one leaves in the list shares neither its slot nor its proposer. -/
theorem placeRound_others {k : Nat} {r : Round} {l : List (Option RoundEntry)} {e : RoundEntry}
    (he : e ∈ openList (placeRound k (some r) l)) (hne : e.round ≠ r) : e.round.slot ≠ r.slot ∧ e.round.proposer ≠ r.proposer := by
  rcases List.mem_or_eq_of_mem_set (mem_openList.mp he) with hm | heq
  · obtain ⟨x, -, hx⟩ := List.mem_map.mp hm
    obtain ⟨y, -, hy⟩ := Option.bind_eq_some_iff.mp hx
    split at hy
    · cases hy
    · cases hy
      exact not_or.mp ‹_›
  · cases heq
    exact absurd rfl hne

/-- Closing the places up moves rounds and drops none. -/
theorem openEntries_settlePlaces (s : State) : openEntries (settlePlaces s) = openEntries s := by
  unfold settlePlaces
  split
  · rfl
  · exact openList_closeUp _

theorem overwriteItem_round_sameBut (k : Nat) (r : Option Round) (s : State) :
    SameBut [.roundList, .notice] s (overwriteItem (.round k r) s) :=
  ((setRounds_sameBut s (placeRound k r s.rounds.list)).trans (settlePlaces_sameBut _)).comp (openRoundNotice_sameBut s _)
    (by decide) (by decide)

theorem openEntries_overwriteItem_round (k : Nat) (r : Option Round) (s : State) :
    openEntries (overwriteItem (.round k r) s) = openList (placeRound k r s.rounds.list) := by
  have hn := openRoundNotice_sameBut s (settlePlaces (setRounds s (placeRound k r s.rounds.list))) .roundList (by decide)
  calc openEntries (overwriteItem (.round k r) s)
      = openEntries (settlePlaces (setRounds s (placeRound k r s.rounds.list))) := congrArg openList hn
    _ = openList (placeRound k r s.rounds.list) := openEntries_settlePlaces _

theorem imageItem_round_lt {area item : Byte} {contents : List Byte} {k : Nat} {r : Option Round}
    (hi : imageItem? area item contents = some (.round k r)) : k < 4 := by
  unfold imageItem? at hi
  split at hi
  · split at hi <;> cases hi
  · split at hi
    · obtain ⟨x, -, hx⟩ := Option.map_eq_some_iff.mp hi
      cases hx
      assumption
    · cases hi
  · split at hi <;> cases hi
  · split at hi <;> cases hi
  · cases hi

/-! ## An IMAGE that is taken (R112, R114) -/

section Image

variable {h : Header} {area item : Byte} {seq : Word} {contents : List Byte} {x : ImageItem} {s t : State}

/-- An IMAGE's sequence taken, its item awaited no more; nothing overwritten yet. -/
def imageTaken (area item : Byte) (seq : Word) (s : State) : State :=
  tookItem area item { s with dir := { s.dir with seq := seq } }

theorem imageTaken_eq (area item : Byte) (seq : Word) (s : State) :
    imageTaken area item seq s =
      if awaits s area item = true then
        setCatchUp { s with dir := { s.dir with seq := seq } } { s.catchUp with awaited := s.catchUp.awaited.erase item }
      else { s with dir := { s.dir with seq := seq } } := rfl

theorem imageTaken_sameBut (area item : Byte) (seq : Word) (s : State) : SameBut [.seq, .pulling] s (imageTaken area item seq s) :=
  (seq_sameBut s seq).comp (tookItem_sameBut area item _) (by decide) (by decide)

theorem imageTaken_dir (area item : Byte) (seq : Word) (s : State) : (imageTaken area item seq s).dir = { s.dir with seq := seq } :=
  (tookItem_sameBut area item { s with dir := { s.dir with seq := seq } }).dir (by decide)

theorem imageTaken_awaited (ha : awaits s area item = true) :
    (imageTaken area item seq s).catchUp = { s.catchUp with awaited := s.catchUp.awaited.erase item } := by
  rw [imageTaken_eq, if_pos ha]
  rfl

/-- The item that an IMAGE clears from the burst is all it changes of the pulling side before the item is overwritten. -/
theorem imageTaken_catchUp (area item : Byte) (seq : Word) (s : State) :
    ∃ l, (imageTaken area item seq s).catchUp = { s.catchUp with awaited := l } := by
  rw [imageTaken_eq]
  split
  · exact ⟨_, rfl⟩
  · exact ⟨_, rfl⟩

/-- Whether an item fails the attempt is seen alike before and after the IMAGE is taken. -/
theorem itemFails_imageTaken (x : ImageItem) (area item : Byte) (seq : Word) (s : State) :
    itemFails x (imageTaken area item seq s) = itemFails x s := by
  rw [imageTaken_eq]
  split <;> rfl

theorem onImage_fails (hx : imageItem? area item contents = some x) (ht : takesImages s h.src = true) (hf : itemFails x s = true) :
    onImage h area item seq contents s = findFailure .mismatch (overwriteItem x (imageTaken area item seq s)) := by
  unfold onImage
  rw [hx]
  dsimp only
  rw [if_pos ht]
  exact if_pos ((itemFails_imageTaken x area item seq s).trans hf)

theorem onImage_goesOn (hx : imageItem? area item contents = some x) (ht : takesImages s h.src = true)
    (hf : itemFails x s = false) :
    onImage h area item seq contents s =
      if (awaits s area item && (overwriteItem x (imageTaken area item seq s)).catchUp.awaited.isEmpty) = true then
        burstDone (overwriteItem x (imageTaken area item seq s))
      else overwriteItem x (imageTaken area item seq s) := by
  unfold onImage
  rw [hx]
  dsimp only
  rw [if_pos ht]
  exact if_neg (by rw [show itemFails x (tookItem area item _) = _ from itemFails_imageTaken x area item seq s, hf]; decide)

theorem onImage_ignored (hn : takesImages s h.src = false ∨ imageItem? area item contents = none) :
    onImage h area item seq contents s = s := by
  unfold onImage
  split
  · rfl
  · rename_i hx
    refine if_neg fun ht => ?_
    rcases hn with hn | hn
    · rw [ht] at hn; cases hn
    · rw [hx] at hn; cases hn

/-- After its item an IMAGE moves the pull on, and the step ends. -/
theorem settle_onImage_sameBut (hx : imageItem? area item contents = some x) (ht : takesImages s h.src = true)
    (hf : itemFails x s = false) :
    SameBut (.pulling :: reacting) (overwriteItem x (imageTaken area item seq s)) (settle (onImage h area item seq contents s)) := by
  refine SameBut.comp (c := [.txQueue, .segments, .queries, .pulling]) ?_ (settle_sameBut _) (by decide) (by decide)
  rw [onImage_goesOn hx ht hf]
  exact SameBut.ite (burstDone_sameBut _) (SameBut.refl _ _)

/-- An IMAGE whose item fails no attempt: what holds however the pull goes on and the step ends. -/
theorem yields_image {P : State → Prop} (hr : Reaches s h (.image area item seq contents)) (ht : takesImages s h.src = true)
    (hx : imageItem? area item contents = some x) (hf : itemFails x s = false)
    (hp : ∀ t, SameBut (.pulling :: reacting) (overwriteItem x (imageTaken area item seq (receivedIntact s))) t → P t) :
    Yields (.image h area item seq contents) s P :=
  yields_received rfl hr (fun _ => rfl) rfl
    (hp _ (settle_onImage_sameBut (s := receivedIntact s) hx ht hf))

/-- The frame of an IMAGE whose item changes `c`. -/
theorem SameBut.imaged {c e : List Part} {v : State} (hv : SameBut c (imageTaken area item seq (receivedIntact s)) v)
    (ht : SameBut (.pulling :: reacting) v t) (hc : ∀ p, p ∈ c → p ∈ e)
    (he : ∀ p, p ∈ .seq :: .pulling :: stationFrame → p ∈ e) : SameBut e s t := by
  have harrived : SameBut e s (imageTaken area item seq (receivedIntact s)) :=
    (receivedIntact_sameBut s).comp (imageTaken_sameBut area item seq _) (fun p hp => he p (by revert p; decide))
      (fun p hp => he p (by revert p; decide))
  exact (harrived.comp hv (fun _ hp => hp) hc).comp ht (fun _ hp => hp) (fun p hp => he p (by revert p; decide))

/-! ### The directory, a line, the live set, a round -/

theorem image_slot {i : SlotId} {y : Slot} {u : Usage} (hr : Reaches s h (.image area item seq contents))
    (ht : takesImages s h.src = true) (hx : imageItem? area item contents = some (.slot i y u)) :
    Yields (.image h area item seq contents) s fun t =>
      t.dir = { (s.dir.setSlot i y).setUsage i u with seq := seq }
      ∧ SameBut (.slots :: .usage :: .seq :: .pulling :: stationFrame) s t := by
  refine yields_image hr ht hx rfl fun t hv => ⟨?_, ?_⟩
  · rw [hv.dir (by decide)]
    exact congrArg (fun d : Directory => (d.setSlot i y).setUsage i u) (imageTaken_dir area item seq (receivedIntact s))
  · exact (((imageSlot_sameBut _ i y u).comp (giveNotice_sameBut _) (e := [.slots, .usage, .notice]) (by decide)
      (by decide)).imaged hv (by decide) (by decide))

/-- An item that is no slot leaves the directory but for the sequence. -/
theorem image_dir {c : List Part} (hw : SameBut c (imageTaken area item seq (receivedIntact s)) (overwriteItem x
      (imageTaken area item seq (receivedIntact s))))
    (hv : SameBut (.pulling :: reacting) (overwriteItem x (imageTaken area item seq (receivedIntact s))) t)
    (hc : ∀ p ∈ [Part.slots, .usage, .seq, .cabinetKey], p ∉ c) : t.dir = { s.dir with seq := seq } :=
  (hv.dir (by decide)).trans ((hw.dir hc).trans (imageTaken_dir area item seq (receivedIntact s)))

theorem image_line {l : LineId} {e : LineEntry} (hr : Reaches s h (.image area item seq contents))
    (ht : takesImages s h.src = true) (hx : imageItem? area item contents = some (.line l e)) :
    Yields (.image h area item seq contents) s fun t =>
      t.dir = { s.dir with seq := seq } ∧ entryAt t l = e ∧ (∀ l', l' ≠ l → entryAt t l' = entryAt s l')
      ∧ (e.state ≠ .free → tget t.lines.watches (nodeOf e.gateway) = .running)
      ∧ SameBut (.seq :: .entries :: .locals :: .gatewayWatches :: .pulling :: stationFrame) s t := by
  refine yields_image hr ht hx rfl fun t hv => ?_
  have hw := imageLine_sameBut (imageTaken area item seq (receivedIntact s)) l e
  have hentry : ∀ l', entryAt t l' = if l' = l then e else entryAt s l' := fun l' => by
    rw [hv.entryAt (by decide) l']
    refine (entryAt_imageLine _ l e l').trans (congrArg (ite (l' = l) e) ?_)
    exact (imageTaken_sameBut area item seq (receivedIntact s)).entryAt (by decide) l'
  refine ⟨image_dir hw hv (by decide), (hentry l).trans (if_pos rfl), fun l' hl => (hentry l').trans (if_neg hl), fun he => ?_,
    hw.imaged hv (by decide) (by decide)⟩
  rw [hv .gatewayWatches (by decide)]
  exact imageLine_watch _ l he

theorem image_members {map : NodeMap} {check : Check} (hr : Reaches s h (.image area item seq contents))
    (ht : takesImages s h.src = true) (hx : imageItem? area item contents = some (.members map check))
    (hf : membersFail s (setOfMap (stationCount s) map) check = false) :
    Yields (.image h area item seq contents) s fun t =>
      t.dir = { s.dir with seq := seq } ∧ t.memb.live = setOfMap (stationCount s) map
      ∧ SameBut (.seq :: .live :: .pulling :: stationFrame) s t := by
  refine yields_image hr ht hx hf fun t hv => ?_
  have hw := liveSet_sameBut (imageTaken area item seq (receivedIntact s))
    (setOfMap (stationCount (imageTaken area item seq (receivedIntact s))) map)
  refine ⟨image_dir hw hv (by decide), (hv .live (by decide)).trans ?_, hw.imaged hv (by decide) (by decide)⟩
  have hstraps := imageTaken_sameBut area item seq (receivedIntact s) .straps (by decide)
  exact congrArg (fun p : Straps => setOfMap p.stations map) hstraps

/-- What a ROUNDS item leaves, with a record or without. -/
theorem image_round {k : Nat} {r : Option Round} (hr : Reaches s h (.image area item seq contents))
    (ht : takesImages s h.src = true) (hx : imageItem? area item contents = some (.round k r)) :
    Yields (.image h area item seq contents) s fun t =>
      t.dir = { s.dir with seq := seq } ∧ openEntries t = openList (placeRound k r s.rounds.list)
      ∧ SameBut (.seq :: .roundList :: .pulling :: stationFrame) s t := by
  refine yields_image hr ht hx rfl fun t hv => ?_
  have hw := overwriteItem_round_sameBut k r (imageTaken area item seq (receivedIntact s))
  refine ⟨image_dir hw hv (by decide), ?_, hw.imaged hv (by decide) (by decide)⟩
  have hlist := imageTaken_sameBut area item seq (receivedIntact s) .roundList (by decide)
  calc openEntries t
      = openEntries (overwriteItem (.round k r) (imageTaken area item seq (receivedIntact s))) :=
        congrArg openList (hv .roundList (by decide))
    _ = openList (placeRound k r (imageTaken area item seq (receivedIntact s)).rounds.list) :=
        openEntries_overwriteItem_round k r _
    _ = openList (placeRound k r s.rounds.list) := congrArg (fun l => openList (placeRound k r l)) hlist

/-! ### The pull goes on (R112) -/

theorem burstDone_next {k : StationId} (hi : s.catchUp.pullIndex < 26) (hk : s.catchUp.source = some k) :
    burstDone s = request (.pull k (pullOf (s.catchUp.pullIndex + 1)).1 (pullOf (s.catchUp.pullIndex + 1)).2 false)
      (setCatchUp s { s.catchUp with pullTimer := false, pullIndex := s.catchUp.pullIndex + 1 }) := by
  unfold burstDone queuePull
  rw [if_pos hi]
  dsimp only [setCatchUp_catchUp]
  rw [hk]

theorem burstDone_last (hi : 26 ≤ s.catchUp.pullIndex) :
    burstDone s = setCatchUp s { s.catchUp with pullTimer := false, phase := .verifying, verifyTimer := true } :=
  if_neg (Nat.not_lt.mpr hi)

theorem isPullOf_lasting (k : StationId) (area start : Byte) : Lasting (fun f => f == TxFrame.pull k area start false) :=
  ⟨fun _ _ _ _ => rfl, fun _ => rfl, fun _ _ => rfl⟩

theorem overwritten_awaited (x : ImageItem) (ha : awaits s area item = true) :
    (overwriteItem x (imageTaken area item seq s)).catchUp = { s.catchUp with awaited := s.catchUp.awaited.erase item } :=
  ((overwriteItem_sameBut x _).catchUp (by decide)).trans (imageTaken_awaited ha)

theorem onImage_burst_goesOn (hx : imageItem? area item contents = some x) (ht : takesImages s h.src = true)
    (hf : itemFails x s = false) (ha : awaits s area item = true) (hl : s.catchUp.awaited.erase item ≠ []) :
    onImage h area item seq contents s = overwriteItem x (imageTaken area item seq s) := by
  rw [onImage_goesOn hx ht hf, overwritten_awaited x ha]
  exact if_neg (by simpa using fun _ => hl)

theorem onImage_burst_done (hx : imageItem? area item contents = some x) (ht : takesImages s h.src = true)
    (hf : itemFails x s = false) (ha : awaits s area item = true) (hl : s.catchUp.awaited.erase item = []) :
    onImage h area item seq contents s = burstDone (overwriteItem x (imageTaken area item seq s)) := by
  rw [onImage_goesOn hx ht hf, overwritten_awaited x ha]
  exact if_pos (by rw [ha, hl]; rfl)

theorem image_awaited (hr : Reaches s h (.image area item seq contents)) (ht : takesImages s h.src = true)
    (hx : imageItem? area item contents = some x) (hf : itemFails x s = false) (ha : awaits s area item = true) :
    Yields (.image h area item seq contents) s fun t =>
      (s.catchUp.awaited.erase item ≠ [] → t.catchUp = { s.catchUp with awaited := s.catchUp.awaited.erase item })
      ∧ (∀ k, s.catchUp.awaited.erase item = [] → s.catchUp.pullIndex < 26 → s.catchUp.source = some k →
          t.catchUp = { s.catchUp with awaited := [], pullTimer := false, pullIndex := s.catchUp.pullIndex + 1 }
          ∧ hasFrame t (fun f => f == .pull k (pullOf (s.catchUp.pullIndex + 1)).1 (pullOf (s.catchUp.pullIndex + 1)).2 false)
              = true)
      ∧ (s.catchUp.awaited.erase item = [] → 26 ≤ s.catchUp.pullIndex →
          t.catchUp = { s.catchUp with awaited := [], pullTimer := false, phase := .verifying, verifyTimer := true }) := by
  refine yields_received rfl hr (fun _ => rfl) rfl ?_
  have hsettled := (settle_sameBut (onImage h area item seq contents (receivedIntact s))).catchUp (by decide)
  have hv : (overwriteItem x (imageTaken area item seq (receivedIntact s))).catchUp
      = { s.catchUp with awaited := s.catchUp.awaited.erase item } := overwritten_awaited (s := receivedIntact s) x ha
  refine ⟨fun hl => ?_, fun k hl hi hk => ?_, fun hl hi => ?_⟩
  · rw [hsettled, onImage_burst_goesOn (s := receivedIntact s) hx ht hf ha hl]
    exact hv
  · have hdone := (onImage_burst_done (s := receivedIntact s) (seq := seq) hx ht hf ha hl).trans
      (burstDone_next (k := k) (by rw [hv]; exact hi) (by rw [hv]; exact hk))
    rw [hv, hl] at hdone
    refine ⟨?_, ?_⟩
    · rw [hsettled, hdone]
      exact (request_sameBut _ _).catchUp (by decide)
    · rw [hdone]
      exact hasFrame_settled_request (isPullOf_lasting ..) _ (beq_self_eq_true _)
  · rw [hsettled, onImage_burst_done (s := receivedIntact s) hx ht hf ha hl, burstDone_last (by rw [hv]; exact hi), hv, hl]
    rfl

/-! ### A MEMBERS item that fails the attempt (R116, R118, R119) -/

theorem takesImages_phase {src : Node} (ht : takesImages s src = true) :
    s.catchUp.phase = .pulling ∨ s.catchUp.phase = .verifying ∨ s.catchUp.phase = .joining := by
  unfold takesImages at ht
  cases hp : s.catchUp.phase <;> simp_all

/-- In JOINING nothing is awaited. -/
theorem not_awaits_joining (hp : s.catchUp.phase = .joining) : awaits s area item = false := by
  unfold awaits
  rw [hp]
  rfl

/-- The station with the live set of a MEMBERS item. -/
def withMembers (map : NodeMap) (s : State) : State := { s with memb := { s.memb with live := setOfMap (stationCount s) map } }

theorem overwriteItem_members (map : NodeMap) (check : Check) (s : State) :
    overwriteItem (.members map check) s = withMembers map s := rfl

/-- The station when the mismatch is found: the live set replaced, the IMAGE taken. -/
theorem withMembers_imageTaken (map : NodeMap) (area item : Byte) (seq : Word) (s : State) :
    (withMembers map (imageTaken area item seq s)).memb = (withMembers map s).memb
      ∧ (withMembers map (imageTaken area item seq s)).straps = s.straps := by
  rw [imageTaken_eq]
  split <;> exact ⟨rfl, rfl⟩

theorem image_membersFail {map : NodeMap} {check : Check} (hr : Reaches s h (.image area item seq contents))
    (ht : takesImages s h.src = true) (hx : imageItem? area item contents = some (.members map check))
    (hf : membersFail s (setOfMap (stationCount s) map) check = true) :
    Yields (.image h area item seq contents) s fun t =>
      (s.catchUp.phase ≠ .joining → AttemptFailed (withMembers map s) t)
      ∧ (s.catchUp.phase = .joining → JoiningFailed .mismatch (withMembers map s) t)
      ∧ (t.memb.state = .catchup → t.memb.live = setOfMap (stationCount s) map ∧ t.dir = { s.dir with seq := seq }) := by
  refine yields_received rfl hr (fun _ => rfl) (onImage_fails (s := receivedIntact s) hx ht hf) ?_
  rw [overwriteItem_members]
  obtain ⟨hm, hs⟩ := withMembers_imageTaken map area item seq (receivedIntact s)
  have hst : (withMembers map (imageTaken area item seq (receivedIntact s))).memb.state = .catchup := by
    rw [hm]
    exact takesImages_catchup ht
  obtain ⟨l, hc⟩ : ∃ l, (withMembers map (imageTaken area item seq (receivedIntact s))).catchUp = { s.catchUp with awaited := l } :=
    imageTaken_catchUp area item seq (receivedIntact s)
  refine ⟨fun hp => ?_, fun hp => ?_, fun hstays => ?_⟩
  · have hphase : s.catchUp.phase = .waitSource ∨ s.catchUp.phase = .pulling ∨ s.catchUp.phase = .verifying :=
      .inr ((takesImages_phase ht).imp_right fun hv => hv.resolve_right hp)
    rw [findFailure_attempt _ (by rw [hc]; exact hphase)]
    exact (settle_failAttempt hst).of_counts (s' := withMembers map s) hm.symm hs.symm (by rw [hc]; rfl) (by rw [hc]; rfl)
      (by rw [hc]; rfl)
  · have htaken : imageTaken area item seq (receivedIntact s)
        = { receivedIntact s with dir := { s.dir with seq := seq } } := by
      rw [imageTaken_eq, if_neg (by rw [not_awaits_joining (s := receivedIntact s) hp]; decide)]
      rfl
    rw [findFailure_joining _ (by rw [hc]; exact hp), htaken]
    exact settle_failJoining (s := withMembers map { receivedIntact s with dir := { s.dir with seq := seq } })
      (takesImages_catchup ht) .mismatch
  · have hend := settle_sameBut (findFailure .mismatch (withMembers map (imageTaken area item seq (receivedIntact s))))
    rw [hend.memb (by decide)] at hstays
    obtain ⟨hmemb, hdir⟩ := findFailure_stays hstays
    refine ⟨?_, (hend.dir (by decide)).trans (hdir.trans (imageTaken_dir area item seq (receivedIntact s)))⟩
    rw [hend.memb (by decide), hmemb, hm]
    rfl

end Image

/-- Settles O49: each item by what it overwrites, then how the pull goes on, the failing MEMBERS item, and the IMAGEs that are passed
over. -/
theorem imageOverwritesItem : Obligations.ImageOverwritesItem := by
  refine ⟨fun h area item seq contents i x u s hr ht hx => image_slot hr ht hx,
    fun h area item seq contents l e s hr ht hx => image_line hr ht hx,
    fun h area item seq contents map check s hr ht hx hf => image_members hr ht hx hf,
    fun h area item seq contents k r s hr ht hx _ => ?_,
    fun h area item seq contents k s hr ht hx => image_round hr ht hx,
    fun h area item seq contents x s hr ht hx hf ha => image_awaited hr ht hx hf ha,
    fun h area item seq contents map check s hr ht hx hf => image_membersFail hr ht hx hf,
    fun h area item seq contents s hr hn => ?_⟩
  · obtain ⟨t, hexec, hdir, hopen, hsame⟩ := image_round hr ht hx
    refine ⟨t, hexec, hdir, ?_, fun e he => ?_, hsame⟩
    · rw [hopen]
      exact placeRound_mem (imageItem_round_lt hx) r _
    · rw [hopen] at he
      exact placeRound_others he
  · refine yields_received rfl hr (fun _ => rfl) (onImage_ignored (s := receivedIntact s) hn) ?_
    exact (SameBut.refl [] _).received (by decide) (by decide)

end Sys2Proof.Machine

end


section
/-! SUPPORT. The entries of the line table (chapter 7): what every command keeps of the free ones. -/
set_option Elab.async false
namespace Sys2Proof.Machine

/-! ## Free line entries (O59) -/

/-- A change that leaves the free line entries at zero where they were (R122). -/
def KeepsFree (s t : State) : Prop := FreeLinesZero s → FreeLinesZero t

theorem KeepsFree.refl (s : State) : KeepsFree s s := id

theorem KeepsFree.trans {s t u : State} (a : KeepsFree s t) (b : KeepsFree t u) : KeepsFree s u := b ∘ a

theorem KeepsFree.ite {s t u : State} {q : Prop} [Decidable q] (a : q → KeepsFree s t) (b : ¬q → KeepsFree s u) :
    KeepsFree s (if q then t else u) := by
  split
  · exact a ‹_›
  · exact b ‹_›

theorem KeepsFree.foldl {α : Type} {f : State → α → State} (hf : ∀ s x, KeepsFree s (f s x)) (l : List α) (s : State) :
    KeepsFree s (l.foldl f s) := by
  induction l generalizing s with
  | nil => exact .refl s
  | cons x l ih => exact (hf s x).trans (ih _)

/-- A change elsewhere than in the entries. -/
theorem SameBut.keepsFree {c : List Part} {s t : State} (h : SameBut c s t) (hc : Part.entries ∉ c := by decide) :
    KeepsFree s t := fun hs l hl => by
  rw [h.entryAt hc] at hl ⊢
  exact hs l hl

theorem keepsFree_of_lines {s t : State} (h : t.lines = s.lines := by rfl) : KeepsFree s t := fun hs l hl => by
  unfold entryAt at hl ⊢
  rw [h] at hl ⊢
  exact hs l hl

/-- A line table that has been emptied (R140). -/
theorem freeLinesZero_of_empty {t : State} (h : t.lines = LineTable.empty) : FreeLinesZero t := fun l _ => by
  unfold entryAt
  rw [h]
  exact tget_replicate _ _

theorem keepsFree_of_empty {s t : State} (h : t.lines = LineTable.empty := by rfl) : KeepsFree s t :=
  fun _ => freeLinesZero_of_empty h

/-- A line with a position that is not FREE is not free. -/
theorem FreeLinesZero.occupied {s : State} (hs : FreeLinesZero s) {l : LineId} {p : PosId}
    (hp : (tget (entryAt s l).positions p).state ≠ .free) : (entryAt s l).state ≠ .free := fun hl => by
  rw [hs l hl] at hp
  exact hp (congrArg Position.state (tget_replicate _ _))

/-- An entry written where no free one with fields left is written. -/
theorem keepsFree_setEntry {s : State} {l : LineId} {e : LineEntry} (he : FreeLinesZero s → e.state ≠ .free) :
    KeepsFree s (setEntry s l e) := fun hs k hk => by
  rw [entryAt_setEntry] at hk ⊢
  split at hk
  · exact absurd hk (he hs)
  · rename_i hne
    rw [if_neg hne]
    exact hs k hk

theorem freeLine_keepsFree (s : State) (l : LineId) : KeepsFree s (freeLine s l) := fun hs k hk => by
  have hat : entryAt (freeLine s l) k = if k = l then LineEntry.zero else entryAt s k := tget_tset _ _ _ _
  rw [hat] at hk ⊢
  split
  · rfl
  · rename_i hne
    rw [if_neg hne] at hk
    exact hs k hk

/-- D's advance changes D and positions only (R123). -/
theorem dAdvanceLoop_fields (n : Nat) (e : LineEntry) :
    (dAdvanceLoop n e).p = e.p ∧ (dAdvanceLoop n e).state = e.state ∧ (dAdvanceLoop n e).pendingClear = e.pendingClear
      ∧ (dAdvanceLoop n e).gateway = e.gateway ∧ (dAdvanceLoop n e).line = e.line := by
  induction n generalizing e with
  | zero => exact ⟨rfl, rfl, rfl, rfl, rfl⟩
  | succ n ih =>
    unfold dAdvanceLoop
    dsimp only
    split
    · exact ih _
    · exact ⟨rfl, rfl, rfl, rfl, rfl⟩

theorem dAdvance_state (e : LineEntry) : (dAdvance e).state = e.state := (dAdvanceLoop_fields 16 e).2.1

/-! ### The line table -/

theorem settlePosted_keepsFree {s : State} {l : LineId} {p : PosId} (b : SettledBy) (r : DoneReason)
    (hp : (positionOf s l p).state ≠ .free) : KeepsFree s (settlePosted s l p b r) := by
  unfold settlePosted
  refine KeepsFree.trans ?_ (retractClaims_sameBut _ _).keepsFree
  refine KeepsFree.trans (keepsFree_setEntry fun hs => ?_) (setLocal_sameBut _ _ _ _).keepsFree
  rw [dAdvance_state]
  exact hs.occupied hp

theorem settleFrame_keepsFree (pos : PosRef) (b : SettledBy) (r : DoneReason) (s : State) :
    KeepsFree s (settleFrame pos b r s) := by
  unfold settleFrame
  split
  · exact .refl s
  · exact .ite (fun h => settlePosted_keepsFree _ _ (by rw [h]; decide)) (fun _ => .refl s)

theorem claimTaken_keepsFree (src : Node) {l : LineId} {p : PosId} (m : SlotId) {s : State}
    (hp : (positionOf s l p).state ≠ .free) : KeepsFree s (claimTaken src l p m s) := by
  unfold claimTaken
  refine KeepsFree.trans ?_ (giveNotice_sameBut _).keepsFree
  refine KeepsFree.trans ?_ (retractClaims_sameBut _ _).keepsFree
  refine KeepsFree.trans ?_ (.ite (fun _ => (claimWon_sameBut _ _).keepsFree) fun _ => .refl _)
  refine KeepsFree.trans ?_ (setLocal_sameBut _ _ _ _).keepsFree
  exact (reserve_sameBut s m _).keepsFree.trans (keepsFree_setEntry fun hs => hs.occupied hp)

theorem claimOverrun_keepsFree (src : Node) {l : LineId} {p : PosId} {s : State} (hp : (positionOf s l p).state ≠ .free) :
    KeepsFree s (claimOverrun src l p s) :=
  ((settlePosted_keepsFree .claim .overrun hp).trans (claimLost_sameBut _ _ _).keepsFree).trans (selfExpel_sameBut _ _).keepsFree

theorem onClaim_keepsFree (h : Header) (b : ClaimBody) (s : State) : KeepsFree s (onClaim h b s) := by
  have hl : KeepsFree s (claimLost h.src b.pos s) := (claimLost_sameBut _ _ s).keepsFree
  unfold onClaim
  split
  · exact hl
  · rename_i l p _
    refine .ite (fun _ => hl) fun hp => .ite (fun _ => hl) fun _ => .ite (fun _ => hl) fun _ => ?_
    have hposted : (positionOf s l p).state = .posted := by simpa using hp
    have hp' : (positionOf s l p).state ≠ .free := by rw [hposted]; decide
    split
    · exact hl
    · exact .ite (fun _ => claimTaken_keepsFree _ _ hp') (fun _ => claimOverrun_keepsFree _ hp')

theorem onCancel_keepsFree (h : Header) (line position : Byte) (s : State) : KeepsFree s (onCancel h line position s) := by
  unfold onCancel
  dsimp only
  split
  · exact .refl s
  · exact .ite (fun hp => settlePosted_keepsFree _ _ (by rw [hp]; decide)) fun _ =>
      .ite (fun _ => (cancelJob_sameBut _ s).keepsFree) (fun _ => .refl s)

theorem onOpen_keepsFree (h : Header) (line : Byte) (s : State) : KeepsFree s (onOpen h line s) := by
  have hr : ∀ body, KeepsFree s (dutyReport h.src body s) := fun body => (dutyReport_sameBut _ _ s).keepsFree
  unfold onOpen
  refine .ite (fun _ => .refl s) fun _ => ?_
  split
  · exact .ite (fun _ => hr _) (fun _ => hr _)
  · split
    · exact hr _
    · exact ((freeLine_keepsFree s _).trans (keepsFree_setEntry fun _ => by simp)).trans (dutyReport_sameBut _ _ _).keepsFree

theorem postingTest_opened {s : State} {gateway line position : Byte} {l : LineId}
    (h : postingTest s gateway line position = .ok l) : findLine s.lines gateway line = some l
      ∧ (entryAt s l).state = .opened := by
  unfold postingTest at h
  split at h
  · cases h
  · split at h
    · cases h
    · rename_i k hk
      dsimp only at h
      split at h
      · cases h
      · rename_i ho
        split at h
        · cases h
        · split at h
          · cases h
          · cases h
            exact ⟨hk, by simpa using ho⟩

theorem post_keepsFree (h : Header) (line position : Byte) (x : Position) (g p : Byte) (c : Option CardRecord) (s : State) :
    KeepsFree s (post h line position x g p c s) := by
  unfold post
  split
  · exact (dutyReport_sameBut _ _ s).keepsFree
  · rename_i l hl
    obtain ⟨-, ho⟩ := postingTest_opened hl
    refine KeepsFree.trans ?_ (giveNotice_sameBut _).keepsFree
    exact (keepsFree_setEntry fun _ => by simp [ho]).trans (setLocal_sameBut _ _ _ _).keepsFree

theorem claimedBy_occupied {x : Position} {k : Node} (h : claimedBy x k = true) : x.state ≠ .free := by
  unfold claimedBy at h
  intro hf
  simp [hf] at h

/-- A charge on the usage, then an entry with a claimed position written. -/
theorem keepsFree_chargedEntry {s u : State} {l : LineId} {p : PosId} {k : Node} {e : LineEntry} (hu : SameBut [.usage] s u)
    (hc : claimedBy (positionOf s l p) k = true) (he : e.state = (entryAt s l).state) : KeepsFree s (setEntry u l e) :=
  fun hs => keepsFree_setEntry (fun _ => by rw [he]; exact hs.occupied (claimedBy_occupied hc)) (hu.keepsFree (by decide) hs)

theorem onFinal_keepsFree (h : Header) (b : FinalBody) (s : State) : KeepsFree s (onFinal h b s) := by
  unfold onFinal
  refine .ite (fun _ => .refl s) fun _ => ?_
  split
  · exact .refl s
  · refine .ite (fun hc => ?_) (fun _ => .refl s)
    refine KeepsFree.trans (keepsFree_chargedEntry (settleUsage_sameBut s _ _) hc ?_) (giveNotice_sameBut _).keepsFree
    exact dAdvance_state _

theorem closeLine_keepsFree (g line : Byte) (s : State) : KeepsFree s (closeLine g line s) := by
  unfold closeLine
  split
  · exact .refl s
  · refine .ite (fun _ => ?_) (fun _ => .refl s)
    refine KeepsFree.trans ?_ (.ite (fun _ => freeLine_keepsFree _ _) fun _ =>
      .ite (fun _ => (tearDown_sameBut g line _).keepsFree) fun _ => .refl _)
    refine KeepsFree.trans (keepsFree_setEntry fun _ => ?_) (.foldl (fun s p => ?_) _ _)
    · rw [dAdvance_state]
      exact LineState.noConfusion
    · exact (setLocal_sameBut s _ p _).keepsFree.trans (retractClaims_sameBut _ _).keepsFree

theorem onClose_keepsFree (h : Header) (b : CloseBody) (s : State) : KeepsFree s (onClose h b s) := by
  unfold onClose
  split
  · exact closeLine_keepsFree _ _ s
  · exact .ite (fun _ => closeLine_keepsFree _ _ s) (fun _ => .refl s)

theorem clearPosition_keepsFree (src : Node) (l : LineId) (s : State) (p : PosId) (k : Nat) :
    KeepsFree s (clearPosition src l s p k) :=
  .ite (fun hc => keepsFree_chargedEntry (settleUsage_sameBut s _ _) hc rfl) (fun _ => .refl s)

theorem clearAll_keepsFree (src : Node) (l : LineId) (entries : List ClearedEntry) (s : State) :
    KeepsFree s (clearAll src l entries s) :=
  .foldl (f := fun s (c : PosId × Nat) => clearPosition src l s c.1 c.2) (fun s c => clearPosition_keepsFree src l s c.1 c.2) _ s

theorem onCleared_keepsFree (h : Header) (b : ClearedBody) (s : State) : KeepsFree s (onCleared h b s) := by
  by_cases ha : ∃ l, findLine s.lines b.gateway b.line = some l ∧ (entryAt s l).state = .closing
      ∧ setHas (entryAt s l).pendingClear h.src.val = true
  · obtain ⟨l, hl, hc, hp⟩ := ha
    rw [onCleared_awaited hl hc hp rfl]
    refine (clearAll_keepsFree h.src l b.entries s).trans (KeepsFree.trans ?_ (giveNotice_sameBut _).keepsFree)
    refine .ite (fun _ => freeLine_keepsFree _ l) (fun _ => keepsFree_setEntry fun _ => ?_)
    rw [dAdvance_state]
    show (entryAt s l).state ≠ .free
    rw [hc]
    decide
  · rw [onCleared_ignored fun l hl => ?_]
    · exact .refl s
    · by_contra hn
      exact ha ⟨l, hl, by simpa using hn⟩

theorem imageLine_keepsFree (s : State) (l : LineId) {e : LineEntry} (he : e.state = .free → e = LineEntry.zero) :
    KeepsFree s (imageLine s l e) := fun hs k hk => by
  rw [entryAt_imageLine] at hk ⊢
  split at hk
  · rename_i hkl
    rw [if_pos hkl]
    exact he hk
  · rename_i hkl
    rw [if_neg hkl]
    exact hs k hk

/-- A free entry in an image is read as the free entry (R122). -/
theorem lineOfBytes_free {l : List Byte} {e : LineEntry} (h : lineOfBytes? l = some e) (he : e.state = .free) :
    e = LineEntry.zero := by
  unfold lineOfBytes? at h
  split at h
  · cases h
  · cases h; rfl
  · rename_i st hst _
    split at h
    · cases h
    · cases h
      exact absurd he hst

theorem imageItem_free {area item : Byte} {contents : List Byte} {l : LineId} {e : LineEntry}
    (h : imageItem? area item contents = some (.line l e)) (he : e.state = .free) : e = LineEntry.zero := by
  unfold imageItem? at h
  split at h
  · split at h <;> cases h
  · split at h
    · obtain ⟨r, -, hr⟩ := Option.map_eq_some_iff.mp h
      cases hr
    · cases h
  · split at h <;> cases h
  · split at h
    · rename_i hb
      cases h
      exact lineOfBytes_free hb he
    · cases h
  · cases h

/-- A member's removal frees an entry that awaits it alone, and no entry with anything left (R139). -/
theorem lostEntry_free {k : StationId} {e : LineEntry} (he : e.state = .free → e = LineEntry.zero)
    (h : (lostEntry k e).state = .free) : lostEntry k e = LineEntry.zero := by
  unfold lostEntry at h ⊢
  split
  · rename_i hf
    exact he hf
  · rename_i hf
    rw [if_neg hf] at h
    split at h
    · rename_i hc
      rw [if_pos hc]
    · rw [dAdvance_state] at h
      exact absurd h hf

theorem removeMember_keepsFree (k : StationId) (s : State) : KeepsFree s (removeMember k s) := fun hs l hl => by
  obtain ⟨hent, -⟩ := removeMember_lost k s
  rw [hent] at hl ⊢
  exact lostEntry_free (hs l) hl

/-! ### Tamper, zeroisation and the start events -/

theorem zeroise_keepsFree (c : CauseRecord) (own : Option ZeroCause) (s : State) : KeepsFree s (zeroise c own s) :=
  keepsFree_of_empty (zeroise_lines c own s)

theorem declareTamper_keepsFree (ch : Channel) (s : State) : KeepsFree s (declareTamper ch s) := by
  unfold declareTamper
  split
  case h_6 => exact keepsFree_of_empty
  case h_7 => exact .refl s
  case h_8 => exact .refl s
  all_goals exact zeroise_keepsFree _ _ s

theorem sample_keepsFree (s : State) (ch : Channel) (r : ChannelRecord × Bool) :
    KeepsFree s (if r.2 then declareTamper ch { s with tamper := setChannel s.tamper ch r.1 }
      else { s with tamper := setChannel s.tamper ch r.1 }) := by
  have h : KeepsFree s { s with tamper := setChannel s.tamper ch r.1 } := keepsFree_of_lines
  exact .ite (fun _ => h.trans (declareTamper_keepsFree _ _)) (fun _ => h)

theorem closeWindow_keepsFree (s : State) : KeepsFree s (closeWindow s) :=
  closeWindow_after keepsFree_of_lines fun r h => h.trans (sample_keepsFree _ .D r)

theorem startPresence_lines (s : State) : (startPresence s).lines = s.lines := by
  unfold startPresence
  split <;> rfl

theorem coldStart_keepsFree (s : State) : KeepsFree s (coldStart s) := keepsFree_of_empty (startPresence_lines _)

theorem reportDirectOrder_keepsFree (s : State) : KeepsFree s (reportDirectOrder s) := by
  unfold reportDirectOrder
  split
  · exact .refl s
  · have h : KeepsFree s { s with cust := { s.cust with record := none } } := keepsFree_of_lines
    dsimp only
    split
    · exact h.trans (request_sameBut _ _).keepsFree
    · exact h.trans (request_sameBut _ _).keepsFree
    · exact h

theorem warmStart_keepsFree (y : Bool) (s : State) : KeepsFree s (warmStart y s) := by
  have h : KeepsFree s (warmValues y s) := keepsFree_of_empty (startPresence_lines _)
  exact (h.trans (closeWindow_keepsFree _)).trans (reportDirectOrder_keepsFree _)

theorem enterRetention_keepsFree (s : State) : KeepsFree s (enterRetention s) := by
  unfold enterRetention
  exact KeepsFree.trans keepsFree_of_empty (closeWindow_keepsFree _)

theorem returnZeroised_keepsFree (s : State) : KeepsFree s (returnZeroised s) := by
  unfold returnZeroised
  dsimp only
  have hstart : KeepsFree s (startPresence { s with
      inputs := { s.inputs with powerFail := false }
      memb := { s.memb with state := .zeroised, retainedZeroised := false } }) := keepsFree_of_lines (startPresence_lines _)
  generalize startPresence _ = u at hstart
  refine .ite (fun _ => hstart.trans ?_) (fun _ => hstart)
  split <;> exact keepsFree_of_lines

theorem enterListening_keepsFree (s : State) : KeepsFree s (enterListening s) := keepsFree_of_empty

theorem enterDetached_keepsFree (c : DetachedCause) (s : State) : KeepsFree s (enterDetached c s) := keepsFree_of_empty

/-! ### Catch-up -/

theorem startAttempt_keepsFree (k : StationId) (s : State) : KeepsFree s (startAttempt k s) := (startAttempt_sameBut k s).keepsFree

theorem nextAttempt_keepsFree (f : Option StationId) (s : State) : KeepsFree s (nextAttempt f s) := by
  unfold nextAttempt
  split
  · exact enterListening_keepsFree s
  · exact startAttempt_keepsFree _ s

theorem aheadCheck_keepsFree (k : StationId) (q : Word) (s : State) : KeepsFree s (aheadCheck k q s) :=
  .ite (fun _ => enterDetached_keepsFree _ s) (fun _ => startAttempt_keepsFree k s)

theorem setCatchUp_keepsFree (s : State) (c : CatchUp) : KeepsFree s (setCatchUp s c) := (setCatchUp_sameBut s c).keepsFree

theorem enterCatchup_keepsFree (s : State) : KeepsFree s (enterCatchupFromListening s) := by
  unfold enterCatchupFromListening
  split
  · exact enterListening_keepsFree s
  · have hc := (toCatchup_sameBut s).keepsFree
    refine .ite (fun _ => hc.trans (startAttempt_keepsFree _ _)) fun _ => ?_
    split
    · exact hc.trans (aheadCheck_keepsFree _ _ _)
    · exact hc.trans (setCatchUp_keepsFree _ _)

theorem failAttempt_keepsFree (s : State) : KeepsFree s (failAttempt s) := by
  have hr : KeepsFree s (failureCounted s) :=
    (((retract_sameBut isPull s).keepsFree.trans (markPullsStale_sameBut _).keepsFree).trans
      (setRounds_sameBut _ _).keepsFree).trans (setCatchUp_keepsFree _ _)
  rw [failAttempt_eq]
  exact .ite (fun _ => hr.trans (enterDetached_keepsFree _ _)) fun _ =>
    .ite (fun _ => hr.trans (enterListening_keepsFree _)) (fun _ => hr.trans (nextAttempt_keepsFree _ _))

theorem findFailure_keepsFree (c : FailCause) (s : State) : KeepsFree s (findFailure c s) := by
  unfold findFailure
  split
  · exact .refl s
  · have hr := (retract_sameBut isJoin s).keepsFree
    exact .ite (fun _ => hr.trans (setCatchUp_keepsFree _ _)) (fun _ => hr.trans (failAttempt_keepsFree _))
  · exact failAttempt_keepsFree s
  · exact failAttempt_keepsFree s
  · exact failAttempt_keepsFree s

theorem overwriteItem_keepsFree {area item : Byte} {contents : List Byte} {x : ImageItem}
    (hx : imageItem? area item contents = some x) (s : State) : KeepsFree s (overwriteItem x s) := by
  cases x with
  | members map check => exact (liveSet_sameBut s _).keepsFree
  | round k r =>
    exact ((setRounds_sameBut s _).keepsFree.trans (settlePlaces_sameBut _).keepsFree).trans (openRoundNotice_sameBut s _).keepsFree
  | slot i x u => exact (imageSlot_sameBut s i x u).keepsFree.trans (giveNotice_sameBut _).keepsFree
  | line l e => exact imageLine_keepsFree s l (imageItem_free hx)

theorem onImage_keepsFree (h : Header) (a i : Byte) (q : Word) (bs : List Byte) (s : State) :
    KeepsFree s (onImage h a i q bs s) := by
  unfold onImage
  split
  · exact .refl s
  · rename_i x hx
    refine .ite (fun _ => ?_) (fun _ => .refl s)
    have ho := ((seq_sameBut s q).keepsFree.trans (tookItem_sameBut a i _).keepsFree).trans (overwriteItem_keepsFree hx _)
    exact .ite (fun _ => ho.trans (findFailure_keepsFree _ _)) fun _ =>
      .ite (fun _ => ho.trans (burstDone_sameBut _).keepsFree) (fun _ => ho)

theorem sourceHeard_keepsFree (b : PresenceBody) (k : StationId) (s : State) : KeepsFree s (sourceHeard b k s) := by
  have hf : ∀ c, KeepsFree s (findFailure c s) := fun c => findFailure_keepsFree c s
  unfold sourceHeard
  dsimp only
  split
  · exact .refl s
  · exact .ite (fun _ => (setCatchUp_keepsFree s _).trans (aheadCheck_keepsFree _ _ _)) (fun _ => hf _)
  · exact .ite (fun _ => .refl s) (fun _ => hf _)
  · exact .ite (fun _ => (beginJoining_sameBut s).keepsFree) fun _ => .ite (fun _ => hf _) (fun _ => hf _)
  · exact .ite (fun _ => .refl s) (fun _ => hf _)

/-! ### Membership -/

theorem founderCheck_keepsFree (s : State) : KeepsFree s (founderCheck s) := by
  have hr := (retract_sameBut isFoundingJoin s).keepsFree
  exact .ite (fun _ => .ite (fun _ => hr) (fun _ => hr.trans (enterCatchup_keepsFree _))) (fun _ => .refl s)

theorem listeningExpired_keepsFree (s : State) : KeepsFree s (listeningExpired s) :=
  .ite (fun _ => .ite (fun _ => enterCatchup_keepsFree s) fun _ =>
    .ite (fun _ => (windowShut_sameBut s).keepsFree.trans (request_sameBut _ _).keepsFree) (fun _ => (heard_sameBut s _).keepsFree))
    (fun _ => .refl s)

theorem listeningPresence_keepsFree (k : StationId) (st : StationState) (b : PresenceBody) (s : State) :
    KeepsFree s (listeningPresence k st b s) := by
  unfold listeningPresence
  have heard : KeepsFree s (if (s.memb.windowOpen && k != self s) = true then
      { s with memb := { s.memb with heard := tset s.memb.heard k (some ⟨st, b.seq, b.yield, b.check⟩) } } else s) :=
    .ite (fun _ => (heard_sameBut s _).keepsFree) (fun _ => .refl s)
  exact .ite (fun _ => (heard.trans (liveSet_sameBut _ _).keepsFree).trans (founderCheck_keepsFree _)) (fun _ => heard)

theorem onPresence_keepsFree (h : Header) (b : PresenceBody) (s : State) : KeepsFree s (onPresence h b s) := by
  unfold onPresence
  split
  · rename_i k st _ _
    refine .ite (fun _ => (recordPresence_sameBut k st b s).keepsFree.trans ?_) (fun _ => .refl s)
    dsimp only
    split
    · exact (livePresence_sameBut _ _ _ _).keepsFree
    · exact listeningPresence_keepsFree _ _ _ _
    · exact .ite (fun _ => sourceHeard_keepsFree _ _ _) (fun _ => .refl _)
    · exact .refl _
  · exact .refl s

theorem joinTaken_keepsFree (k : StationId) (d : Bool) (s : State) : KeepsFree s (joinTaken k d s) := by
  unfold joinTaken
  refine .ite (fun _ => (enterLive_sameBut s).keepsFree) fun _ => ?_
  split
  · exact (setSilence_sameBut s k _).keepsFree.trans (liveSetChanged_sameBut d _).keepsFree
  · exact founderCheck_keepsFree s
  · exact .refl s

theorem onJoin_keepsFree (h : Header) (b : JoinBody) (s : State) : KeepsFree s (onJoin h b s) := by
  unfold onJoin
  split
  · exact .refl s
  · refine .ite (fun _ => .refl s) fun _ => .ite (fun _ => ?_) fun _ => ?_
    · exact ((liveSet_sameBut s _).keepsFree.trans (recordJoin_sameBut s _ b _).keepsFree).trans (joinTaken_keepsFree _ _ _)
    · exact .ite (fun _ => failAttempt_keepsFree s) (fun _ => .refl s)

theorem onJoinFounding_keepsFree (h : Header) (b : JoinBody) (s : State) : KeepsFree s (onJoinFounding h b s) := by
  unfold onJoinFounding
  split
  · exact .refl s
  · refine .ite (fun _ => .refl s) fun _ => .ite (fun _ => ?_) fun _ => ?_
    · exact ((liveSet_sameBut s _).keepsFree.trans (recordJoin_sameBut s _ b _).keepsFree).trans (joinTaken_keepsFree _ _ _)
    · exact .ite (fun _ => enterCatchup_keepsFree s) (fun _ => .refl s)

theorem selfRemoved_keepsFree (r : ExpelReason) (s : State) : KeepsFree s (selfRemoved r s) := by
  by_cases hr : r = .restart ∨ s.memb.restartOutstanding = true
  · rw [selfRemoved_restarts hr]
    exact (restartsFrom_sameBut s).keepsFree.trans (warmStart_keepsFree _ _)
  · obtain ⟨hne, hout⟩ := not_or.mp hr
    rw [selfRemoved_stays hne (by simpa using hout)]
    exact ((outOfLive_sameBut s).keepsFree.trans (reportedLost_sameBut s).keepsFree).trans (nextAttempt_keepsFree _ _)

theorem onExpel_keepsFree (node reason : Byte) (s : State) : KeepsFree s (onExpel node reason s) := by
  unfold onExpel
  split
  · rename_i k r _ _
    refine .ite (fun _ => ?_) (fun _ => .refl s)
    have hrem := removeMember_keepsFree k s
    unfold expelMember
    split
    · exact (liveSet_sameBut s _).keepsFree
    · exact .ite (fun _ => hrem.trans (findFailure_keepsFree _ _)) (fun _ => hrem)
    · exact .ite (fun _ => hrem.trans (selfRemoved_keepsFree r _)) (fun _ => hrem.trans (liveSetChanged_sameBut _ _).keepsFree)
    · exact .refl s
  · exact .refl s

theorem onZero_keepsFree (h : Header) (cause : Byte) (s : State) : KeepsFree s (onZero h cause s) := by
  unfold onZero
  split
  · exact .refl s
  · exact .ite (fun _ => zeroise_keepsFree _ _ s) (fun _ => .refl s)

/-! ### Rounds and custody -/

theorem applyWindowClose_keepsFree (r : Round) (s : State) : KeepsFree s (applyWindowClose r s) :=
  .ite (fun _ => closeWindow_keepsFree s) (fun _ => .refl s)

theorem onCommit_keepsFree (h : Header) (n : Byte) (q : Word) (v : Half) (s : State) : KeepsFree s (onCommit h n q v s) := by
  have happly : ∀ r, KeepsFree s (applyRound r s) := fun r => (applyRound_sameBut r s).keepsFree
  have hdrop : ∀ p k, KeepsFree s (dropRound p k s) := fun p k => (dropRound_sameBut p k s).keepsFree
  unfold onCommit
  refine .ite (fun _ => ?_) fun _ => ?_
  · split
    · refine KeepsFree.trans ?_ (selfExpel_sameBut _ _).keepsFree
      exact (hdrop _ _).trans (.ite (fun _ => (endPlain_sameBut _ _ _).keepsFree) (fun _ => .refl _))
    · refine KeepsFree.trans ?_ (applyWindowClose_keepsFree _ _)
      refine KeepsFree.trans ?_ (.ite (fun _ => (selfExpel_sameBut _ _).keepsFree) (fun _ => .refl _))
      exact (happly _).trans (.ite (fun _ => (endItem_sameBut _ _ _ _ _).keepsFree) (fun _ => .refl _))
    · exact .refl s
  · unfold commitCatchup
    split
    · exact .refl s
    · exact .ite (fun _ => hdrop _ _) (fun _ => (happly _).trans (applyWindowClose_keepsFree _ _))

theorem acceptRestart_keepsFree (h : Header) (b : OrderBody) (s : State) : KeepsFree s (acceptRestart h b s) := by
  refine .ite (fun _ => (refuseOrder_sameBut _ _ _ _ _ s).keepsFree) fun _ => .ite (fun _ => ?_) fun _ => ?_
  · refine KeepsFree.trans ?_ (selfExpel_sameBut _ _).keepsFree
    exact keepsFree_of_lines
  · refine KeepsFree.trans ?_ (warmStart_keepsFree _ _)
    exact keepsFree_of_lines

theorem acceptYield_keepsFree (h : Header) (b : OrderBody) (s : State) : KeepsFree s (acceptYield h b s) := by
  refine .ite (fun _ => (refuseOrder_sameBut _ _ _ _ _ s).keepsFree) fun _ => KeepsFree.trans ?_ (warmStart_keepsFree _ _)
  exact keepsFree_of_lines

theorem orderArrives_keepsFree (k : Byte) {accept : State → State} (h : Header) (b : OrderBody) {s : State}
    (ha : KeepsFree s (accept s)) : KeepsFree s (orderArrives k accept h b s) := by
  have hr : ∀ o d, KeepsFree s (refuseOrder h k b o d s) := fun o d => (refuseOrder_sameBut h k b o d s).keepsFree
  exact .ite (fun _ => .refl s) fun _ => .ite (fun _ => hr _ _) fun _ => .ite (fun _ => hr _ _) fun _ =>
    .ite (fun _ => hr _ _) (fun _ => ha)

theorem onOrder_keepsFree (h : Header) (k : Byte) (b : OrderBody) (s : State) : KeepsFree s (onOrder h k b s) := by
  unfold onOrder
  split
  case h_9 => exact orderArrives_keepsFree _ h b (acceptRestart_keepsFree h b s)
  case h_10 => exact orderArrives_keepsFree _ h b (acceptYield_keepsFree h b s)
  case h_11 => exact orderArrives_keepsFree _ h b (zeroise_keepsFree _ _ s)
  case h_12 => exact orderArrives_keepsFree _ h b (.refl s)
  all_goals exact orderArrives_keepsFree _ h b (acceptRoundOrder_sameBut _ h b s).keepsFree

theorem onComponentCabinet_keepsFree (h : Header) (b : ComponentBody) (s : State) :
    KeepsFree s (onComponentCabinet h b s) := by
  have hr : ∀ b d, KeepsFree s (refuseComponent h b d s) := fun b d => (refuseComponent_sameBut h b d s).keepsFree
  have harea : ∀ a x f, KeepsFree s (request f (setArea s a x)) := fun a x f =>
    (setArea_sameBut s a x).keepsFree.trans (request_sameBut f _).keepsFree
  unfold onComponentCabinet
  refine .ite (fun _ => ?_) (fun _ => .refl s)
  refine .ite (fun _ => hr _ _) fun _ => .ite (fun _ => hr _ _) fun _ => ?_
  split
  · exact hr _ _
  · exact .ite (fun _ => .ite (fun _ => enterListening_keepsFree _) (fun _ => harea _ _ _)) (fun _ => harea _ _ _)

/-! ### The receive filter and the own transmitter -/

theorem deliver_keepsFree (h : Header) (f : Frame) (s : State) : KeepsFree s (deliver h f s) := by
  unfold deliver
  split
  · exact onZero_keepsFree h _ s
  · exact onPresence_keepsFree h _ s
  · exact onJoin_keepsFree h _ s
  · exact onJoinFounding_keepsFree h _ s
  · exact onExpel_keepsFree _ _ s
  · exact onClaim_keepsFree h _ s
  · exact .ite (fun _ => settleFrame_keepsFree _ _ _ s) (fun _ => .refl s)
  · exact settleFrame_keepsFree _ _ _ s
  · exact onCancel_keepsFree h _ _ s
  · exact (onPropose_sameBut h _ s).keepsFree
  · exact (onBody_sameBut h _ _ _ s).keepsFree
  · exact (onAccept_sameBut h _ _ s).keepsFree
  · exact (onRefuse_sameBut h _ _ _ s).keepsFree
  · exact onCommit_keepsFree h _ _ _ s
  · exact (onAbandon_sameBut h _ _ s).keepsFree
  · exact onOrder_keepsFree h _ _ s
  · exact .ite (fun _ => onComponentCabinet_keepsFree h _ s) (fun _ => (onComponentSlot_sameBut h _ s).keepsFree)
  · exact onOpen_keepsFree h _ s
  · exact onClose_keepsFree h _ s
  · exact onCleared_keepsFree h _ s
  · exact post_keepsFree _ _ _ _ _ _ _ s
  · exact post_keepsFree _ _ _ _ _ _ _ s
  · exact (onCards_sameBut h _ s).keepsFree
  · exact .refl s
  · exact onFinal_keepsFree h _ s
  · exact (onPull_sameBut h _ _ s).keepsFree
  · exact onImage_keepsFree h _ _ _ _ s
  · unfold onQueryFrame
    split
    · exact .refl s
    · exact (onQuery_sameBut _ _ _ s).keepsFree
  · exact .refl s

theorem filterFrame_keepsFree (h : Header) (f : Frame) {g : State → State} (hg : ∀ u, KeepsFree u (g u)) (s : State) :
    KeepsFree s (filterFrame h f g s) := by
  have hi : KeepsFree s (receivedIntact s) := (receivedIntact_sameBut s).keepsFree
  have hn : KeepsFree s (noteGateway h (receivedIntact s)) := hi.trans (noteGateway_sameBut h _).keepsFree
  exact .ite (fun _ => .ite (fun _ => hi.trans (countMisplaced_sameBut _).keepsFree) fun _ =>
      .ite (fun _ => hn) fun _ => .ite (fun _ => hn.trans (countNonMember_sameBut _).keepsFree) fun _ =>
        .ite (fun _ => hn.trans (hg _)) (fun _ => hn))
    (fun _ => (slotUndriven_sameBut s).keepsFree)

theorem receiveError_keepsFree (s : State) : KeepsFree s (receiveError s) := by
  refine .ite (fun _ => (countReceiveError_sameBut s).keepsFree.trans ?_) (fun _ => (slotUndriven_sameBut s).keepsFree)
  unfold receiveErrorFound
  split
  · exact (selfExpel_sameBut _ _).keepsFree
  · exact findFailure_keepsFree _ _
  · exact .refl _

theorem receiveRaw_keepsFree (r : RawFrame) (s : State) : KeepsFree s (receiveRaw r s) := by
  refine .ite (fun _ => receiveError_keepsFree s) fun _ => ?_
  split
  · exact .ite (fun _ => (receivedIntact_sameBut s).keepsFree.trans (countMisplaced_sameBut _).keepsFree)
      (fun _ => (slotUndriven_sameBut s).keepsFree)
  · exact filterFrame_keepsFree _ _ (deliver_keepsFree _ _) s

theorem winArbitration_keepsFree (c : Candidate) (s : State) : KeepsFree s (winArbitration c s) := by
  have hb : ∀ (u : State) b, KeepsFree u (setBus u b) := fun u b => (setBus_sameBut u b).keepsFree
  unfold winArbitration
  split
  · split <;> exact hb _ _
  · exact hb _ _
  · split
    · exact hb _ _
    · exact (((beforeFetch_sameBut _ s).keepsFree.trans (refuseHeld_sameBut _ _).keepsFree).trans
        (clearHold_sameBut _ _).keepsFree).trans (hb _ _)

theorem withdrawn_keepsFree (f : TxFrame) (s : State) : KeepsFree s (withdrawn f s) := by
  unfold withdrawn
  split
  · exact (returnClaim_sameBut _ s).keepsFree
  · exact (proposeWithdrawn_sameBut s).keepsFree
  · exact .ite (fun _ => enterCatchup_keepsFree s) (fun _ => .refl s)
  · exact .ite (fun _ => failAttempt_keepsFree s) (fun _ => .refl s)
  · exact (finalWithdrawn_sameBut _ s).keepsFree
  · exact .refl s

theorem loseArbitration_keepsFree (c : Candidate) (s : State) : KeepsFree s (loseArbitration c s) := by
  have h0 : KeepsFree s (setBus s .idle) := (setBus_sameBut s .idle).keepsFree
  have hfree : ∀ age, KeepsFree s (fillQueue { setBus s .idle with link := freeEntry (setBus s .idle).link age }) :=
    fun age => (h0.trans (freeEntry_sameBut _ age).keepsFree).trans (fillQueue_sameBut _).keepsFree
  unfold loseArbitration
  dsimp only
  split
  · exact h0
  · exact h0
  · split
    · exact h0
    · split
      · exact h0
      · exact hfree _
      · exact (hfree _).trans (withdrawn_keepsFree _ _)

theorem endArbitration_keepsFree (won : Bool) (s : State) : KeepsFree s (endArbitration won s) := by
  unfold endArbitration
  split
  · exact .ite (fun _ => winArbitration_keepsFree _ s) (fun _ => loseArbitration_keepsFree _ s)
  · exact .refl s

theorem completed_keepsFree (f : TxFrame) (m : NodeMap) (s : State) : KeepsFree s (completed f m s) := by
  unfold completed
  split
  · exact .ite (fun _ => (returnClaim_sameBut _ s).keepsFree) (fun _ => .refl s)
  · exact (answerSent_sameBut _ _ _ _ s).keepsFree
  · exact (finalSent_sameBut _ _ _ s).keepsFree
  · exact (pullSent_sameBut _ s).keepsFree
  · exact (imageSent_sameBut _ _ _ s).keepsFree
  · exact .refl s

theorem frameCompleted_keepsFree (receipt : NodeMap) (s : State) : KeepsFree s (frameCompleted receipt s) := by
  unfold frameCompleted
  split
  · rename_i c dst f _
    have hfree : KeepsFree s { s with link := releaseSent c { s.link with bus := .idle } } := keepsFree_of_lines
    have hsent := (hfree.trans (fillQueue_sameBut _).keepsFree).trans
      (filterFrame_keepsFree ⟨ownNode s, dst⟩ f (deliver_keepsFree ⟨ownNode s, dst⟩ f) _)
    dsimp only
    split
    · exact hsent
    · exact hsent.trans (completed_keepsFree _ _ _)
  · exact .refl s

theorem abortFrame_keepsFree (s : State) : KeepsFree s (abortFrame s) := by
  have h0 : KeepsFree s (slotUndriven s) := (slotUndriven_sameBut s).keepsFree
  refine .ite (fun _ => ?_) (fun _ => h0)
  split
  · exact h0.trans (setBus_sameBut _ _).keepsFree
  · exact h0

theorem contend_keepsFree (s : State) : KeepsFree s (contend s) := by
  unfold contend
  split
  · refine .ite (fun _ => ?_) (fun _ => .refl s)
    split
    · exact .refl s
    · exact (setBus_sameBut s _).keepsFree
  · exact .refl s

/-! ### The inputs and the supply -/

theorem supplyReturn_keepsFree (s : State) : KeepsFree s (match s.memb.state with
    | .retention => supplyToRetained s
    | .strapFault => if s.inputs.powerFail then coldStart s else s
    | _ => s) := by
  split
  · exact .ite (fun _ => coldStart_keepsFree s) fun _ =>
      .ite (fun _ => returnZeroised_keepsFree s) (fun _ => warmStart_keepsFree _ s)
  · exact .ite (fun _ => coldStart_keepsFree s) (fun _ => .refl s)
  · exact .refl s

theorem powerFail_keepsFree (s : State) : KeepsFree s (match s.memb.state with
    | .retention => s
    | .strapFault => { s with
        inputs := { s.inputs with powerFail := true }, tamper := { s.tamper with storeValid := false } }
    | _ => enterRetention { s with inputs := { s.inputs with powerFail := true } }) := by
  split
  · exact .refl s
  · exact keepsFree_of_lines
  · exact KeepsFree.trans keepsFree_of_lines (enterRetention_keepsFree { s with inputs := _ })

theorem noteDoor_lines (ch : Channel) (v : BitVec 10) (s : State) : (noteDoor ch v s).lines = s.lines := by
  unfold noteDoor
  split <;> rfl

/-! ### Every command -/

theorem exec_keepsFree (c : Instr) (s : State) : Yields c s (KeepsFree s) := by
  have settled : ∀ {u : State}, exec c s = .next (settle u) → KeepsFree s u → Yields c s (KeepsFree s) :=
    fun hx h => ⟨_, hx, h.trans (settle_sameBut _).keepsFree⟩
  have handled : ∀ {h : Header} {f : Frame} {g : State → State}, exec c s = .next (receive h f g s) →
      (∀ u, KeepsFree u (g u)) → Yields c s (KeepsFree s) :=
    fun hx hg => settled hx (filterFrame_keepsFree _ _ hg s)
  have delivered : ∀ (h : Header) (f : Frame), exec c s = .next (receive h f (deliver h f) s) → Yields c s (KeepsFree s) :=
    fun h f hx => handled hx (deliver_keepsFree h f)
  have deliveredPins : ∀ (pins : Pins) (h : Header) (f : Frame),
      exec c s = .next (receive h f (deliver h f) (takePins pins s)) → Yields c s (KeepsFree s) :=
    fun pins h f hx => settled hx ((takePins_sameBut pins s).keepsFree.trans (filterFrame_keepsFree _ _ (deliver_keepsFree h f) _))
  cases c with
  | supplyReturn pins => exact settled rfl ((takePins_sameBut pins s).keepsFree.trans (supplyReturn_keepsFree _))
  | powerFail pins => exact settled rfl ((takePins_sameBut pins s).keepsFree.trans (powerFail_keepsFree _))
  | clearAsserted =>
    by_cases hc : s.inputs.clear = true
    · exact ⟨s, if_pos hc, .refl s⟩
    · refine settled (if_neg hc) (.ite (fun _ => ?_) (fun _ => ?_)) <;> exact keepsFree_of_lines
  | contention => exact ⟨_, rfl, contend_keepsFree s⟩
  | arbitrationEnd won => exact settled rfl (endArbitration_keepsFree won s)
  | frameSent receipt pins => exact settled rfl ((takePins_sameBut pins s).keepsFree.trans (frameCompleted_keepsFree receipt _))
  | abort => exact ⟨_, rfl, abortFrame_keepsFree s⟩
  | receiveError => exact settled rfl (receiveError_keepsFree s)
  | misplacedFrame raw => exact settled rfl (receiveRaw_keepsFree raw s)
  | zero h cause => exact delivered h (.zero cause) rfl
  | presence h b => exact delivered h (.presence b) rfl
  | join h b => exact delivered h (.join false b) rfl
  | joinFounding h b => exact delivered h (.join true b) rfl
  | expel h node reason pins => exact deliveredPins pins h (.expel node reason) rfl
  | claim h b => exact delivered h (.claim b) rfl
  | decline h pos reason => exact delivered h (.decline pos reason) rfl
  | unclaimed h pos => exact delivered h (.unclaimed pos) rfl
  | cancel h line position => exact delivered h (.cancel line position) rfl
  | propose h b => exact delivered h (.propose b) rfl
  | roundBody h number material check => exact delivered h (.roundBody number material check) rfl
  | accept h proposer number => exact delivered h (.accept proposer number) rfl
  | refuse h proposer number reason => exact delivered h (.refuse proposer number reason) rfl
  | commit h number seq version pins => exact deliveredPins pins h (.commit number seq version) rfl
  | abandon h number reason => exact delivered h (.abandon number reason) rfl
  | orderActivate h b => exact delivered h (.order codeActivate b) rfl
  | orderSuspend h b => exact delivered h (.order codeSuspend b) rfl
  | orderResume h b => exact delivered h (.order codeResume b) rfl
  | orderRetire h b => exact delivered h (.order codeRetire b) rfl
  | orderDestroy h b => exact delivered h (.order codeDestroy b) rfl
  | orderEdit h b => exact delivered h (.order codeEdit b) rfl
  | orderWindowOpen h b => exact delivered h (.order codeWindowOpen b) rfl
  | orderWindowClose h b => exact delivered h (.order codeWindowClose b) rfl
  | orderRestart h b pins => exact deliveredPins pins h (.order codeRestart b) rfl
  | orderYield h b pins => exact deliveredPins pins h (.order codeYield b) rfl
  | orderErase h b => exact delivered h (.order codeErase b) rfl
  | orderUnknownKind h kind b => exact handled rfl fun u => orderArrives_keepsFree kind (accept := id) h b (.refl u)
  | componentSlot h b => exact handled rfl fun u => (onComponentSlot_sameBut h b u).keepsFree
  | componentCabinet h b => exact handled rfl (onComponentCabinet_keepsFree h b)
  | openLine h line => exact delivered h (.openLine line) rfl
  | close h b => exact delivered h (.close b) rfl
  | cleared h b => exact delivered h (.cleared b) rfl
  | job h b => exact delivered h (.job b) rfl
  | batch h b => exact delivered h (.batch b) rfl
  | cards h b => exact delivered h (.cards b) rfl
  | answer h body => exact delivered h (.answer body) rfl
  | final h b => exact delivered h (.final b) rfl
  | pull h area start => exact delivered h (.pull area start) rfl
  | image h area item seq contents => exact delivered h (.image area item seq contents) rfl
  | queryIdentity h tag => exact handled rfl fun u => (onQuery_sameBut h tag _ u).keepsFree
  | queryStatus h tag => exact handled rfl fun u => (onQuery_sameBut h tag _ u).keepsFree
  | querySlot h tag sel => exact handled rfl fun u => (onQuery_sameBut h tag _ u).keepsFree
  | queryLine h tag gateway line => exact handled rfl fun u => (onQuery_sameBut h tag _ u).keepsFree
  | querySensors h tag => exact handled rfl fun u => (onQuery_sameBut h tag _ u).keepsFree
  | report h body => exact delivered h (.report body) rfl
  | presenceLoad => exact ⟨_, rfl, .ite (fun _ => keepsFree_of_lines) (fun _ => .refl s)⟩
  | silenceWatchExpiry k => exact settled rfl (silenceExpired_sameBut k s).keepsFree
  | listeningWindowExpiry => exact settled rfl (listeningExpired_keepsFree s)
  | roundDeadlineExpiry => exact settled rfl (roundDeadline_sameBut s).keepsFree
  | assemblyTimeout a => exact settled rfl (areaTimeout_sameBut a s).keepsFree
  | pullTimerExpiry => exact settled rfl (.ite (fun _ => findFailure_keepsFree _ s) (fun _ => .refl s))
  | verificationTimerExpiry => exact settled rfl (.ite (fun _ => findFailure_keepsFree _ s) (fun _ => .refl s))
  | deferralTimerExpiry l p => exact settled rfl (deferralExpired_sameBut l p s).keepsFree
  | unclaimedDeadlineExpiry l p => exact settled rfl (unclaimedExpired_sameBut l p s).keepsFree
  | gatewayWatchExpiry g => exact settled rfl (gatewayExpired_sameBut g s).keepsFree
  | cardGapDeadlineExpiry d =>
    exact settled rfl (.ite (fun _ => (endLoading_sameBut _ s d).keepsFree) (fun _ => .refl s))
  | channelSample ch reading =>
    exact settled rfl (KeepsFree.trans (keepsFree_of_lines (noteDoor_lines ch reading s))
      (.ite (fun _ => sample_keepsFree _ ch _) (fun _ => .refl _)))
  | windowExpiry => exact settled rfl (closeWindow_keepsFree s)
  | cardCompletion => exact settled rfl (completeCard_sameBut s).keepsFree
  | retainedStorePowerLoss => exact ⟨_, rfl, .ite (fun _ => keepsFree_of_lines) (fun _ => .refl s)⟩
  | clearReleased => exact ⟨_, rfl, keepsFree_of_lines⟩

/-- Settles O59: an entry is written as a free one by freeing it or by an image of the free entry, and every other write finds the
entry in use. -/
theorem stepKeepsFreeLinesZero : Obligations.StepKeepsFreeLinesZero := by
  intro s t hs ht
  unfold step at ht
  split at ht
  · cases ht
    exact hs
  · rename_i c rest _
    obtain ⟨u, hx, hk⟩ := exec_keepsFree c { s with pending := rest }
    obtain rfl : u = t := Host.Outcome.next.inj (hx.symm.trans ht)
    exact hk hs

end Sys2Proof.Machine
end


section
/-! SUPPORT. The line table (chapter 7): D's advance, opening, posting, settlement, completion, closing and the line table's timers. -/
set_option Elab.async false

namespace Sys2Proof.Machine

/-! ## D's advance (R123) -/

theorem placeOf_inj {a b : BitVec 4} : placeOf a = placeOf b ↔ a = b := by
  unfold placeOf
  rw [Fin.mk.injEq, BitVec.toNat_inj]

/-- D has moved over `k` DONE positions before P, each of them FREE now with its fields zeroed; the others stand (R123). -/
structure Advanced (k : Nat) (e f : LineEntry) : Prop where
  d : f.d = e.d + BitVec.ofNat 4 k
  passed : ∀ i < k, e.d + BitVec.ofNat 4 i ≠ e.p ∧ (tget e.positions (placeOf (e.d + BitVec.ofNat 4 i))).state = .done
    ∧ tget f.positions (placeOf (e.d + BitVec.ofNat 4 i)) = Position.zero
  others : ∀ q : BitVec 4, (∀ i < k, q ≠ e.d + BitVec.ofNat 4 i) →
    tget f.positions (placeOf q) = tget e.positions (placeOf q)

/-- D stands at P or at a position that is not DONE. -/
def AdvanceStops (f : LineEntry) : Prop := f.d = f.p ∨ (tget f.positions (placeOf f.d)).state ≠ .done

/-- One position passed. -/
def passDone (e : LineEntry) : LineEntry := { e with positions := tset e.positions (placeOf e.d) Position.zero, d := e.d + 1#4 }

theorem dAdvanceLoop_stops {e : LineEntry} (n : Nat) (h : AdvanceStops e) : dAdvanceLoop (n + 1) e = e := by
  rw [dAdvanceLoop]
  refine if_neg ?_
  rintro ⟨hp, hd⟩
  rcases h with h | h
  · exact hp h
  · exact h hd

theorem dAdvanceLoop_passes {e : LineEntry} (n : Nat) (h : ¬AdvanceStops e) :
    dAdvanceLoop (n + 1) e = dAdvanceLoop n (passDone e) := by
  unfold AdvanceStops at h
  rw [not_or, not_not] at h
  exact if_pos h

theorem add_ofNat_succ (d : BitVec 4) (i : Nat) : d + 1#4 + BitVec.ofNat 4 i = d + BitVec.ofNat 4 (i + 1) := by
  rw [BitVec.add_assoc, BitVec.add_comm 1#4, ← BitVec.ofNat_add]

/-- Positions passed after the first one. -/
theorem Advanced.succ {k : Nat} {e f : LineEntry} (hs : ¬AdvanceStops e) (h : Advanced k (passDone e) f) :
    Advanced (k + 1) e f := by
  obtain ⟨hp, hd⟩ := not_or.mp hs
  have hfirst : tget (passDone e).positions (placeOf e.d) = Position.zero := tget_tset_self _ _ _
  have hrest : ∀ q : BitVec 4, q ≠ e.d → tget (passDone e).positions (placeOf q) = tget e.positions (placeOf q) :=
    fun q hq => tget_tset_of_ne _ _ (placeOf_inj.not.mpr hq)
  have hne : ∀ i < k, e.d + BitVec.ofNat 4 (i + 1) ≠ e.d := fun i hi he => by
    obtain ⟨-, hdone, -⟩ := h.passed i hi
    change (tget (passDone e).positions (placeOf (e.d + 1#4 + _))).state = _ at hdone
    rw [add_ofNat_succ, he, hfirst] at hdone
    cases hdone
  refine ⟨?_, fun i hi => ?_, fun q hq => ?_⟩
  · rw [h.d, ← add_ofNat_succ]
    rfl
  · cases i with
    | zero =>
      rw [BitVec.add_zero]
      refine ⟨hp, not_not.mp hd, (h.others e.d fun i hi he => hne i hi ?_).trans hfirst⟩
      rw [← add_ofNat_succ]
      exact he.symm
    | succ i =>
      have hi' : i < k := Nat.lt_of_succ_lt_succ hi
      obtain ⟨hnp, hdone, hzero⟩ := h.passed i hi'
      change e.d + 1#4 + _ ≠ e.p at hnp
      change (tget (passDone e).positions (placeOf (e.d + 1#4 + _))).state = _ at hdone
      change tget f.positions (placeOf (e.d + 1#4 + _)) = _ at hzero
      rw [add_ofNat_succ] at hnp hdone hzero
      rw [hrest _ (hne i hi')] at hdone
      exact ⟨hnp, hdone, hzero⟩
  · have hq0 : q ≠ e.d := fun he => hq 0 (Nat.succ_pos k) (by rw [he]; simp)
    refine (h.others q fun i hi he => hq (i + 1) (Nat.succ_lt_succ hi) ?_).trans (hrest q hq0)
    rw [← add_ofNat_succ]
    exact he

theorem dAdvanceLoop_advanced (n : Nat) (e : LineEntry) :
    ∃ k ≤ n, Advanced k e (dAdvanceLoop n e) ∧ (k = n ∨ AdvanceStops (dAdvanceLoop n e)) := by
  have hnone : ∀ e : LineEntry, Advanced 0 e e := fun e =>
    ⟨by simp, fun i hi => absurd hi (Nat.not_lt_zero i), fun _ _ => rfl⟩
  induction n generalizing e with
  | zero => exact ⟨0, le_rfl, hnone e, .inl rfl⟩
  | succ n ih =>
    by_cases hs : AdvanceStops e
    · rw [dAdvanceLoop_stops n hs]
      exact ⟨0, Nat.zero_le _, hnone e, .inr hs⟩
    · rw [dAdvanceLoop_passes n hs]
      obtain ⟨k, hk, hadv, hend⟩ := ih (passDone e)
      exact ⟨k + 1, Nat.succ_le_succ hk, hadv.succ hs, hend.imp_left (congrArg Nat.succ)⟩

/-- P stops the advance before D has gone round the ring. -/
theorem Advanced.lt_ring {k : Nat} {e f : LineEntry} (h : Advanced k e f) : k < 16 := by
  by_contra hk
  obtain ⟨hp, -⟩ := h.passed (e.p - e.d).toNat ((e.p - e.d).isLt.trans_le (Nat.le_of_not_lt hk))
  rw [BitVec.ofNat_toNat, BitVec.setWidth_eq] at hp
  exact hp (by rw [BitVec.add_comm, BitVec.sub_add_cancel])

/-- Settles O24: D's loop position by position; P ends it within the ring. -/
theorem dAdvanceFreesDonePositions : Obligations.DAdvanceFreesDonePositions := by
  intro e
  obtain ⟨k, -, hadv, hend⟩ := dAdvanceLoop_advanced 16 e
  obtain ⟨hp, hstate, hclear, hgateway, hline⟩ := dAdvanceLoop_fields 16 e
  have hstops : AdvanceStops (dAdvanceLoop 16 e) := hend.resolve_left (Nat.ne_of_lt hadv.lt_ring)
  refine ⟨k, hadv.lt_ring, hadv.d, hadv.passed, hadv.others, ?_, hp, hstate, hclear, hgateway, hline⟩
  unfold AdvanceStops at hstops
  rwa [hp] at hstops

end Sys2Proof.Machine

namespace Sys2Proof.Machine

/-! ## What the line table finds of a frame that has arrived -/

/-- Any frame that reaches its block: the block's part on what the arrival leaves, then the end of the step. -/
theorem yields_arrived {c : Instr} {h : Header} {f : Frame} {g : State → State} {s : State} {P : State → Prop}
    (hx : exec c s = .next (receive h f g s)) (hr : Reaches s h f) (hp : P (settle (g (arrived h s)))) : Yields c s P :=
  yields_settle (hx.trans (congrArg _ (receive_reaches g hr))) rfl hp

/-- A change made by a gateway's frame, and the end of the step. -/
theorem SameBut.arrived {c e : List Part} {h : Header} {s v : State} (hv : SameBut c (arrived h s) v) (hc : ∀ p, p ∈ c → p ∈ e)
    (he : ∀ p, p ∈ gatewayFrame → p ∈ e) : SameBut e s (settle v) :=
  ((arrived_sameBut h s).comp hv (fun p hp => he p (by revert p; decide)) hc).trans
    ((settle_sameBut v).mono fun p hp => he p (by revert p; decide))

theorem arrived_entries (h : Header) (s : State) : (arrived h s).lines.entries = s.lines.entries :=
  arrived_sameBut h s .entries (by decide)

theorem arrived_locals (h : Header) (s : State) : (arrived h s).lines.locals = s.lines.locals :=
  arrived_sameBut h s .locals (by decide)

theorem arrived_wirePlace (h : Header) (s : State) : (arrived h s).wirePlace = s.wirePlace + 1 :=
  noteGateway_sameBut h (receivedIntact s) .wirePlace (by decide)

theorem findLine_eq {t u : LineTable} (h : t.entries = u.entries) (g line : Byte) : findLine t g line = findLine u g line := by
  unfold findLine
  rw [h]

theorem entryAt_eq {s t : State} (h : t.lines.entries = s.lines.entries) (l : LineId) : entryAt t l = entryAt s l := by
  unfold entryAt
  rw [h]

theorem positionOf_eq {s t : State} (h : t.lines.entries = s.lines.entries) (l : LineId) (p : PosId) :
    positionOf t l p = positionOf s l p := by
  unfold positionOf
  rw [entryAt_eq h]

theorem localAt_eq {s t : State} (h : t.lines.locals = s.lines.locals) (l : LineId) (p : PosId) :
    localAt t l p = localAt s l p := by
  unfold localAt
  rw [h]

theorem duty_eq {s t : State} (hm : t.memb = s.memb) (hs : t.straps = s.straps) : duty t = duty s := by
  unfold duty isLive lowestMember members self
  simp only [hm, hs]

theorem ownNode_eq {s t : State} (hs : t.straps = s.straps) : ownNode t = ownNode s := by
  unfold ownNode
  simp only [hs]

theorem postingTest_eq {s t : State} (h : t.lines.entries = s.lines.entries) (g line position : Byte) :
    postingTest t g line position = postingTest s g line position := by
  unfold postingTest
  simp only [findLine_eq h, entryAt_eq h]

theorem arrived_duty (h : Header) (s : State) : duty (arrived h s) = duty s :=
  duty_eq ((arrived_sameBut h s).memb (by decide)) (arrived_sameBut h s .straps (by decide))

theorem arrived_slotAtPosting (h : Header) (s : State) : slotAtPosting (arrived h s) = slotAtPosting s := by
  funext l
  unfold slotAtPosting
  rw [(arrived_sameBut h s).dir (by decide)]

theorem arrived_transportAtPosting (h : Header) (s : State) : transportAtPosting (arrived h s) = transportAtPosting s := by
  funext f l
  unfold transportAtPosting
  rw [arrived_slotAtPosting]

/-! ## Settlement (R132, R134) -/

/-- A settlement that finds its position POSTED. -/
theorem settleFrame_posted {pos : PosRef} {b : SettledBy} {r : DoneReason} {l : LineId} {p : PosId} {s : State}
    (hf : findPosition s pos = some (l, p)) (hp : (positionOf s l p).state = .posted) :
    settleFrame pos b r s = settlePosted s l p b r := by
  unfold settleFrame
  rw [hf]
  exact if_pos hp

/-- A settlement that comes late. -/
theorem settleFrame_late {pos : PosRef} {b : SettledBy} {r : DoneReason} {s : State}
    (hn : ∀ l p, findPosition s pos = some (l, p) → (positionOf s l p).state ≠ .posted) : settleFrame pos b r s = s := by
  unfold settleFrame
  split
  · rfl
  · rename_i l p hf
    exact if_neg (hn l p hf)

theorem onDecline_listed {reason : Byte} (h : declineReasonListed reason = true) (pos : PosRef) (s : State) :
    onDecline pos reason s = settleFrame pos .decline .declined s := if_pos h

theorem onDecline_late {pos : PosRef} {reason : Byte} {s : State}
    (hn : ∀ l p, findPosition s pos = some (l, p) → (positionOf s l p).state ≠ .posted) : onDecline pos reason s = s := by
  unfold onDecline
  split
  · exact settleFrame_late hn
  · rfl

theorem onCancel_posted {h : Header} {line position : Byte} {l : LineId} {p : PosId} {s : State}
    (hf : findPosition s ⟨byteOf h.src, line, position⟩ = some (l, p)) (hp : (positionOf s l p).state = .posted) :
    onCancel h line position s = settlePosted s l p .cancel .cancelled := by
  unfold onCancel
  dsimp only
  rw [hf]
  exact if_pos hp

theorem onCancel_late {h : Header} {line position : Byte} {s : State}
    (hn : ∀ l p, findPosition s ⟨byteOf h.src, line, position⟩ = some (l, p) →
      (positionOf s l p).state ≠ .posted ∧ claimedBy (positionOf s l p) (ownNode s) = false) :
    onCancel h line position s = s := by
  unfold onCancel
  dsimp only
  split
  · rfl
  · rename_i l p hf
    obtain ⟨hp, hc⟩ := hn l p hf
    rw [if_neg hp, if_neg (by rw [hc]; decide)]

/-- A position settled in the course of a step is settled at its end. -/
theorem settledAt_settle {s u : State} {l : LineId} {p : PosId} (b : SettledBy) (r : DoneReason)
    (he : u.lines.entries = s.lines.entries) (hl : u.lines.locals = s.lines.locals) :
    SettledAt b r l p s (settle (settlePosted u l p b r)) :=
  ((settlePosted_at u l p b r).before he hl).after (settle_sameBut _ .entries (by decide)) (settle_sameBut _ .locals (by decide))

/-- A station's settlement frame that settles its position. -/
theorem yields_settlement {c : Instr} {h : Header} {f : Frame} {pos : PosRef} {g : State → State} {s : State} {b : SettledBy}
    {r : DoneReason} {l : LineId} {p : PosId} (hx : exec c s = .next (receive h f g s)) (hr : Reaches s h f)
    (hs : ∀ q, frameSentBy f q = (q == .station)) (hf : findPosition s pos = some (l, p))
    (hp : (positionOf s l p).state = .posted) (hg : g (receivedIntact s) = settleFrame pos b r (receivedIntact s)) :
    Yields c s fun t => SettledAt b r l p s t ∧ SameBut (.entries :: .locals :: stationFrame) s t := by
  refine yields_received hx hr hs (hg.trans (settleFrame_posted (s := receivedIntact s) hf hp)) ⟨settledAt_settle b r rfl rfl, ?_⟩
  exact (settlePosted_sameBut _ l p b r).received (by decide) (by decide)

/-- Settles O23: each settlement by whether it finds its position POSTED. -/
theorem settlementEndsPosition : Obligations.SettlementEndsPosition := by
  refine ⟨fun h pos reason l p s hr hlist hf hp => ?_, fun h pos l p s hr hf hp => ?_, fun h line position l p s hr hf hp => ?_,
    fun h pos reason s hr hn => ?_, fun h pos s hr hn => ?_, fun h line position s hr hn => ?_⟩
  · exact yields_settlement (c := .decline h pos reason) rfl hr (fun _ => rfl) hf hp (onDecline_listed hlist _ _)
  · exact yields_settlement (c := .unclaimed h pos) rfl hr (fun _ => rfl) hf hp rfl
  · have he := arrived_entries h s
    have hp' : (positionOf (arrived h s) l p).state = .posted := by rw [positionOf_eq he]; exact hp
    refine yields_arrived (c := .cancel h line position) rfl hr ?_
    rw [onCancel_posted ((findPosition_eq he _).trans hf) hp']
    exact ⟨settledAt_settle _ _ he (arrived_locals h s), (settlePosted_sameBut _ l p _ _).arrived (by decide) (by decide)⟩
  · exact yields_received (c := .decline h pos reason) rfl hr (fun _ => rfl) (onDecline_late (s := receivedIntact s) hn)
      (settle_receivedIntact_sameBut s)
  · exact yields_received (c := .unclaimed h pos) rfl hr (fun _ => rfl) (settleFrame_late (s := receivedIntact s) hn)
      (settle_receivedIntact_sameBut s)
  · have he := arrived_entries h s
    refine yields_arrived (c := .cancel h line position) rfl hr ?_
    rw [onCancel_late fun l p hf => ?_]
    · exact (SameBut.refl [] _).arrived (by decide) (by decide)
    · rw [positionOf_eq he, ownNode_eq (arrived_sameBut h s .straps (by decide))]
      exact hn l p ((findPosition_eq he _).symm.trans hf)

/-! ## Reports of the duty station (R32, R125, R126) -/

theorem report_lasting (g : Node) (body : List Byte) : Lasting (fun f => f == TxFrame.report g body) :=
  ⟨fun _ _ _ _ => rfl, fun _ => rfl, fun _ _ => rfl⟩

/-- What the duty station reports is queued or pending at the end of the step. -/
theorem hasFrame_dutyReport (g : Node) (body : List Byte) {s : State} (hd : duty s = true) :
    hasFrame (settle (dutyReport g body s)) (fun f => f == .report g body) = true := by
  rw [show dutyReport g body s = request (.report g body) s from if_pos hd]
  exact hasFrame_settled_request (report_lasting g body) s (beq_self_eq_true _)

/-- An arrived frame that the duty station answers with a report, and nothing else. -/
theorem reported_arrived (h : Header) (body : List Byte) (s : State) :
    (duty s = true → hasFrame (settle (dutyReport h.src body (arrived h s))) (fun f => f == .report h.src body) = true)
    ∧ SameBut gatewayFrame s (settle (dutyReport h.src body (arrived h s))) :=
  ⟨fun hd => hasFrame_dutyReport h.src body ((arrived_duty h s).trans hd),
    (dutyReport_sameBut _ _ _).arrived (by decide) (by decide)⟩

/-! ## OPEN (R125) -/

/-- The lowest-numbered free entry (R122). -/
theorem freeEntryIndex_eq_some {s : State} {l : LineId} (hl : (entryAt s l).state = .free)
    (hlow : ∀ l', l' < l → (entryAt s l').state ≠ .free) : freeEntryIndex s.lines = some l := by
  unfold freeEntryIndex
  refine List.find?_eq_some_iff_getElem.mpr ⟨by rw [show (tget s.lines.entries l).state = .free from hl]; rfl, l.val, ?_, ?_, ?_⟩
  · simp
  · simp
  · intro j hj
    have hne := hlow ⟨j, hj.trans l.isLt⟩ hj
    unfold entryAt at hne
    simpa using hne

theorem freeEntryIndex_eq_none {s : State} (hn : ∀ l, (entryAt s l).state ≠ .free) : freeEntryIndex s.lines = none := by
  unfold freeEntryIndex
  refine List.find?_eq_none.mpr fun l _ => ?_
  have hne := hn l
  unfold entryAt at hne
  simpa using hne

/-- The line table with a new line opened in an entry. -/
def openedAt (s : State) (l : LineId) (gateway line : Byte) : State :=
  setEntry (freeLine s l) l { LineEntry.zero with state := .opened, gateway := gateway, line := line }

theorem openedAt_sameBut (s : State) (l : LineId) (gateway line : Byte) :
    SameBut [.entries, .locals] s (openedAt s l gateway line) :=
  (freeLine_sameBut s l).comp (setEntry_sameBut _ l _) (by decide) (by decide)

theorem entryAt_openedAt (s : State) (l l' : LineId) (gateway line : Byte) : entryAt (openedAt s l gateway line) l'
    = if l' = l then { LineEntry.zero with state := .opened, gateway := gateway, line := line } else entryAt s l' := by
  unfold openedAt
  rw [entryAt_setEntry]
  split
  · rfl
  · rename_i hne
    exact tget_tset_of_ne _ _ hne

theorem onOpen_new {h : Header} {line : Byte} {l : LineId} {s : State} (h7 : line.toNat ≤ 7)
    (hf : findLine s.lines (byteOf h.src) line = none) (hl : freeEntryIndex s.lines = some l) :
    onOpen h line s = dutyReport h.src (openResultBody line .opened) (openedAt s l (byteOf h.src) line) := by
  unfold onOpen
  dsimp only
  rw [if_neg (Nat.not_lt.mpr h7), hf]
  dsimp only
  rw [hl]
  rfl

theorem onOpen_full {h : Header} {line : Byte} {s : State} (h7 : line.toNat ≤ 7)
    (hf : findLine s.lines (byteOf h.src) line = none) (hl : freeEntryIndex s.lines = none) :
    onOpen h line s = dutyReport h.src (openResultBody line .tableFull) s := by
  unfold onOpen
  dsimp only
  rw [if_neg (Nat.not_lt.mpr h7), hf]
  dsimp only
  rw [hl]

theorem onOpen_held {h : Header} {line : Byte} {l : LineId} {s : State} (h7 : line.toNat ≤ 7)
    (hf : findLine s.lines (byteOf h.src) line = some l) : onOpen h line s
      = dutyReport h.src (openResultBody line (if (entryAt s l).state = .opened then .alreadyOpen else .closing)) s := by
  unfold onOpen
  dsimp only
  rw [if_neg (Nat.not_lt.mpr h7), hf]
  dsimp only
  split <;> rfl

/-- Settles O25: each row of R125 by what the table holds. -/
theorem openTakesFreeEntry : Obligations.OpenTakesFreeEntry := by
  refine ⟨fun h line l s hr h7 hf hl hlow => ?_, fun h line l s hr h7 hf => ?_, fun h line s hr h7 hf hn => ?_,
    fun h line s hr h7 => ?_⟩
  all_goals
    have he := arrived_entries h s
    refine yields_arrived (c := .openLine h line) rfl hr ?_
  · have hfree : freeEntryIndex (arrived h s).lines = some l :=
      freeEntryIndex_eq_some (by rw [entryAt_eq he]; exact hl) fun l' hlt => by rw [entryAt_eq he]; exact hlow l' hlt
    rw [onOpen_new h7 ((findLine_eq he _ _).trans hf) hfree]
    have hopen := openedAt_sameBut (arrived h s) l (byteOf h.src) line
    have hend : SameBut reacting (openedAt (arrived h s) l (byteOf h.src) line) _ :=
      (dutyReport_sameBut h.src (openResultBody line .opened) _).comp (settle_sameBut _) (by decide) (by decide)
    refine ⟨?_, fun l' hne => ?_, fun hd => ?_, ?_⟩
    · rw [hend.entryAt (by decide), entryAt_openedAt, if_pos rfl]
    · rw [hend.entryAt (by decide), entryAt_openedAt, if_neg hne, entryAt_eq he]
    · refine hasFrame_dutyReport _ _ ?_
      rw [duty_eq (hopen.memb (by decide)) (hopen .straps (by decide)), arrived_duty, hd]
    · exact (hopen.comp (dutyReport_sameBut _ _ _) (e := .entries :: .locals :: gatewayFrame) (by decide) (by decide)).arrived
        (by decide) (by decide)
  · rw [onOpen_held h7 ((findLine_eq he _ _).trans hf), entryAt_eq he]
    exact reported_arrived h _ s
  · rw [onOpen_full h7 ((findLine_eq he _ _).trans hf) (freeEntryIndex_eq_none fun l => by rw [entryAt_eq he]; exact hn l)]
    exact reported_arrived h _ s
  · rw [show onOpen h line (arrived h s) = arrived h s from if_pos h7]
    exact (SameBut.refl [] _).arrived (by decide) (by decide)

end Sys2Proof.Machine

namespace Sys2Proof.Machine

/-! ## JOB and BATCH (R124, R126) -/

/-- A posting leaves what R126 gives, with the place of the frame. -/
theorem postJob_at (s : State) (l : LineId) (x : Position) (segSize policy : Byte) (card : Option CardRecord) :
    PostedAt l x ⟨segSize, policy, card, s.wirePlace⟩ s (postJob s l x segSize policy card) := by
  refine ⟨?_, fun l' hne => ?_, ?_, fun l' p' hne => ?_⟩
  · exact tget_tset_self _ _ _
  · exact tget_tset_of_ne _ _ hne
  · exact (localAt_setLocal _ _ _ _ _ _).trans (if_pos ⟨rfl, rfl⟩)
  · refine (localAt_setLocal _ _ _ _ _ _).trans (if_neg ?_)
    rintro ⟨hl, hp⟩
    rcases hne with hne | hne
    · exact hne hl
    · exact hne hp

theorem PostedAt.before {l : LineId} {x : Position} {n : PostingNote} {s u t : State} (h : PostedAt l x n u t)
    (he : u.lines.entries = s.lines.entries) (hl : u.lines.locals = s.lines.locals) : PostedAt l x n s t := by
  unfold PostedAt entryAt localAt at *
  rw [he, hl] at h
  exact h

theorem PostedAt.after {l : LineId} {x : Position} {n : PostingNote} {s t u : State} (h : PostedAt l x n s t)
    (he : u.lines.entries = t.lines.entries) (hl : u.lines.locals = t.lines.locals) : PostedAt l x n s u := by
  unfold PostedAt entryAt localAt at *
  rw [he, hl]
  exact h

/-- A job frame that passes the posting tests, from its arrival to the end of the step. -/
theorem post_arrived_ok {h : Header} {line position : Byte} {l : LineId} {s : State} (x : Position) (segSize policy : Byte)
    (card : Option CardRecord) (ht : postingTest s (byteOf h.src) line position = .ok l) :
    PostedAt l x ⟨segSize, policy, card, s.wirePlace + 1⟩ s
        (settle (post h line position x segSize policy card (arrived h s)))
      ∧ SameBut (.entries :: .locals :: gatewayFrame) s
        (settle (post h line position x segSize policy card (arrived h s))) := by
  have he := arrived_entries h s
  have hpost : post h line position x segSize policy card (arrived h s) = postJob (arrived h s) l x segSize policy card := by
    unfold post
    rw [postingTest_eq he, ht]
  rw [hpost]
  refine ⟨?_, (postJob_sameBut _ l x segSize policy card).arrived (by decide) (by decide)⟩
  have hat := postJob_at (arrived h s) l x segSize policy card
  rw [arrived_wirePlace] at hat
  exact (hat.before he (arrived_locals h s)).after (settle_sameBut _ .entries (by decide)) (settle_sameBut _ .locals (by decide))

/-- A job frame that fails the posting tests. -/
theorem post_arrived_error {h : Header} {line position : Byte} {r : RejectReason} {p d : BitVec 4} {s : State} (x : Position)
    (segSize policy : Byte) (card : Option CardRecord) (ht : postingTest s (byteOf h.src) line position = .error (r, p, d)) :
    post h line position x segSize policy card (arrived h s)
      = dutyReport h.src (rejectBody line position r p d) (arrived h s) := by
  unfold post
  rw [postingTest_eq (arrived_entries h s), ht]

/-- Settles O26: the posting tests decide; the record is read from the directory that the frame finds. -/
theorem jobFramePostsPosition : Obligations.JobFramePostsPosition := by
  refine ⟨fun h b f l s hr hfun ht => ?_, fun h b f l s hr hfun ht => ?_, fun h b f r p d s hr _ ht => ?_,
    fun h b f r p d s hr _ ht => ?_⟩
  · subst hfun
    refine yields_arrived (c := .job h b) rfl hr ?_
    unfold onJob
    rw [arrived_slotAtPosting, arrived_transportAtPosting]
    exact post_arrived_ok _ _ _ _ ht
  · subst hfun
    refine yields_arrived (c := .batch h b) rfl hr ?_
    unfold onBatch
    rw [arrived_slotAtPosting, arrived_transportAtPosting]
    exact post_arrived_ok _ _ _ _ ht
  · refine yields_arrived (c := .job h b) rfl hr ?_
    unfold onJob
    rw [post_arrived_error _ _ _ _ ht]
    exact reported_arrived h _ s
  · refine yields_arrived (c := .batch h b) rfl hr ?_
    unfold onBatch
    rw [post_arrived_error _ _ _ _ ht]
    exact reported_arrived h _ s

/-! ## FINAL (R54, R135) -/

/-- A FINAL from the owner, `u` the state with the cards charged. -/
theorem onFinal_owner {h : Header} {b : FinalBody} {l : LineId} {p : PosId} {s u : State}
    (hs : jobStatusListed b.status = true) (hf : findPosition s b.pos = some (l, p))
    (hc : claimedBy (positionOf s l p) h.src = true) (hu : u = settleUsage s (positionOf s l p) b.consumed.toNat) :
    onFinal h b s = giveNotice (setEntry u l (dAdvance (withPosition (entryAt s l) p
      (donePosition (positionOf s l p) (positionOf s l p).settledBy .finished)))) := by
  unfold onFinal
  rw [hs, hf, hu]
  exact if_pos hc

theorem onFinal_other {h : Header} {b : FinalBody} {s : State}
    (hn : ∀ l p, findPosition s b.pos = some (l, p) → claimedBy (positionOf s l p) h.src = false) : onFinal h b s = s := by
  unfold onFinal
  split
  · rfl
  · split
    · rfl
    · rename_i l p hf
      exact if_neg (by rw [show claimedBy (tget (entryAt s l).positions p) h.src = false from hn l p hf]; decide)

/-- Settles O27: the owner's FINAL charges and ends its position, another's does nothing. -/
theorem finalFinishesPosition : Obligations.FinalFinishesPosition := by
  refine ⟨fun h b l p s hr hs hf hc => ?_, fun h b s hr hn => ?_⟩
  · obtain ⟨u, hu⟩ : ∃ u, u = settleUsage (receivedIntact s) (positionOf s l p) b.consumed.toNat := ⟨_, rfl⟩
    have hcharge : SameBut [.usage] (receivedIntact s) u := hu ▸ settleUsage_sameBut _ _ _
    have hdir : u.dir = settleCards s.dir (positionOf s l p) b.consumed.toNat := hu ▸ settleUsage_dir _ _ _
    refine yields_received (c := .final h b) rfl hr (fun _ => rfl) (onFinal_owner (s := receivedIntact s) hs hf hc hu) ?_
    have hend := fun v => settle_sameBut (giveNotice v)
    refine ⟨?_, fun l' hne => ?_, fun m hm => ?_, fun hm => ?_, ?_⟩
    · rw [(hend _).entryAt (by decide)]
      exact tget_tset_self _ _ _
    · rw [(hend _).entryAt (by decide)]
      exact (tget_tset_of_ne _ _ hne).trans (hcharge.entryAt (by decide) l')
    · exact ((hend _).dir (by decide)).trans (hdir.trans (by simp [settleCards, hm]))
    · exact ((hend _).dir (by decide)).trans (hdir.trans (by simp [settleCards, hm]))
    · exact ((hcharge.comp (setEntry_sameBut u l _) (e := [.usage, .entries]) (by decide) (by decide)).comp (giveNotice_sameBut _)
        (e := .entries :: .usage :: stationFrame) (by decide) (by decide)).received (by decide) (by decide)
  · exact yields_received (c := .final h b) rfl hr (fun _ => rfl) (onFinal_other (s := receivedIntact s) hn)
      (settle_receivedIntact_sameBut s)

/-! ## CLOSE (R136) -/

/-- The local states of the posted positions of a closing line emptied, and the settlement frames for them taken out (R136). -/
def clearPosted (l : LineId) (e : LineEntry) (s : State) : State :=
  (postedOf e).foldl (fun s p => retractSettlements (posRefOf e p) (setLocal s l p LocalPos.empty)) s

theorem clearPosted_sameBut (l : LineId) (e : LineEntry) (s : State) : SameBut (.locals :: claiming) s (clearPosted l e s) :=
  SameBut.foldl (fun s p => (setLocal_sameBut s l p _).comp (retractClaims_sameBut _ _) (by decide) (by decide)) _ s

theorem clearedLocals (l : LineId) (e : LineEntry) (ps : List PosId) (s : State) (p : PosId)
    (h : p ∈ ps ∨ localAt s l p = LocalPos.empty) :
    localAt (ps.foldl (fun s p => retractSettlements (posRefOf e p) (setLocal s l p LocalPos.empty)) s) l p = LocalPos.empty := by
  induction ps generalizing s with
  | nil => exact h.resolve_left (by simp)
  | cons q ps ih =>
    have hq : localAt (retractSettlements (posRefOf e q) (setLocal s l q LocalPos.empty)) l p
        = if p = q then LocalPos.empty else localAt s l p := by
      unfold retractSettlements
      rw [(retractClaims_sameBut _ _).localAt (by decide), localAt_setLocal]
      simp
    refine ih _ ?_
    rw [hq]
    by_cases hpq : p = q
    · exact .inr (if_pos hpq)
    · rw [if_neg hpq]
      exact h.imp_left fun hm => (List.mem_cons.mp hm).resolve_left hpq

/-- The entry that a CLOSE leaves where owners are awaited. -/
def closingEntry (e : LineEntry) : LineEntry :=
  dAdvance { e with state := .closing, pendingClear := ownersOf e, positions := closePositions e }

/-- A CLOSE of an OPEN line, `u` the line with its posted positions ended. -/
theorem closeLine_opened {g line : Byte} {l : LineId} {s u : State} (hf : findLine s.lines g line = some l)
    (ho : (entryAt s l).state = .opened) (hu : u = clearPosted l (entryAt s l) (setEntry s l (closingEntry (entryAt s l)))) :
    closeLine g line s = if ownersOf (entryAt s l) = 0#8 then freeLine u l
      else if setHas (ownersOf (entryAt s l)) (ownNode u).val then tearDown g line u else u := by
  have hown : ownNode u = ownNode (setEntry s l (closingEntry (entryAt s l))) := by
    rw [hu]
    exact ownNode_eq ((clearPosted_sameBut _ _ _) .straps (by decide))
  unfold closeLine
  rw [hf]
  dsimp only
  rw [if_pos ho, hu]
  rfl

theorem closeLine_other {g line : Byte} {s : State} (hn : ∀ l, findLine s.lines g line = some l → (entryAt s l).state ≠ .opened) :
    closeLine g line s = s := by
  unfold closeLine
  split
  · rfl
  · rename_i l hf
    exact if_neg (hn l hf)

/-- What a CLOSE of an OPEN line leaves (R136). -/
theorem closeLine_closed {g line : Byte} {l : LineId} {s : State} (hf : findLine s.lines g line = some l)
    (ho : (entryAt s l).state = .opened) :
    entryAt (closeLine g line s) l
        = (if ownersOf (entryAt s l) = 0#8 then LineEntry.zero else closingEntry (entryAt s l))
      ∧ (∀ l', l' ≠ l → entryAt (closeLine g line s) l' = entryAt s l')
      ∧ ∀ p, (positionOf s l p).state = .posted → localAt (closeLine g line s) l p = LocalPos.empty := by
  obtain ⟨u, hu⟩ : ∃ u, u = clearPosted l (entryAt s l) (setEntry s l (closingEntry (entryAt s l))) := ⟨_, rfl⟩
  have hsame := clearPosted_sameBut l (entryAt s l) (setEntry s l (closingEntry (entryAt s l)))
  rw [← hu] at hsame
  have hself : entryAt u l = closingEntry (entryAt s l) := by
    rw [hsame.entryAt (by decide), entryAt_setEntry, if_pos rfl]
  have hothers : ∀ l', l' ≠ l → entryAt u l' = entryAt s l' := fun l' hne => by
    rw [hsame.entryAt (by decide), entryAt_setEntry, if_neg hne]
  have hlocals : ∀ p, (positionOf s l p).state = .posted → localAt u l p = LocalPos.empty := fun p hp => by
    rw [hu]
    exact clearedLocals l _ _ _ p (.inl (List.mem_filter.mpr ⟨List.mem_finRange p, by
      rw [show (tget (entryAt s l).positions p).state = .posted from hp]
      rfl⟩))
  have htear := tearDown_sameBut g line u
  rw [closeLine_opened hf ho hu]
  split
  · refine ⟨tget_tset_self _ _ _, fun l' hne => (tget_tset_of_ne _ _ hne).trans (hothers l' hne), fun p _ => ?_⟩
    show tget (tget (tset _ _ _) l) p = _
    rw [tget_tset_self, tget_replicate]
  · split
    · exact ⟨(htear.entryAt (by decide) l).trans hself, fun l' hne => (htear.entryAt (by decide) l').trans (hothers l' hne),
        fun p hp => (htear.localAt (by decide) l p).trans (hlocals p hp)⟩
    · exact ⟨hself, hothers, hlocals⟩

theorem onClose_names {h : Header} {b : CloseBody} {g line : Byte} (hn : closeNames h b = some (g, line)) (s : State) :
    onClose h b s = closeLine g line s := by
  cases b with
  | gateway line' =>
    cases hn
    rfl
  | station g' line' reason =>
    unfold closeNames at hn
    dsimp only at hn
    split at hn
    · rename_i hr
      cases hn
      exact if_pos hr
    · cases hn

/-- Settles O28: an OPEN line by what the CLOSE finds claimed, any other stays. -/
theorem closeClosesLine : Obligations.CloseClosesLine := by
  refine ⟨fun h b g line l s hr hn hf ho => ?_, fun h b g line s hr hn hno => ?_⟩
  all_goals
    have he := arrived_entries h s
    refine yields_arrived (c := .close h b) rfl hr ?_
    rw [onClose_names hn]
  · have hent := entryAt_eq he l
    obtain ⟨hself, hothers, hlocals⟩ := closeLine_closed ((findLine_eq he g line).trans hf) (hent ▸ ho)
    rw [hent] at hself
    have hend := settle_sameBut (closeLine g line (arrived h s))
    refine ⟨(hend.entryAt (by decide) l).trans hself, fun l' hne => ?_, fun p hp => ?_, ?_⟩
    · rw [hend.entryAt (by decide), hothers l' hne, entryAt_eq he]
    · rw [hend.localAt (by decide)]
      exact hlocals p (by rw [positionOf_eq he]; exact hp)
    · exact (closeLine_sameBut g line _).arrived (by decide) (by decide)
  · rw [closeLine_other fun l hf => ?_]
    · exact (SameBut.refl [] _).arrived (by decide) (by decide)
    · rw [entryAt_eq he]
      exact hno l ((findLine_eq he g line).symm.trans hf)

/-! ## The line table's timers (R124, R129, R131, R137) -/

theorem isUnclaimedFor_lasting (pos : PosRef) : Lasting (isUnclaimedFor pos) := ⟨fun _ _ _ _ => rfl, fun _ => rfl, fun _ _ => rfl⟩

theorem isCloseSilenceFor_lasting (g line : Byte) : Lasting (isCloseSilenceFor g line) :=
  ⟨fun _ _ _ _ => rfl, fun _ => rfl, fun _ _ => rfl⟩

/-- The UNCLAIMED is queued, or one was already (R131). -/
theorem hasFrame_queueUnclaimed (pos : PosRef) (s : State) : hasFrame (queueUnclaimed pos s) (isUnclaimedFor pos) = true := by
  by_cases h : hasFrame s (isUnclaimedFor pos) = true
  · rw [queueUnclaimed, if_pos h]
    exact h
  · rw [queueUnclaimed, if_neg h]
    exact hasFrame_requested (isUnclaimedFor_lasting pos).1 s (beq_self_eq_true pos)

/-- The CLOSE(SILENCE) of one entry, unless one is queued for it (R137). -/
def closeEntryForSilence (g : Node) (s : State) (l : LineId) : State :=
  if busyOpen (entryAt s l) && (entryAt s l).gateway == byteOf g
      && !hasFrame s (isCloseSilenceFor (entryAt s l).gateway (entryAt s l).line)
  then request (.closeSilence (entryAt s l).gateway (entryAt s l).line) s else s

theorem closeForSilence_eq (g : Node) (s : State) : closeForSilence g s = (List.finRange 32).foldl (closeEntryForSilence g) s := rfl

theorem closeEntryForSilence_sameBut (g : Node) (s : State) (l : LineId) : SameBut admitting s (closeEntryForSilence g s l) :=
  SameBut.ite (request_sameBut _ s) (SameBut.refl _ s)

theorem hasFrame_closeEntryForSilence {p : TxFrame → Bool} (g : Node) (l : LineId) {s : State} (h : hasFrame s p = true) :
    hasFrame (closeEntryForSilence g s l) p = true := by
  unfold closeEntryForSilence
  split
  · exact hasFrame_request _ h
  · exact h

theorem hasFrame_closedForSilence {g : Node} {l : LineId} {s : State} (hb : busyOpen (entryAt s l) = true)
    (hg : (entryAt s l).gateway = byteOf g) : hasFrame (closeEntryForSilence g s l)
      (isCloseSilenceFor (entryAt s l).gateway (entryAt s l).line) = true := by
  by_cases h : hasFrame s (isCloseSilenceFor (entryAt s l).gateway (entryAt s l).line) = true
  · exact hasFrame_closeEntryForSilence g l h
  · unfold closeEntryForSilence
    have hn : hasFrame s (isCloseSilenceFor (entryAt s l).gateway (entryAt s l).line) = false := by simpa using h
    rw [if_pos (by rw [hb, hn, hg]; simp)]
    exact hasFrame_requested (isCloseSilenceFor_lasting _ _).1 s (by simp [isCloseSilenceFor])

/-- Every busy OPEN line of a silent gateway has its CLOSE(SILENCE) (R137). -/
theorem hasFrame_closeForSilence {g : Node} {l : LineId} {s : State} (hb : busyOpen (entryAt s l) = true)
    (hg : (entryAt s l).gateway = byteOf g) :
    hasFrame (closeForSilence g s) (isCloseSilenceFor (entryAt s l).gateway (entryAt s l).line) = true := by
  have run : ∀ (ls : List LineId) (u : State), entryAt u l = entryAt s l →
      l ∈ ls ∨ hasFrame u (isCloseSilenceFor (entryAt s l).gateway (entryAt s l).line) = true →
      hasFrame (ls.foldl (closeEntryForSilence g) u) (isCloseSilenceFor (entryAt s l).gateway (entryAt s l).line) = true := by
    intro ls
    induction ls with
    | nil => exact fun u _ h => h.resolve_left (by simp)
    | cons k ls ih =>
      intro u hu h
      refine ih _ (((closeEntryForSilence_sameBut g u k).entryAt (by decide) l).trans hu) ?_
      rcases h with h | h
      · rcases List.mem_cons.mp h with rfl | h
        · rw [← hu] at hb hg ⊢
          exact .inr (hasFrame_closedForSilence hb hg)
        · exact .inl h
      · exact .inr (hasFrame_closeEntryForSilence g k h)
  rw [closeForSilence_eq]
  exact run _ s rfl (.inl (List.mem_finRange l))

theorem localAt_setLocal_self (s : State) (l : LineId) (p : PosId) (x : LocalPos) : localAt (setLocal s l p x) l p = x := by
  rw [localAt_setLocal, if_pos ⟨rfl, rfl⟩]

/-- Settles O30: each timer by whether it runs, then by whether the station has the duty. -/
theorem lineTimersExpire : Obligations.LineTimersExpire := by
  refine ⟨fun l p s hrun => ?_, fun l p s hrun hp => ?_, fun g s hrun => ?_, fun l p s hn => ?_, fun l p s hn => ?_,
    fun g s hn => ?_⟩
  · refine yields_settle (c := .deferralTimerExpiry l p) rfl (if_pos hrun) ⟨?_, ?_⟩
    · rw [(settle_sameBut _).localAt (by decide)]
      exact localAt_setLocal_self _ _ _ _
    · exact ((setLocal_sameBut s l p _).comp (giveNotice_sameBut _) (e := .locals :: reacting) (by decide) (by decide)).comp
        (settle_sameBut _) (by decide) (by decide)
  · have hexp : unclaimedExpired l p s = if duty s then
        queueUnclaimed (posRefOf (entryAt s l) p) (setLocal s l p { localAt s l p with deadline := .stopped })
        else setLocal s l p { localAt s l p with deadline := .expired } := if_pos ⟨hrun, hp⟩
    have hend := settle_sameBut (unclaimedExpired l p s)
    refine yields_settle (c := .unclaimedDeadlineExpiry l p) rfl rfl ⟨fun hd => ?_, fun hd => ?_, ?_⟩
    · rw [hend.localAt (by decide), hexp, if_pos hd, (queueUnclaimed_sameBut _ _).localAt (by decide)]
      exact ⟨localAt_setLocal_self _ _ _ _, hasFrame_settle (isUnclaimedFor_lasting _) (hasFrame_queueUnclaimed _ _)⟩
    · rw [hend.localAt (by decide), hexp, if_neg (by rw [hd]; decide)]
      exact localAt_setLocal_self _ _ _ _
    · exact (unclaimedExpired_sameBut l p s).comp hend (by decide) (by decide)
  · have hexp : gatewayExpired g s = if duty s then closeForSilence g (setWatch s g .stopped) else setWatch s g .expired :=
      if_pos hrun
    have hend := settle_sameBut (gatewayExpired g s)
    have hwatch : (settle (gatewayExpired g s)).lines.watches = (gatewayExpired g s).lines.watches :=
      hend .gatewayWatches (by decide)
    refine yields_settle (c := .gatewayWatchExpiry g) rfl rfl ⟨fun hd => ?_, fun hd => ?_, ?_⟩
    · have hclose : (closeForSilence g (setWatch s g .stopped)).lines.watches = tset s.lines.watches g .stopped :=
        closeForSilence_sameBut g (setWatch s g .stopped) .gatewayWatches (by decide)
      rw [hwatch, hexp, if_pos hd, hclose]
      exact ⟨tget_tset_self _ _ _, fun l hb hg => hasFrame_settle (isCloseSilenceFor_lasting _ _)
        (hasFrame_closeForSilence (s := setWatch s g .stopped) hb hg)⟩
    · rw [hwatch, hexp, if_neg (by rw [hd]; decide)]
      exact tget_tset_self _ _ _
    · exact (gatewayExpired_sameBut g s).comp hend (by decide) (by decide)
  · exact yields_settle (c := .deferralTimerExpiry l p) rfl (if_neg hn) (settle_sameBut s)
  · exact yields_settle (c := .unclaimedDeadlineExpiry l p) rfl (if_neg fun h => hn.elim (fun a => a h.1) (fun a => a h.2))
      (settle_sameBut s)
  · exact yields_settle (c := .gatewayWatchExpiry g) rfl (if_neg hn) (settle_sameBut s)

end Sys2Proof.Machine
end


section
/-! SUPPORT. Two entries with one gateway and line number (log 49) against what R129 lets a preferred station do at the posting. -/
set_option Elab.async false

namespace Sys2Proof.Machine

/-! ## A DECLINE already there for the same position bytes (O21)

Two line entries can hold one line after images (log 49): every lookup takes the lowest-numbered, but the positions of both are
considered. A position POSTED in the higher entry is the older one, so its DECLINE stands in the queue when the position of the lower
entry that has the same three bytes is considered, and that one queues no DECLINE of its own. The frame that stands has the other
record's reason. -/

/-- A JOB from its arrival to the end of the step. -/
theorem exec_job {h : Header} {b : JobBody} {s : State} (hr : Reaches s h (.job b)) :
    exec (.job h b) s = .next (settle (onJob h b (arrived h s))) := by
  have hx : exec (.job h b) s = .next (receive h (.job b) (onJob h b) s) := rfl
  rw [hx, receive_reaches _ hr]

/-- A batch of two cards POSTED under slots 63 and 62. -/
def olderBatch : Position := ⟨.posted, .batch, .card, 63#8, 62#8, 2#8, .none, 0#4, .none⟩

/-- LIVE station 0, alone, its directory empty. Entries 0 and 31 are OPEN for line 7 of gateway 15: the first with an empty ring, the
second with a batch POSTED at position 0, whose master slot is named and not ACTIVE. -/
def lineHeldTwice : State :=
  setEntry
    (setEntry { State.reset with memb := { State.reset.memb with state := .live, live := 1#8 } } 0
      { LineEntry.zero with state := .opened, gateway := 15#8, line := 7#8 })
    31 { LineEntry.zero with
      state := .opened, gateway := 15#8, line := 7#8, p := 1#4, positions := tset LineEntry.zero.positions 0 olderBatch }

/-- Gateway 15's broadcast header. -/
def postingHeader : Header := ⟨15, ⟨true, 0⟩⟩

/-- A JOB at position 0 of that line, under a master label that no slot holds. -/
def unknownMasterJob : JobBody := ⟨7#8, 0#8, 2#8, ⟨1#24, 0#8⟩, none, ⟨0#80, 0#8, 0#16⟩⟩

theorem lineHeldTwice_reaches : Reaches lineHeldTwice postingHeader (.job unknownMasterJob) := by
  unfold Reaches
  decide +kernel

theorem lineHeldTwice_notesPlaced : NotesPlaced lineHeldTwice := by
  intro l p note h
  have hempty : ∀ l p, (localAt lineHeldTwice l p).note = none := by decide +kernel
  rw [hempty] at h
  cases h

/-- The station's only DECLINE gives the older record's reason. -/
theorem lineHeldTwice_declines :
    hasFrame (settle (onJob postingHeader unknownMasterJob (arrived postingHeader lineHeldTwice)))
      (fun f => f == .decline ⟨15#8, 7#8, 0#8⟩ .masterUnknown) = false := by
  decide +kernel

/-- Refutes O21: in `lineHeldTwice` the JOB's position fails check MASTER_UNKNOWN at the preferred station and no DECLINE stands, but
the step queues none with that reason. -/
theorem not_postedPositionsAreConsidered : ¬ Obligations.PostedPositionsAreConsidered := by
  rintro ⟨-, -, -, -, -, -, hjob, -⟩
  obtain ⟨t, hx, hdecline⟩ := hjob postingHeader unknownMasterJob 0 .masterUnknown lineHeldTwice lineHeldTwice_reaches rfl
    (by decide +kernel) (by decide +kernel) (by decide +kernel) lineHeldTwice_notesPlaced (by decide +kernel)
  have ht := Host.Outcome.next.inj ((exec_job lineHeldTwice_reaches).symm.trans hx)
  rw [← ht] at hdecline
  exact absurd (hdecline.symm.trans lineHeldTwice_declines) (by decide)

end Sys2Proof.Machine
end


section
/-! SUPPORT. CLAIM (chapters 7 and 8): what its delivery records, what its owner's pool makes of it, how the resources of a claim that
settles nothing return. -/
set_option Elab.async false

namespace Sys2Proof.Machine

/-! ## What the handler finds (R133) -/

/-- The CLAIM finds a POSTED position and fits its record, under a quorate live set and with a master slot (R133 test 1). -/
structure ClaimFits (b : ClaimBody) (l : LineId) (p : PosId) (m : SlotId) (s : State) : Prop where
  found : findPosition s b.pos = some (l, p)
  posted : (positionOf s l p).state = .posted
  count : b.count = (positionOf s l p).count
  master : b.master = (positionOf s l p).master
  transport : b.transport = (positionOf s l p).transport
  quorate : liveSetQuorate s = true
  slot : slotOf? b.master = some m

/-- The CLAIM fails one of the tests. -/
def ClaimUnfit (b : ClaimBody) (s : State) : Prop :=
  ∀ l p, findPosition s b.pos = some (l, p) → (positionOf s l p).state ≠ .posted ∨ b.count ≠ (positionOf s l p).count
    ∨ b.master ≠ (positionOf s l p).master ∨ b.transport ≠ (positionOf s l p).transport ∨ liveSetQuorate s = false
    ∨ slotOf? b.master = none

section Handler

variable {h : Header} {b : ClaimBody} {l : LineId} {p : PosId} {m : SlotId} {s : State}

/-- What a CLAIM fits is the same once its frame has arrived. -/
theorem ClaimFits.received (hf : ClaimFits b l p m s) : ClaimFits b l p m (receivedIntact s) :=
  ⟨hf.found, hf.posted, hf.count, hf.master, hf.transport, hf.quorate, hf.slot⟩

/-- A CLAIM that passes test 1 goes to the reservation. -/
theorem ClaimFits.onClaim_eq (hf : ClaimFits b l p m s) : onClaim h b s =
    if s.dir.reserveTaken m b.count.toNat then claimTaken h.src l p m s else claimOverrun h.src l p s := by
  obtain ⟨hfound, hposted, hcount, hmaster, htransport, hquorate, hslot⟩ := hf
  unfold onClaim
  rw [hfound]
  dsimp only
  rw [hposted, ← hcount, ← hmaster, ← htransport, hquorate, hslot]
  simp

theorem ClaimFits.taken (hf : ClaimFits b l p m s) (hr : s.dir.reserveTaken m b.count.toNat = true) :
    onClaim h b s = claimTaken h.src l p m s := hf.onClaim_eq.trans (if_pos hr)

theorem ClaimFits.overrun (hf : ClaimFits b l p m s) (hr : s.dir.reserveTaken m b.count.toNat = false) :
    onClaim h b s = claimOverrun h.src l p s := hf.onClaim_eq.trans (if_neg (by rw [hr]; decide))

theorem ClaimUnfit.onClaim_eq (hn : ClaimUnfit b s) : onClaim h b s = claimLost h.src b.pos s := by
  unfold onClaim
  split
  · rfl
  · rename_i l p hfound
    dsimp only
    split_ifs with hposted hbody hquorate
    · rfl
    · rfl
    · rfl
    · simp only [bne_iff_ne, ne_eq, Bool.or_eq_true, not_or, not_not] at hposted hbody
      obtain ⟨⟨hcount, hmaster⟩, htransport⟩ := hbody
      have hslot : slotOf? (positionOf s l p).master = none := by
        rw [← hmaster]
        simpa [hposted, hcount, hmaster, htransport, by simpa using hquorate] using hn l p hfound
      rw [hslot]

/-- The three bytes of the position found are those looked for. -/
theorem posRefOf_of_found {pos : PosRef} (hf : findPosition s pos = some (l, p)) : posRefOf (entryAt s l) p = pos := by
  unfold findPosition at hf
  split at hf
  · rename_i l' p' hl hp
    cases hf
    have hline := List.find?_some hl
    simp only [Bool.and_eq_true, beq_iff_eq] at hline
    obtain ⟨⟨-, hgateway⟩, hnumber⟩ := hline
    have hbyte := (indexOf_eq_some_iff (by decide) _ _).mp hp
    unfold posRefOf entryAt
    rw [hgateway, hnumber, ← hbyte]
  · cases hf

/-- What a CLAIM that is taken records: the reservation, the position CLAIMED by its sender, no note and no timer (R133). -/
def claimRecorded (src : Node) (l : LineId) (p : PosId) (m : SlotId) (s : State) : State :=
  setLocal
    (setEntry { s with dir := s.dir.reserve m (positionOf s l p).count.toNat } l
      (withPosition (entryAt s l) p
        { positionOf s l p with state := .claimed, settledBy := .claim, owner := BitVec.ofNat 4 src.val }))
    l p LocalPos.empty

theorem claimRecorded_sameBut (src : Node) (l : LineId) (p : PosId) (m : SlotId) (s : State) :
    SameBut [.entries, .locals, .usage] s (claimRecorded src l p m s) :=
  (reserve_sameBut s m _).comp (setTwo_sameBut _ l l _ p _) (by decide) (by decide)

theorem entryAt_claimRecorded (src : Node) (l l' : LineId) (p : PosId) (m : SlotId) (s : State) :
    entryAt (claimRecorded src l p m s) l' = if l' = l then withPosition (entryAt s l) p
      { positionOf s l p with state := .claimed, settledBy := .claim, owner := BitVec.ofNat 4 src.val } else entryAt s l' := by
  unfold entryAt claimRecorded setLocal setEntry
  dsimp only
  rw [tget_tset]
  rfl

theorem claimTaken_own {src : Node} (hs : src = ownNode s) : claimTaken src l p m s =
    giveNotice (retractSettlements (posRefOf (entryAt s l) p) (claimWon (posRefOf (entryAt s l) p) (claimRecorded src l p m s))) :=
  congrArg (fun u => giveNotice (retractSettlements _ u)) (if_pos hs)

theorem claimTaken_other {src : Node} (hs : src ≠ ownNode s) : claimTaken src l p m s =
    giveNotice (retractSettlements (posRefOf (entryAt s l) p) (claimRecorded src l p m s)) :=
  congrArg (fun u => giveNotice (retractSettlements _ u)) (if_neg hs)

/-- Beyond the record a taken CLAIM changes the pool, the engine and the transmit queue alone. -/
theorem claimTaken_after (src : Node) : SameBut engaging (claimRecorded src l p m s) (claimTaken src l p m s) := by
  have hlast : ∀ u, SameBut engaging u (giveNotice (retractSettlements (posRefOf (entryAt s l) p) u)) := fun u =>
    (retractClaims_sameBut _ u).comp (giveNotice_sameBut _) (by decide) (by decide)
  by_cases hs : src = ownNode s
  · rw [claimTaken_own hs]
    exact (claimWon_sameBut _ _).trans (hlast _)
  · rw [claimTaken_other hs]
    exact hlast _

end Handler

/-! ## A claim's resources return (R145) -/

/-- The descriptor has left the pool, its resources returned. -/
def Returned (d : DescId) (s u : State) : Prop := ∃ r, u.pool = { poolFreed s.pool d with refused := r }

theorem Returned.claimReturned {d : DescId} {s t : State} (h : Returned d s t) : ClaimReturned d s t := by
  obtain ⟨r, hpool⟩ := h
  refine ⟨by rw [hpool]; rfl, by rw [hpool]; rfl, ?_⟩
  unfold descOf
  rw [hpool]
  exact tget_tset_self _ _ _

theorem Returned.of_pool {d : DescId} {s u v : State} (h : Returned d s u) (hv : v.pool = u.pool) : Returned d s v := by
  obtain ⟨r, hpool⟩ := h
  exact ⟨r, hv.trans hpool⟩

theorem findClaiming_eq {s u : State} (h : u.pool = s.pool) (pos : PosRef) : findClaiming u pos = findClaiming s pos := by
  unfold findClaiming jobAt descOf
  rw [h]

theorem returnClaim_returned {d : DescId} {pos : PosRef} {s : State} (h : findClaiming s pos = some d) :
    Returned d s (returnClaim pos s) := by
  have hu : returnClaim pos s = freeDescriptor { s with lines := { s.lines with notice := true } } d := by
    unfold returnClaim
    have h' : findClaiming { s with lines := { s.lines with notice := true } } pos = some d := h
    dsimp only
    rw [h']
  exact hu ▸ freeDescriptor_pool _ d

theorem returnClaim_pool_of_none {pos : PosRef} {s : State} (h : findClaiming s pos = none) :
    (returnClaim pos s).pool = s.pool := by
  unfold returnClaim
  have h' : findClaiming { s with lines := { s.lines with notice := true } } pos = none := h
  dsimp only
  rw [h']

theorem findClaiming_of_empty {s : State} (h : s.pool.claiming = []) (pos : PosRef) : findClaiming s pos = none := by
  unfold findClaiming
  rw [h]
  rfl

theorem returnClaims_cons (f : TxFrame) (fs : List TxFrame) (s : State) :
    returnClaims (f :: fs) s = returnClaims fs (returnClaims [f] s) := rfl

/-- One frame returns its claim when it is a CLAIM, else nothing. -/
theorem returnClaims_one (f : TxFrame) (s : State) :
    returnClaims [f] s = s ∨ ∃ b, f = .claim b ∧ returnClaims [f] s = returnClaim b.pos s := by
  cases f
  case claim b => exact .inr ⟨b, rfl, rfl⟩
  all_goals exact .inl rfl

/-- With nothing in CLAIMING no claim returns anything. -/
theorem returnClaims_pool_of_empty (fs : List TxFrame) {s : State} (h : s.pool.claiming = []) :
    (returnClaims fs s).pool = s.pool := by
  induction fs generalizing s with
  | nil => rfl
  | cons f fs ih =>
    have hone : (returnClaims [f] s).pool = s.pool := by
      rcases returnClaims_one f s with hf | ⟨b, -, hf⟩ <;> rw [hf]
      exact returnClaim_pool_of_none (findClaiming_of_empty h _)
    rw [returnClaims_cons]
    exact (ih (by rw [hone]; exact h)).trans hone

theorem retract_pool (q : TxFrame → Bool) (s : State) : (retract q s).pool = s.pool := retract_sameBut q s .pool (by decide)

theorem retractClaims_pool_of_empty (q : TxFrame → Bool) {s : State} (h : s.pool.claiming = []) :
    (retractClaims q s).pool = s.pool :=
  (returnClaims_pool_of_empty _ (by rw [retract_pool]; exact h)).trans (retract_pool q s)

/-! ## The end of a step that grants nothing -/

/-- The end of the step grants no claim and frees none: no position is POSTED, or the station does not serve and holds no claim. -/
def Ungranting (s : State) : Prop := postedPositions s = [] ∨ (serving s = false ∧ s.pool.claiming = [])

theorem postedPositions_eq {s t : State} (he : t.lines.entries = s.lines.entries) (hl : t.lines.locals = s.lines.locals) :
    postedPositions t = postedPositions s := by
  unfold postedPositions
  simp only [entryAt_eq he, positionOf_eq he, localAt_eq hl]

theorem Ungranting.of_sameBut {c : List Part} {s t : State} (hst : SameBut c s t)
    (hc : ∀ q ∈ [Part.entries, .locals, .station, .live, .leaving, .straps], q ∉ c) (hp : t.pool = s.pool) (h : Ungranting s) :
    Ungranting t := by
  rcases h with h | ⟨hserving, hclaiming⟩
  · exact .inl ((postedPositions_eq (hst .entries (hc _ (by decide))) (hst .locals (hc _ (by decide)))).trans h)
  · exact .inr ⟨(hst.serving fun q hq => hc q (by revert q; decide)).trans hserving, by rw [hp]; exact hclaiming⟩

/-- A station that does not serve, with nothing in CLAIMING, considers a position without a change of its pool. -/
theorem considerPosition_pool {s : State} (hs : serving s = false) (hc : s.pool.claiming = []) (l : LineId) (p : PosId) :
    (considerPosition s l p).pool = s.pool := by
  have request_pool : ∀ f u, (request f u).pool = u.pool := fun f u => request_sameBut f u .pool (by decide)
  have claims_pool := retractClaims_pool_of_empty (isClaimFor (posRefOf (entryAt s l) p)) hc
  unfold considerPosition
  dsimp only
  split
  · rfl
  · split
    · split
      · split
        · exact claims_pool
        · exact (request_pool _ _).trans claims_pool
      · exact (retract_pool _ _).trans claims_pool
    · split
      · exact retract_pool _ s
      · have hmay : ∀ e x loc, mayClaim (retract (isDeclineFor (posRefOf (entryAt s l) p)) s) e p x loc = false := fun e x loc => by
          unfold mayClaim
          rw [(retract_sameBut _ s).serving (by decide), hs]
          rfl
        rw [hmay]
        exact retract_pool _ s

theorem considerList_pool (ps : List (Nat × LineId × PosId)) {s : State} (hs : serving s = false) (hc : s.pool.claiming = []) :
    (ps.foldl (fun s x => considerPosition s x.2.1 x.2.2) s).pool = s.pool := by
  induction ps generalizing s with
  | nil => rfl
  | cons x ps ih =>
    have hpool := considerPosition_pool hs hc x.2.1 x.2.2
    have hserving := ((considerPosition_sameBut s x.2.1 x.2.2).serving (by decide)).trans hs
    exact (ih hserving (by rw [hpool]; exact hc)).trans hpool

/-- Every POSTED position considered once (R129). -/
def considerRound (s : State) : State := (sortPosted (postedPositions s)).foldl (fun s x => considerPosition s x.2.1 x.2.2) s

theorem considerLoop_succ (k : Nat) (s : State) : considerLoop (k + 1) s =
    if s.lines.notice then considerLoop k (considerRound { s with lines := { s.lines with notice := false } }) else s := rfl

theorem considerRound_sameBut (s : State) : SameBut claiming s (considerRound s) :=
  SameBut.foldl (f := fun s (x : Nat × LineId × PosId) => considerPosition s x.2.1 x.2.2)
    (fun s x => considerPosition_sameBut s x.2.1 x.2.2) _ s

theorem considerRound_pool {s : State} (h : Ungranting s) : (considerRound s).pool = s.pool := by
  unfold considerRound
  rcases h with h | ⟨hserving, hclaiming⟩
  · rw [h]
    rfl
  · exact considerList_pool _ hserving hclaiming

theorem considerLoop_pool (k : Nat) {s : State} (h : Ungranting s) : (considerLoop k s).pool = s.pool := by
  induction k generalizing s with
  | zero => rfl
  | succ k ih =>
    rw [considerLoop_succ]
    split
    · have hquiet : Ungranting { s with lines := { s.lines with notice := false } } := h
      have hpool := considerRound_pool hquiet
      exact (ih (hquiet.of_sameBut (considerRound_sameBut _) (by decide) hpool)).trans hpool
    · rfl

theorem considerPosted_pool {s : State} (h : Ungranting s) : (considerPosted s).pool = s.pool := by
  unfold considerPosted
  split
  · exact considerLoop_pool 64 h
  · rfl

/-- The end of such a step leaves the pool as it is. -/
theorem settle_pool {s : State} (h : Ungranting s) : (settle s).pool = s.pool := by
  have hcustody : (custodyWork s).pool = s.pool := custodyWork_sameBut s .pool (by decide)
  have hconsider : (considerPosted (custodyWork s)).pool = (custodyWork s).pool :=
    considerPosted_pool (h.of_sameBut (custodyWork_sameBut s) (by decide) hcustody)
  have hserve : (settle s).pool = (considerPosted (custodyWork s)).pool := serveQueries_sameBut _ .pool (by decide)
  exact hserve.trans (hconsider.trans hcustody)

theorem Returned.settled {d : DescId} {s u : State} (h : Returned d s u) (hu : Ungranting u) : ClaimReturned d s (settle u) :=
  (h.of_pool (settle_pool hu)).claimReturned

/-- The only claim has returned: nothing is left in CLAIMING. -/
theorem Returned.claiming_empty {d : DescId} {s u : State} (h : Returned d s u) (hc : s.pool.claiming = [d]) :
    u.pool.claiming = [] := by
  obtain ⟨r, hpool⟩ := h
  have hu : u.pool.claiming = s.pool.claiming.filter (· != d) := by rw [hpool]; rfl
  rw [hu, hc]
  simp

/-- The condition under which O22 says that a claim has returned, after its return. -/
theorem Returned.ungranting {c : List Part} {d : DescId} {s u : State} (h : Returned d s u) (hsu : SameBut c s u)
    (hc : ∀ q ∈ [Part.entries, .locals, .station, .live, .leaving, .straps], q ∉ c)
    (hs : postedPositions s = [] ∨ (serving s = false ∧ s.pool.claiming = [d])) : Ungranting u := by
  rcases hs with hs | ⟨hserving, hclaiming⟩
  · exact .inl ((postedPositions_eq (hsu .entries (hc _ (by decide))) (hsu .locals (hc _ (by decide)))).trans hs)
  · exact .inr ⟨(hsu.serving fun q hq => hc q (by revert q; decide)).trans hserving, h.claiming_empty hclaiming⟩

end Sys2Proof.Machine
end


section
/-! SUPPORT. CLAIM, continued: the cases of O22. -/
set_option Elab.async false

namespace Sys2Proof.Machine

/-! ## Every station: taken, overrun, fitting nothing (R133) -/

section Claim

variable {h : Header} {b : ClaimBody} {l : LineId} {p : PosId} {m : SlotId} {d : DescId} {s : State}

theorem claim_taken (hr : Reaches s h (.claim b)) (hf : ClaimFits b l p m s) (ht : s.dir.reserveTaken m b.count.toNat = true) :
    Yields (.claim h b) s fun t =>
      entryAt t l = withPosition (entryAt s l) p
        { positionOf s l p with state := .claimed, settledBy := .claim, owner := BitVec.ofNat 4 h.src.val }
      ∧ (∀ l', l' ≠ l → entryAt t l' = entryAt s l') ∧ localAt t l p = LocalPos.empty
      ∧ t.dir = s.dir.reserve m b.count.toNat
      ∧ SameBut (.entries :: .locals :: .usage :: .inFlight :: .ctx :: stationFrame) s t := by
  refine yields_received (c := .claim h b) rfl hr (fun _ => rfl) (hf.received.taken ht) ?_
  have hrecord := claimRecorded_sameBut h.src l p m (receivedIntact s)
  have hafter := claimTaken_after (l := l) (p := p) (m := m) (s := receivedIntact s) h.src
  have hend : SameBut (engaging ++ reacting) (claimRecorded h.src l p m (receivedIntact s))
      (settle (claimTaken h.src l p m (receivedIntact s))) := hafter.comp (settle_sameBut _) (by decide) (by decide)
  refine ⟨?_, fun l' hne => ?_, ?_, ?_, ?_⟩
  · exact (hend.entryAt (by decide) l).trans ((entryAt_claimRecorded _ l l p m _).trans (if_pos rfl))
  · exact (hend.entryAt (by decide) l').trans ((entryAt_claimRecorded _ l l' p m _).trans (if_neg hne))
  · exact (hend.localAt (by decide) l p).trans (localAt_setLocal_self _ l p _)
  · rw [hend.dir (by decide), hf.count]
    rfl
  · exact (hrecord.comp hafter (e := .entries :: .locals :: .usage :: .inFlight :: .ctx :: stationFrame) (by decide)
      (by decide)).received (fun _ hp => hp) (by decide)

/-- The state in which an overrun is found: the position DONE, the claim of its owner returned (R133). -/
def overrunSettled (src : Node) (l : LineId) (p : PosId) (s : State) : State :=
  claimLost src (posRefOf (entryAt s l) p) (settlePosted s l p .claim .overrun)

theorem overrunSettled_sameBut (src : Node) (l : LineId) (p : PosId) (s : State) : SameBut settling s (overrunSettled src l p s) :=
  (settlePosted_sameBut s l p _ _).comp (claimLost_sameBut _ _ _) (by decide) (by decide)

theorem claimOverrun_eq (src : Node) (l : LineId) (p : PosId) (s : State) :
    claimOverrun src l p s = selfExpel .claimOverrun (overrunSettled src l p s) := rfl

theorem claim_overrun (hr : Reaches s h (.claim b)) (hf : ClaimFits b l p m s)
    (ht : s.dir.reserveTaken m b.count.toNat = false) :
    Yields (.claim h b) s fun t =>
      entryAt t l = dAdvance (withPosition (entryAt s l) p (donePosition (positionOf s l p) .claim .overrun))
      ∧ (∀ l', l' ≠ l → entryAt t l' = entryAt s l')
      ∧ (s.memb.state = .live → s.memb.leaving = false →
          t.memb.leaving = true ∧ hasFrame t (fun f => f == .expel (self s) .claimOverrun) = true)
      ∧ SameBut (.entries :: .locals :: .leaving :: .serve :: stationFrame) s t := by
  refine yields_received (c := .claim h b) rfl hr (fun _ => rfl) ((hf.received.overrun ht).trans (claimOverrun_eq _ _ _ _)) ?_
  obtain ⟨u, hu⟩ : ∃ u, u = overrunSettled h.src l p (receivedIntact s) := ⟨_, rfl⟩
  have hsettled : SameBut settling (receivedIntact s) u := hu ▸ overrunSettled_sameBut _ _ _ _
  have hlost : SameBut returning (settlePosted (receivedIntact s) l p .claim .overrun) u := hu ▸ claimLost_sameBut _ _ _
  obtain ⟨hentry, hothers, -⟩ := settlePosted_at (receivedIntact s) l p .claim .overrun
  rw [← hu]
  have hexpel := selfExpel_sameBut .claimOverrun u
  have hend : SameBut (returning ++ departing ++ reacting) (settlePosted (receivedIntact s) l p .claim .overrun)
      (settle (selfExpel .claimOverrun u)) :=
    (hlost.comp hexpel (e := returning ++ departing ++ reacting) (by decide) (by decide)).comp (settle_sameBut _)
      (fun _ hp => hp) (by decide)
  refine ⟨(hend.entryAt (by decide) l).trans hentry, fun l' hne => (hend.entryAt (by decide) l').trans (hothers l' hne),
    fun hlive hleaving => ?_, ?_⟩
  · have hm : u.memb = s.memb := hsettled.memb (by decide)
    have hself : self u = self s := self_of_straps (hsettled .straps (by decide))
    have hout := selfExpel_leaves (r := .claimOverrun) (by rw [hm]; exact hlive) (by rw [hm]; exact hleaving)
    rwa [hself] at hout
  · exact (hsettled.comp hexpel (e := .entries :: .locals :: .leaving :: .serve :: stationFrame) (by decide)
      (by decide)).received (fun _ hp => hp) (by decide)

theorem ClaimUnfit.received (hn : ClaimUnfit b s) : onClaim h b (receivedIntact s) = claimLost h.src b.pos (receivedIntact s) :=
  ClaimUnfit.onClaim_eq (s := receivedIntact s) hn

theorem claim_unfit (hr : Reaches s h (.claim b)) (hn : ClaimUnfit b s) :
    Yields (.claim h b) s fun t => SameBut stationFrame s t :=
  yields_received (c := .claim h b) rfl hr (fun _ => rfl) hn.received
    ((claimLost_sameBut _ _ _).received (by decide) (fun _ hp => hp))

/-! ## The claim's owner: its resources return (R145) -/

theorem claim_late (hr : Reaches s h (.claim b)) (ho : h.src = ownNode s) (hn : ClaimUnfit b s)
    (hd : findClaiming s b.pos = some d) (hs : postedPositions s = [] ∨ (serving s = false ∧ s.pool.claiming = [d])) :
    Yields (.claim h b) s fun t => ClaimReturned d s t := by
  refine yields_received (c := .claim h b) rfl hr (fun _ => rfl)
    (hn.received.trans (if_pos (show h.src = ownNode (receivedIntact s) from ho))) ?_
  have hreturned : Returned d s (returnClaim b.pos (receivedIntact s)) := returnClaim_returned (s := receivedIntact s) hd
  exact hreturned.settled (hreturned.ungranting (s := s) ((receivedIntact_sameBut s).comp (returnClaim_sameBut _ _)
    (e := .slotDriven :: .wirePlace :: returning) (by decide) (by decide)) (by decide) hs)

/-- The withdrawal of a CLAIM taken at the end of an arbitration. -/
theorem claim_withdrawn {age : Nat} (hb : s.link.bus = .contending (.entry age))
    (he : entryOf s.link age = some ⟨age, .claim b, .withdraw⟩) (hd : findClaiming s b.pos = some d)
    (hs : postedPositions s = [] ∨ (serving s = false ∧ s.pool.claiming = [d])) :
    Yields (.arbitrationEnd false) s fun t => ClaimReturned d s t := by
  refine yields_settle rfl ((endArbitration_lost hb).trans (loseArbitration_withdrawn he rfl)) ?_
  obtain ⟨u, hu⟩ : ∃ u, u = fillQueue { setBus s .idle with link := freeEntry (setBus s .idle).link age } := ⟨_, rfl⟩
  have hfreed : SameBut [.bus, .txQueue, .segments, .queries] s u := hu ▸ freed_sameBut s age
  have hpool : u.pool = s.pool := hfreed .pool (by decide)
  rw [← hu]
  have hreturned : Returned d s (returnClaim b.pos u) := by
    obtain ⟨r, hr⟩ := returnClaim_returned ((findClaiming_eq hpool b.pos).trans hd)
    exact ⟨r, by rw [hr, hpool]⟩
  exact hreturned.settled (hreturned.ungranting (hfreed.comp (returnClaim_sameBut b.pos u)
    (e := [.bus, .txQueue, .segments, .queries, .pool, .notice]) (by decide) (by decide)) (by decide) hs)

/-! ## The only claim, returned once (R132, R145) -/

/-- The station's only claim is as it was or has returned. -/
def KeptOrReturned (d : DescId) (s u : State) : Prop := u.pool = s.pool ∨ Returned d s u

theorem KeptOrReturned.of_pool {u v : State} (hu : KeptOrReturned d s u) (hv : v.pool = u.pool) : KeptOrReturned d s v :=
  hu.elim (fun hpool => .inl (hv.trans hpool)) fun hr => .inr (hr.of_pool hv)

theorem Returned.returnClaim {u : State} (hu : Returned d s u) (hc : s.pool.claiming = [d]) (pos : PosRef) :
    Returned d s (returnClaim pos u) :=
  hu.of_pool (returnClaim_pool_of_none (findClaiming_of_empty (hu.claiming_empty hc) pos))

/-- The claim at the position asked for has returned then. -/
theorem KeptOrReturned.returnClaim_of_found {u : State} (hu : KeptOrReturned d s u) (hc : s.pool.claiming = [d]) {pos : PosRef}
    (hd : findClaiming s pos = some d) : Returned d s (returnClaim pos u) := by
  rcases hu with hpool | hu
  · obtain ⟨r, hr⟩ := returnClaim_returned ((findClaiming_eq hpool pos).trans hd)
    exact ⟨r, by rw [hr, hpool]⟩
  · exact hu.returnClaim hc pos

theorem KeptOrReturned.returnClaim {u : State} (hu : KeptOrReturned d s u) (hc : s.pool.claiming = [d]) (pos : PosRef) :
    KeptOrReturned d s (returnClaim pos u) := by
  cases hd : findClaiming s pos with
  | some d' =>
    have hmem := findClaiming_mem hd
    rw [hc, List.mem_singleton] at hmem
    subst hmem
    exact .inr (hu.returnClaim_of_found hc hd)
  | none =>
    rcases hu with hpool | hu
    · exact .inl ((returnClaim_pool_of_none ((findClaiming_eq hpool pos).trans hd)).trans hpool)
    · exact .inr (hu.returnClaim hc pos)

theorem KeptOrReturned.returnClaims {u : State} (hu : KeptOrReturned d s u) (hc : s.pool.claiming = [d]) (fs : List TxFrame) :
    KeptOrReturned d s (returnClaims fs u) := by
  induction fs generalizing u with
  | nil => exact hu
  | cons f fs ih =>
    rw [returnClaims_cons]
    rcases returnClaims_one f u with hf | ⟨b, -, hf⟩ <;> rw [hf]
    · exact ih hu
    · exact ih (hu.returnClaim hc b.pos)

theorem KeptOrReturned.retractClaims {u : State} (hu : KeptOrReturned d s u) (hc : s.pool.claiming = [d]) (q : TxFrame → Bool) :
    KeptOrReturned d s (retractClaims q u) := (hu.of_pool (retract_pool q u)).returnClaims hc _

theorem KeptOrReturned.settlePosted {u : State} (hu : KeptOrReturned d s u) (hc : s.pool.claiming = [d]) (l : LineId) (p : PosId)
    (by_ : SettledBy) (r : DoneReason) : KeptOrReturned d s (settlePosted u l p by_ r) := by
  unfold Machine.settlePosted
  refine KeptOrReturned.retractClaims (hu.of_pool ?_) hc _
  rfl

/-- A CLAIM for the position is among the frames taken out: the claim returns. -/
theorem KeptOrReturned.returnClaims_of_mem {u : State} (hu : KeptOrReturned d s u) (hc : s.pool.claiming = [d]) {pos : PosRef}
    (hd : findClaiming s pos = some d) {fs : List TxFrame} (hm : ∃ b, .claim b ∈ fs ∧ b.pos = pos) :
    Returned d s (Machine.returnClaims fs u) := by
  have stays : ∀ (fs : List TxFrame) {v : State}, Returned d s v → Returned d s (Machine.returnClaims fs v) := fun fs v hv =>
    hv.of_pool (returnClaims_pool_of_empty fs (hv.claiming_empty hc))
  obtain ⟨b, hb, hpos⟩ := hm
  induction fs generalizing u with
  | nil => exact absurd hb List.not_mem_nil
  | cons f fs ih =>
    rw [returnClaims_cons]
    rcases List.mem_cons.mp hb with hb | hb
    · have hone : Machine.returnClaims [f] u = Machine.returnClaim pos u := by rw [← hb, ← hpos]; rfl
      rw [hone]
      exact stays fs (hu.returnClaim_of_found hc hd)
    · exact ih (hu.returnClaims hc [f]) hb

/-- Nothing is left for a station to return that leaves. -/
theorem selfExpel_pool (r : ExpelReason) (hc : s.pool.claiming = []) : (selfExpel r s).pool = s.pool := by
  unfold selfExpel
  split
  · obtain ⟨u, hu⟩ : ∃ u, u = request (.expel (self s) r) { s with memb := { s.memb with leaving := true } } := ⟨_, rfl⟩
    have hrequest : u.pool = s.pool := hu ▸ request_sameBut _ _ .pool (by decide)
    have hclaims := retractClaims_pool_of_empty isClaim (s := u) (by rw [hrequest]; exact hc)
    have hpropose : (withdrawPropose (retractClaims isClaim u)).pool = _ := withdrawPropose_sameBut _ .pool (by decide)
    have hserve : (stopServing (retract isVoteOrCommit (withdrawPropose (retractClaims isClaim u)))).pool = _ :=
      stopServing_sameBut _ .pool (by decide)
    dsimp only
    rw [show request (.expel (self { s with memb := { s.memb with leaving := true } }) r)
      { s with memb := { s.memb with leaving := true } } = u from hu.symm]
    exact hserve.trans ((retract_pool _ _).trans (hpropose.trans (hclaims.trans hrequest)))
  · rfl

/-- A station that has found a cause does not serve: it is not LIVE, or it is leaving. -/
theorem selfExpel_serving (r : ExpelReason) (s : State) : serving (selfExpel r s) = false := by
  have not_serving : ∀ u : State, (isLive u && !u.memb.leaving) = false → serving u = false := fun u hu => by
    unfold serving quorate
    revert hu
    cases isLive u <;> cases u.memb.leaving <;> simp
  by_cases hl : (isLive s && !s.memb.leaving) = true
  · simp only [Bool.and_eq_true, Bool.not_eq_true'] at hl
    exact not_serving _ (by rw [(selfExpel_leaving hl.1 hl.2).1]; simp)
  · have hstay : selfExpel r s = s := if_neg hl
    rw [hstay]
    exact not_serving s (by simpa using hl)

/-- The owner of a CLAIM whose reservation is refused. -/
theorem claim_overrun_own (hr : Reaches s h (.claim b)) (ho : h.src = ownNode s) (hf : ClaimFits b l p m s)
    (ht : s.dir.reserveTaken m b.count.toNat = false) (hd : findClaiming s b.pos = some d) (hc : s.pool.claiming = [d]) :
    Yields (.claim h b) s fun t => ClaimReturned d s t := by
  refine yields_received (c := .claim h b) rfl hr (fun _ => rfl) ((hf.received.overrun ht).trans (claimOverrun_eq _ _ _ _)) ?_
  obtain ⟨v, hv⟩ : ∃ v, v = settlePosted (receivedIntact s) l p .claim .overrun := ⟨_, rfl⟩
  have hposted : KeptOrReturned d s v := hv ▸ KeptOrReturned.settlePosted (u := receivedIntact s) (.inl rfl) hc l p _ _
  have hown : h.src = ownNode v := ho.trans (ownNode_eq (hv ▸ settlePosted_sameBut _ l p _ _ .straps (by decide))).symm
  have hu : overrunSettled h.src l p (receivedIntact s) = returnClaim b.pos v := by
    unfold overrunSettled claimLost
    rw [← hv, if_pos hown]
    exact congrArg (fun pos => returnClaim pos v) (posRefOf_of_found (s := receivedIntact s) hf.found)
  have hreturned : Returned d s (returnClaim b.pos v) := hposted.returnClaim_of_found hc hd
  rw [hu]
  have hpool := selfExpel_pool .claimOverrun (hreturned.claiming_empty hc)
  refine (hreturned.of_pool hpool).settled (.inr ⟨selfExpel_serving _ _, ?_⟩)
  rw [hpool]
  exact hreturned.claiming_empty hc

end Claim

end Sys2Proof.Machine
end


section
/-! SUPPORT. CLAIM, continued: a claim that another's CLAIM overtakes, and the owner of a CLAIM that is taken. -/
set_option Elab.async false

namespace Sys2Proof.Machine

/-! ## The end of a step asks for no CLAIM where no position is POSTED -/

/-- A property of frames that none which the custody queue or the query queue asks for has. -/
structure Unasked (q : TxFrame → Bool) : Prop where
  answers : NoAnswer q
  proposals : ∀ b, q (.propose b) = false
  reports : ∀ g b, q (.roundReport g b) = false
  queries : ∀ x, q (.queryReport x) = false

theorem isClaimFor_unasked (pos : PosRef) : Unasked (isClaimFor pos) where
  answers := fun _ _ _ _ => rfl
  proposals := fun _ => rfl
  reports := fun _ _ => rfl
  queries := fun _ => rfl

section Unasked

variable {q : TxFrame → Bool} {s : State}

theorem noFrame_endItem (hq : Unasked q) (o : OrderOutcome) (detail : Byte) (v : Half) (w : Word) (h : hasFrame s q = false) :
    hasFrame (endItem o detail v w s) q = false := by
  unfold endItem
  split
  · exact h
  · dsimp only
    rw [hasFrame_of_link (freeQueuedArea_link _ _)]
    exact noFrame_request (p := q) hq.answers (hq.reports _ _) h

theorem noFrame_takeRoom (h : hasFrame s q = false) : hasFrame (takeRoom s) q = false := by
  unfold takeRoom
  split
  · split <;> exact h
  · exact h

theorem noFrame_admissionCheck (hq : Unasked q) (h : hasFrame s q = false) : hasFrame (admissionCheck s) q = false := by
  unfold admissionCheck
  split
  · split
    · split
      · exact noFrame_endItem hq _ _ _ _ h
      · exact noFrame_request hq.answers (hq.proposals _) h
    · exact h
  · exact h

theorem noFrame_custodyWork (hq : Unasked q) (h : hasFrame s q = false) : hasFrame (custodyWork s) q = false := by
  have hloop : ∀ k (s : State), hasFrame s q = false → hasFrame (custodyLoop k s) q = false := by
    intro k
    induction k with
    | zero => exact fun s h => h
    | succ k ih => exact fun s h => ih _ (noFrame_admissionCheck hq (noFrame_takeRoom (noFrame_takeRoom h)))
  exact hloop 8 s h

theorem noFrame_serveQueries (hq : Unasked q) (h : hasFrame s q = false) : hasFrame (serveQueries s) q = false := by
  have hloop : ∀ k (s : State), hasFrame s q = false → hasFrame (serveQueriesLoop k s) q = false := by
    intro k
    induction k with
    | zero => exact fun s h => h
    | succ k ih =>
      intro s h
      unfold serveQueriesLoop
      split
      · exact h
      · split
        · exact h
        · split
          · exact ih _ (noFrame_request hq.answers (hq.queries _) h)
          · exact ih _ h
  exact hloop _ s h

theorem considerLoop_link (k : Nat) (hp : postedPositions s = []) : (considerLoop k s).link = s.link := by
  induction k generalizing s with
  | zero => rfl
  | succ k ih =>
    have hround : considerRound { s with lines := { s.lines with notice := false } }
        = { s with lines := { s.lines with notice := false } } := by
      have hp' : postedPositions { s with lines := { s.lines with notice := false } } = [] := hp
      unfold considerRound
      rw [hp']
      rfl
    rw [considerLoop_succ, hround]
    split
    · exact ih (s := { s with lines := { s.lines with notice := false } }) hp
    · rfl

theorem considerPosted_link (hp : postedPositions s = []) : (considerPosted s).link = s.link := by
  unfold considerPosted
  split
  · exact considerLoop_link 64 hp
  · rfl

/-- With no position POSTED the end of a step asks for what the custody queue and the query queue ask for alone. -/
theorem noFrame_settle (hq : Unasked q) (hp : postedPositions s = []) (h : hasFrame s q = false) :
    hasFrame (settle s) q = false := by
  have hcustody := custodyWork_sameBut s
  have hp' : postedPositions (custodyWork s) = [] :=
    (postedPositions_eq (hcustody .entries (by decide)) (hcustody .locals (by decide))).trans hp
  refine noFrame_serveQueries hq ?_
  rw [hasFrame_of_link (considerPosted_link hp')]
  exact noFrame_custodyWork hq h

end Unasked

/-! ## Another station's CLAIM overtakes the own one (R132, R145) -/

section Claim

variable {h : Header} {b : ClaimBody} {l : LineId} {p : PosId} {m : SlotId} {d : DescId} {s : State}

/-- The positions considered are those that are POSTED in an entry that is not free. -/
theorem exists_mem_postedPositions : (∃ n, (n, l, p) ∈ postedPositions s) ↔
    (entryAt s l).state ≠ .free ∧ (positionOf s l p).state = .posted := by
  unfold postedPositions
  simp only [List.mem_flatMap, List.mem_finRange, true_and]
  constructor
  · rintro ⟨n, l', hm⟩
    split at hm
    · cases hm
    · rename_i hfree
      obtain ⟨p', -, hp'⟩ := List.mem_filterMap.mp hm
      split at hp'
      · rename_i hposted
        cases hp'
        exact ⟨hfree, hposted⟩
      · cases hp'
  · rintro ⟨hfree, hposted⟩
    refine ⟨match (localAt s l p).note with | none => 0 | some n => n.place, l, ?_⟩
    rw [if_neg hfree]
    exact List.mem_filterMap.mpr ⟨p, List.mem_finRange p, if_pos hposted⟩

/-- The one POSTED position CLAIMED, none is POSTED. -/
theorem postedPositions_claimRecorded (src : Node) (hs : ∀ x ∈ postedPositions s, x.2 = (l, p)) :
    postedPositions (claimRecorded src l p m s) = [] := by
  have only : ∀ l' p', (entryAt s l').state ≠ .free → (positionOf s l' p').state = .posted → (l', p') = (l, p) := by
    intro l' p' hfree hposted
    obtain ⟨n, hn⟩ := exists_mem_postedPositions.mpr ⟨hfree, hposted⟩
    exact hs _ hn
  rw [List.eq_nil_iff_forall_not_mem]
  rintro ⟨n, l', p'⟩ hx
  obtain ⟨hfree, hposted⟩ := exists_mem_postedPositions.mp ⟨n, hx⟩
  unfold positionOf at hposted
  rw [entryAt_claimRecorded] at hfree hposted
  by_cases hl : l' = l
  · subst hl
    rw [if_pos rfl] at hfree hposted
    unfold withPosition at hfree hposted
    rw [tget_tset] at hposted
    split at hposted
    · cases hposted
    · rename_i hp
      exact hp (Prod.ext_iff.mp (only l' p' hfree hposted)).2
  · rw [if_neg hl] at hfree hposted
    exact hl (Prod.ext_iff.mp (only l' p' hfree hposted)).1

theorem isSettlementFor_of_isClaimFor {pos : PosRef} {f : TxFrame} (hf : isClaimFor pos f = true) : isSettlementFor pos f = true := by
  cases f
  case claim b => exact beq_iff_eq.mpr (congrArg some (eq_of_beq hf))
  all_goals cases hf

/-- A CLAIM that is not on the bus is taken out by its position's settlement. -/
theorem claim_mem_takenBy {pos : PosRef} (hf : hasFrame s (isClaimFor pos) = true)
    (hw : ∀ e ∈ s.link.queue, isClaimFor pos e.frame = true → isWaiting s.link e = true) :
    ∃ b, .claim b ∈ takenBy s.link (isSettlementFor pos) ∧ b.pos = pos := by
  have named : ∀ f, isClaimFor pos f = true → ∃ b, f = .claim b ∧ b.pos = pos := fun f hf => by
    cases f
    case claim b => exact ⟨b, rfl, eq_of_beq hf⟩
    all_goals cases hf
  have taken : ∀ f, isClaimFor pos f = true → f ∈ takenBy s.link (isSettlementFor pos) →
      ∃ b, .claim b ∈ takenBy s.link (isSettlementFor pos) ∧ b.pos = pos := fun f hf hm => by
    obtain ⟨b, rfl, hpos⟩ := named f hf
    exact ⟨b, hm, hpos⟩
  rcases (hasFrame_iff s _).mp hf with ⟨f, hm, hp⟩ | ⟨e, hm, hp⟩
  · exact taken f hp (List.mem_append_left _ (List.mem_filter.mpr ⟨hm, isSettlementFor_of_isClaimFor hp⟩))
  · refine taken e.frame hp (List.mem_append_right _ (List.mem_map_of_mem (List.mem_filter.mpr ⟨hm, ?_⟩)))
    rw [isSettlementFor_of_isClaimFor hp, hw e hm hp]
    rfl

theorem claim_overtaken (hr : Reaches s h (.claim b)) (ho : h.src ≠ ownNode s) (hf : ClaimFits b l p m s)
    (ht : s.dir.reserveTaken m b.count.toNat = true) (hd : findClaiming s b.pos = some d)
    (hq : hasFrame s (isClaimFor b.pos) = true)
    (hw : ∀ e ∈ s.link.queue, isClaimFor b.pos e.frame = true → isWaiting s.link e = true) (hc : s.pool.claiming = [d])
    (hs : ∀ x ∈ postedPositions s, x.2 = (l, p)) :
    Yields (.claim h b) s fun t => hasFrame t (isClaimFor b.pos) = false ∧ ClaimReturned d s t := by
  have ho' : h.src ≠ ownNode (receivedIntact s) := ho
  refine yields_received (c := .claim h b) rfl hr (fun _ => rfl) ((hf.received.taken ht).trans (claimTaken_other ho')) ?_
  obtain ⟨u, hu⟩ : ∃ u, u = claimRecorded h.src l p m (receivedIntact s) := ⟨_, rfl⟩
  have hlink : u.link = (receivedIntact s).link := by rw [hu]; rfl
  have hposted : postedPositions u = [] := hu ▸ postedPositions_claimRecorded (s := receivedIntact s) h.src hs
  have hpool : u.pool = s.pool := by rw [hu]; rfl
  rw [posRefOf_of_found hf.received.found, ← hu]
  have hq' : hasFrame u (isClaimFor b.pos) = true := by
    rw [hasFrame_of_link hlink]
    exact hq
  have hw' : ∀ e ∈ u.link.queue, isClaimFor b.pos e.frame = true → isWaiting u.link e = true := by
    rw [hlink]
    exact hw
  have hreturned : Returned d s (retractSettlements b.pos u) :=
    KeptOrReturned.returnClaims_of_mem (.inl ((retract_pool _ u).trans hpool)) hc hd (claim_mem_takenBy hq' hw')
  have hgone : hasFrame (retractSettlements b.pos u) (isClaimFor b.pos) = false := by
    unfold retractSettlements retractClaims
    rw [hasFrame_of_link (returnClaims_link _ _)]
    refine noFrame_retracted (isClaimFor_unasked _).answers (fun f _ hn => ?_) fun e he hn => ?_
    · rw [Bool.eq_false_iff]
      exact fun hp => by rw [isSettlementFor_of_isClaimFor hp] at hn; cases hn
    · rw [Bool.eq_false_iff]
      exact fun hp => by rw [isSettlementFor_of_isClaimFor hp, hw' e he hp] at hn; cases hn
  have hsame : SameBut claiming u (giveNotice (retractSettlements b.pos u)) :=
    (retractClaims_sameBut _ u).comp (giveNotice_sameBut _) (by decide) (by decide)
  have hposted' : postedPositions (giveNotice (retractSettlements b.pos u)) = [] :=
    (postedPositions_eq (hsame .entries (by decide)) (hsame .locals (by decide))).trans hposted
  exact ⟨noFrame_settle (isClaimFor_unasked _) hposted' hgone,
    (hreturned.of_pool (v := giveNotice (retractSettlements b.pos u)) rfl).settled (.inl hposted')⟩

end Claim

end Sys2Proof.Machine
end


section
/-! SUPPORT. CLAIM, concluded: the job of the owner of a CLAIM that is taken (R146), and O22. -/
set_option Elab.async false

namespace Sys2Proof.Machine

/-! ## A queue of the pool that claims do not touch (R143) -/

/-- A queue of the pool stands as given, and what it holds is neither free nor in CLAIMING. -/
structure HeldIn (held : Pool → List DescId) (ds : List DescId) (p : Pool) (_ : Vector (List Segment) 48) : Prop where
  list : held p = ds
  apart : ∀ x ∈ ds, x ∉ p.free ∧ x ∉ p.claiming

/-- Returned and granted claims leave such a queue as it is. -/
theorem heldIn_keeps {held : Pool → List DescId} (mark : ∀ p r, held { p with refused := r } = held p)
    (freed : ∀ p d, held (poolFreed p d) = (held p).filter (· != d))
    (granted : ∀ p d descs, held { p.toClaiming d with descs := descs } = (held p).filter (· != d)) (ds : List DescId) :
    PoolKeeps (HeldIn held ds) where
  phase := fun _ _ _ h => ⟨h.list, h.apart⟩
  mark := fun r h => ⟨(mark _ r).trans h.list, h.apart⟩
  free := fun {p g d} hd h => by
    have hne : ∀ x ∈ ds, x ≠ d := fun x hx e => (h.apart x hx).2 (e ▸ hd)
    refine ⟨?_, fun x hx => ?_⟩
    · rw [freed, h.list]
      exact List.filter_eq_self.mpr fun x hx => bne_iff_ne.mpr (hne x hx)
    · obtain ⟨hfree, hclaiming⟩ := h.apart x hx
      simp [poolFreed, Pool.unqueue, Pool.returnBlocks, hne x hx, hfree, hclaiming]
  grant := fun {p g d} _ hd h => by
    have hne : ∀ x ∈ ds, x ≠ d := fun x hx e => (h.apart x hx).1 (e ▸ hd)
    refine ⟨?_, fun x hx => ?_⟩
    · rw [granted, h.list]
      exact List.filter_eq_self.mpr fun x hx => bne_iff_ne.mpr (hne x hx)
    · obtain ⟨hfree, hclaiming⟩ := h.apart x hx
      simp [Pool.toClaiming, Pool.unqueue, hne x hx, hfree, hclaiming]

theorem loading_keeps (ds : List DescId) : PoolKeeps (HeldIn Pool.loading ds) :=
  heldIn_keeps (fun _ _ => rfl) (fun _ _ => rfl) (fun _ _ _ => rfl) ds

theorem urgent_keeps (ds : List DescId) : PoolKeeps (HeldIn Pool.urgent ds) :=
  heldIn_keeps (fun _ _ => rfl) (fun _ _ => rfl) (fun _ _ _ => rfl) ds

/-- What stands of the pool stands at the end of the step in which a CLAIM has settled its position. -/
theorem PoolKeeps.claimSettled {I : Pool → Vector (List Segment) 48 → Prop} (hI : PoolKeeps I) (pos : PosRef) {u : State}
    (h : ofPool I u) : ofPool I (Machine.settle (giveNotice (retractSettlements pos u))) :=
  hI.settle (ofPool_of_eq (s := retractSettlements pos u) rfl rfl (hI.returnClaims _ (hI.retract _ h)))

/-! ## The job of a claim that is won (R146) -/

section Won

variable {d : DescId} {m : SlotId} {pos : PosRef} {s : State}

/-- A descriptor in CLAIMING is in no other queue (R143). -/
theorem not_queued_of_claiming (ho : OneQueueEach s) (hd : d ∈ s.pool.claiming) :
    d ∉ s.pool.loading ∧ d ∉ s.pool.urgent ∧ s.pool.engine ≠ some d := by
  have hc := ho d
  unfold poolQueues at hc
  simp only [List.count_append] at hc
  have hone := List.count_pos_iff.mpr hd
  refine ⟨List.count_eq_zero.mp (by omega), List.count_eq_zero.mp (by omega), fun he => ?_⟩
  rw [he] at hc
  simp at hc
  omega

/-- A job in LOADING or URGENT is neither free nor in CLAIMING (R143). -/
theorem not_claiming_of_queued (ho : OneQueueEach s) {x : DescId} (hx : x ∈ s.pool.loading ∨ x ∈ s.pool.urgent) :
    x ∉ s.pool.free ∧ x ∉ s.pool.claiming := by
  have hc := ho x
  unfold poolQueues at hc
  simp only [List.count_append] at hc
  have hone : 1 ≤ s.pool.loading.count x + s.pool.urgent.count x := by
    rcases hx with hx | hx
    all_goals have := List.count_pos_iff.mpr hx; omega
  exact ⟨List.count_eq_zero.mp (by omega), List.count_eq_zero.mp (by omega)⟩

/-- The won job's descriptor: its context has the master slot's version. -/
def wonDesc (s : State) (d : DescId) (m : SlotId) : Descriptor :=
  { descOf s d with ctx := { (descOf s d).ctx with version := (s.dir.slot m).version } }

/-- The version recorded. -/
def wonVersioned (s : State) (d : DescId) (m : SlotId) : State :=
  modDesc s d (fun x => { x with ctx := { x.ctx with version := (s.dir.slot m).version } })

theorem descOf_wonVersioned (s : State) (d : DescId) (m : SlotId) : descOf (wonVersioned s d m) d = wonDesc s d m :=
  tget_tset_self _ _ _

/-- A single job won, before the engine looks at it, is in URGENT. -/
def wonUrgent (s : State) (d : DescId) (m : SlotId) : State :=
  withPool (wonVersioned s d m) ((wonVersioned s d m).pool.toUrgent d)

theorem claimWon_single (hd : findClaiming s pos = some d) (hm : slotOf? (descOf s d).master = some m)
    (hk : (descOf s d).kind = .single) :
    claimWon pos s = workArrived (wonUrgent s d m) := by
  have hk' : (descOf (wonVersioned s d m) d).kind = .single := (congrArg Descriptor.kind (descOf_wonVersioned s d m)).trans hk
  unfold wonUrgent
  unfold wonVersioned at hk' ⊢
  unfold claimWon
  rw [hd]
  dsimp only
  rw [hm]
  dsimp only
  rw [hk']

theorem claimWon_batch (hd : findClaiming s pos = some d) (hm : slotOf? (descOf s d).master = some m)
    (hk : (descOf s d).kind = .batch) :
    claimWon pos s = modDesc (withPool (wonVersioned s d m) ((wonVersioned s d m).pool.toLoading d)) d
      (fun x => { x with gapRunning := true }) := by
  have hk' : (descOf (wonVersioned s d m) d).kind = .batch := (congrArg Descriptor.kind (descOf_wonVersioned s d m)).trans hk
  unfold wonVersioned at hk' ⊢
  unfold claimWon
  rw [hd]
  dsimp only
  rw [hm]
  dsimp only
  rw [hk']

/-- A descriptor moved out of CLAIMING to the tail of a queue: the queue holds what it held and the descriptor. -/
theorem heldIn_moved {held : Pool → List DescId} {p : Pool} {g : Vector (List Segment) 48} (ho : OneQueueEach s)
    (hq : ∀ x ∈ held s.pool, x ∈ s.pool.loading ∨ x ∈ s.pool.urgent) (hd : d ∉ held s.pool)
    (hlist : held p = (held s.pool).filter (· != d) ++ [d]) (hfree : p.free = s.pool.free.filter (· != d))
    (hclaiming : p.claiming = s.pool.claiming.filter (· != d)) : HeldIn held (held s.pool ++ [d]) p g := by
  refine ⟨?_, fun x hx => ?_⟩
  · have hne : ∀ x ∈ held s.pool, x ≠ d := fun x hx e => hd (e ▸ hx)
    rw [hlist, List.filter_eq_self.mpr fun x hx => bne_iff_ne.mpr (hne x hx)]
  · rw [hfree, hclaiming]
    rcases List.mem_append.mp hx with hx | hx
    · obtain ⟨h1, h2⟩ := not_claiming_of_queued ho (hq x hx)
      exact ⟨fun h => h1 (List.mem_of_mem_filter h), fun h => h2 (List.mem_of_mem_filter h)⟩
    · rw [List.mem_singleton.mp hx]
      simp

/-- The job stands as given, current or not. -/
abbrev WonJob (d : DescId) (x : Descriptor) (current : Prop) : Pool → Vector (List Segment) 48 → Prop :=
  JobStands d x current (fun _ => True) []

theorem wonJob_keeps (d : DescId) (x : Descriptor) (current : Prop) : PoolKeeps (WonJob d x current) :=
  jobStands_keeps d x current (fun _ _ _ _ => trivial) []

/-- A batch won is in LOADING with its deadline running. -/
theorem claimWon_loading (ho : OneQueueEach s) (hd : findClaiming s pos = some d) (hm : slotOf? (descOf s d).master = some m)
    (hk : (descOf s d).kind = .batch) :
    ofPool (HeldIn Pool.loading (s.pool.loading ++ [d])) (claimWon pos s)
    ∧ ofPool (WonJob d { wonDesc s d m with gapRunning := true } False) (claimWon pos s) := by
  obtain ⟨hloading, -, hengine⟩ := not_queued_of_claiming ho (findClaiming_mem hd)
  rw [claimWon_batch hd hm hk]
  refine ⟨heldIn_moved ho (fun _ hx => .inl hx) hloading rfl rfl rfl, ?_⟩
  refine ⟨fun h => ?_, fun h => ?_, ?_, ?_, trivial, fun _ h => absurd h List.not_mem_nil⟩
  · exact absurd (List.of_mem_filter (p := (· != d)) h) (by simp)
  · exact absurd (List.of_mem_filter (p := (· != d)) h) (by simp)
  · have hdescs : (modDesc (withPool (wonVersioned s d m) ((wonVersioned s d m).pool.toLoading d)) d
        (fun x => { x with gapRunning := true })).pool.descs
        = tset (wonVersioned s d m).pool.descs d { descOf (wonVersioned s d m) d with gapRunning := true } := rfl
    rw [hdescs, tget_tset_self, descOf_wonVersioned]
  · refine iff_false_intro fun h => ?_
    have hout : (if s.pool.engine = some d then none else s.pool.engine) = some d := h
    rw [if_neg hengine] at hout
    exact hengine hout

theorem wonUrgent_engine (hengine : s.pool.engine ≠ some d) : (wonUrgent s d m).pool.engine = s.pool.engine := if_neg hengine

theorem descOf_wonUrgent (s : State) (d : DescId) (m : SlotId) : descOf (wonUrgent s d m) d = wonDesc s d m :=
  descOf_wonVersioned s d m

/-- With a current job the engine goes on with it: the single job won waits in URGENT. -/
theorem claimWon_urgent (ho : OneQueueEach s) (hd : findClaiming s pos = some d) (hm : slotOf? (descOf s d).master = some m)
    (hk : (descOf s d).kind = .single) {c : DescId} (hc : s.pool.engine = some c) :
    ofPool (HeldIn Pool.urgent (s.pool.urgent ++ [d])) (claimWon pos s)
    ∧ ofPool (WonJob d (wonDesc s d m) False) (claimWon pos s) := by
  obtain ⟨-, hurgent, hengine⟩ := not_queued_of_claiming ho (findClaiming_mem hd)
  have hstays : claimWon pos s = wonUrgent s d m := by
    rw [claimWon_single hd hm hk]
    exact if_neg (by rw [wonUrgent_engine hengine, hc]; simp)
  rw [hstays]
  refine ⟨heldIn_moved ho (fun _ hx => .inr hx) hurgent rfl rfl rfl, ?_⟩
  refine ⟨fun h => ?_, fun h => ?_, descOf_wonUrgent s d m, ?_, trivial, fun _ h => absurd h List.not_mem_nil⟩
  · exact absurd (List.of_mem_filter (p := (· != d)) h) (by simp)
  · exact absurd (List.of_mem_filter (p := (· != d)) h) (by simp)
  · rw [wonUrgent_engine hengine]
    exact iff_false_intro hengine

/-- A card start with usable keys: the card is in flight, the pool as it was (R158). -/
theorem cardStart_usable {m' : SlotId} (hk : keysUsable s (descOf s d) = some m') :
    (cardStart s d).pool = s.pool ∧ (cardStart s d).engine.inFlight.isSome = true := by
  have hclose : (earlyClose s d (s.dir.slot m').version).pool = s.pool := earlyClose_sameBut s d _ .pool (by decide)
  unfold cardStart
  rw [hk]
  exact ⟨hclose, rfl⟩

/-- An idle engine takes the head of URGENT (R157). -/
theorem engineWork_urgent {rest : List DescId} {m' : SlotId} (he : s.pool.engine = none) (hu : s.pool.urgent = d :: rest)
    (hk : keysUsable (loadJob s d) (descOf (loadJob s d) d) = some m') : engineWork s = cardStart (loadJob s d) d := by
  have hnext : startNext s = some (cardStart (loadJob s d) d) := by
    unfold startNext
    rw [he, hu]
  unfold engineWork takeWork
  rw [hnext]
  exact if_pos (cardStart_usable hk).2

/-- An idle engine starts the card of the single job won. -/
theorem claimWon_starts (ho : OneQueueEach s) (hd : findClaiming s pos = some d) (hm : slotOf? (descOf s d).master = some m)
    (hk : (descOf s d).kind = .single) (he : s.pool.engine = none) (hu : s.pool.urgent = []) {m' : SlotId}
    (hkeys : keysUsable s (descOf s d) = some m') :
    ofPool (WonJob d (wonDesc s d m) True) (claimWon pos s) ∧ (claimWon pos s).engine.inFlight.isSome = true := by
  obtain ⟨-, -, hengine⟩ := not_queued_of_claiming ho (findClaiming_mem hd)
  have hidle : (wonUrgent s d m).pool.engine = none := (wonUrgent_engine hengine).trans he
  have hhead : (wonUrgent s d m).pool.urgent = [d] := by
    have hlist : (wonUrgent s d m).pool.urgent = s.pool.urgent.filter (· != d) ++ [d] := rfl
    rw [hlist, hu]
    rfl
  have hdesc : descOf (loadJob (wonUrgent s d m) d) d = wonDesc s d m := descOf_wonUrgent s d m
  have hkeys' : keysUsable (loadJob (wonUrgent s d m) d) (descOf (loadJob (wonUrgent s d m) d) d) = some m' := by
    rw [hdesc]
    exact hkeys
  have hstart : claimWon pos s = cardStart (loadJob (wonUrgent s d m) d) d := by
    rw [claimWon_single hd hm hk]
    exact (if_pos hidle).trans (engineWork_urgent hidle hhead hkeys')
  obtain ⟨hpool, hflight⟩ := cardStart_usable hkeys'
  rw [hstart]
  refine ⟨?_, hflight⟩
  unfold ofPool
  rw [hpool]
  refine ⟨fun h => ?_, fun h => ?_, hdesc, iff_true_intro rfl, trivial, fun _ h => absurd h List.not_mem_nil⟩
  · exact absurd (List.of_mem_filter (p := (· != d)) h) (by simp)
  · exact absurd (List.of_mem_filter (p := (· != d)) h) (by simp)

end Won

/-! ## The owner of a CLAIM that is taken (R133, R146) -/

section Claim

variable {h : Header} {b : ClaimBody} {l : LineId} {p : PosId} {m : SlotId} {d : DescId} {s : State}

theorem claim_won (hr : Reaches s h (.claim b)) (ho : h.src = ownNode s) (hf : ClaimFits b l p m s)
    (ht : s.dir.reserveTaken m b.count.toNat = true) (hd : findClaiming s b.pos = some d)
    (hmaster : (descOf s d).master = b.master) (hone : OneQueueEach s) :
    Yields (.claim h b) s fun t =>
      ((descOf s d).kind = .batch → t.pool.loading = s.pool.loading ++ [d]
        ∧ descOf t d = { descOf s d with
            gapRunning := true, ctx := { (descOf s d).ctx with version := (s.dir.slot m).version } })
      ∧ (∀ c, (descOf s d).kind = .single → s.pool.engine = some c → t.pool.urgent = s.pool.urgent ++ [d]
        ∧ descOf t d = { descOf s d with ctx := { (descOf s d).ctx with version := (s.dir.slot m).version } })
      ∧ (∀ m', (descOf s d).kind = .single → s.pool.engine = none → s.pool.urgent = [] →
          keysUsable s (descOf s d) = some m' → t.pool.engine = some d ∧ t.engine.inFlight ≠ none) := by
  have ho' : h.src = ownNode (receivedIntact s) := ho
  refine yields_received (c := .claim h b) rfl hr (fun _ => rfl) ((hf.received.taken ht).trans (claimTaken_own ho')) ?_
  rw [posRefOf_of_found hf.received.found]
  obtain ⟨w, hw⟩ : ∃ w, w = claimRecorded h.src l p m (receivedIntact s) := ⟨_, rfl⟩
  have hpool : w.pool = s.pool := by rw [hw]; rfl
  have hversion : (w.dir.slot m).version = (s.dir.slot m).version := by rw [hw]; rfl
  have hdesc : descOf w d = descOf s d := by unfold descOf; rw [hpool]
  have hwon : wonDesc w d m = wonDesc s d m := by unfold wonDesc; rw [hdesc, hversion]
  have hone' : OneQueueEach w := by unfold OneQueueEach; rw [hpool]; exact hone
  have hd' : findClaiming w b.pos = some d := (findClaiming_eq hpool b.pos).trans hd
  have hm : slotOf? (descOf w d).master = some m := by rw [hdesc, hmaster]; exact hf.slot
  have hkeys : ∀ x, keysUsable w x = keysUsable s x := fun x => by rw [hw]; rfl
  rw [← hw]
  refine ⟨fun hk => ?_, fun c hk hc => ?_, fun m' hk he hu hm' => ?_⟩
  · obtain ⟨hloading, hjob⟩ := claimWon_loading hone' hd' hm (by rw [hdesc]; exact hk)
    have hlist := ((loading_keeps _).claimSettled b.pos hloading).list
    have hstands := ((wonJob_keeps d _ False).claimSettled b.pos hjob).desc
    rw [hpool] at hlist
    rw [hwon] at hstands
    exact ⟨hlist, hstands⟩
  · obtain ⟨hurgent, hjob⟩ := claimWon_urgent hone' hd' hm (by rw [hdesc]; exact hk) (by rw [hpool]; exact hc)
    have hlist := ((urgent_keeps _).claimSettled b.pos hurgent).list
    have hstands := ((wonJob_keeps d _ False).claimSettled b.pos hjob).desc
    rw [hpool] at hlist
    rw [hwon] at hstands
    exact ⟨hlist, hstands⟩
  · obtain ⟨hjob, hflight⟩ := claimWon_starts hone' hd' hm (by rw [hdesc]; exact hk) (by rw [hpool]; exact he)
      (by rw [hpool]; exact hu) (m' := m') (by rw [hkeys, hdesc]; exact hm')
    refine ⟨((wonJob_keeps d _ True).claimSettled b.pos hjob).engine.mpr trivial, fun hnone => ?_⟩
    have hsame : SameBut reacting (claimWon b.pos w) (settle (giveNotice (retractSettlements b.pos (claimWon b.pos w)))) :=
      ((retractClaims_sameBut _ _).comp (giveNotice_sameBut _) (e := reacting) (by decide) (by decide)).trans (settle_sameBut _)
    have hkept : (settle (giveNotice (retractSettlements b.pos (claimWon b.pos w)))).engine.inFlight
        = (claimWon b.pos w).engine.inFlight := hsame .inFlight (by decide)
    rw [← hkept, hnone] at hflight
    cases hflight

end Claim

/-- Settles O22: each CLAIM by what it finds and by whose it is. -/
theorem claimSettlesPosition : Obligations.ClaimSettlesPosition :=
  ⟨fun _ _ _ _ _ _ hr h1 h2 h3 h4 h5 h6 h7 ht => claim_taken hr ⟨h1, h2, h3, h4, h5, h6, h7⟩ ht,
    fun _ _ _ _ _ _ hr h1 h2 h3 h4 h5 h6 h7 ht => claim_overrun hr ⟨h1, h2, h3, h4, h5, h6, h7⟩ ht,
    fun _ _ _ hr hn => claim_unfit hr hn,
    fun _ _ _ _ _ _ _ hr ho h1 h2 h3 h4 h5 h6 h7 ht hd hmaster hone =>
      claim_won hr ho ⟨h1, h2, h3, h4, h5, h6, h7⟩ ht hd hmaster hone,
    fun _ _ _ _ hr ho hn hd _ hs => claim_late hr ho hn hd hs,
    fun _ _ _ _ _ _ _ hr ho h1 h2 h3 h4 h5 h6 h7 ht hd hc _ =>
      claim_overrun_own hr ho ⟨h1, h2, h3, h4, h5, h6, h7⟩ ht hd hc,
    fun _ _ _ _ _ _ _ hr ho h1 h2 h3 h4 h5 h6 h7 ht hd hq hw _ hc hs =>
      claim_overtaken hr ho ⟨h1, h2, h3, h4, h5, h6, h7⟩ ht hd hq hw hc hs,
    fun _ _ _ _ hb he hd _ hs => claim_withdrawn hb he hd hs⟩

end Sys2Proof.Machine
end
